-- ==== Sys2Proof/Word.lean ====
section
/-! DEFINITION. The word types of the Brynset: bytes, 32-bit lanes, 64-bit doublewords, 96-bit accumulators, and sparse tables keyed by a number. -/

namespace Sys2Proof

/-- A byte of memory. -/
abbrev Byte := BitVec 8
/-- A lane of a packet (R83), and a 32-bit register. -/
abbrev Lane := BitVec 32
/-- A doubleword: a slot word, a sequencer word, a header word (R281, R288, R299). -/
abbrev Dword := BitVec 64
/-- An accumulator of the bank A0 to A63 (R67, R110). -/
abbrev Acc := BitVec 96

/-- A sparse table: pairs of a key and a value, keys strictly rising, no value equal to the default.
An unlisted key holds the default, which is the reset value. -/
abbrev PMap (α : Type) := List (Nat × α)

/-- The value at a key: the listed one, else the default. -/
def PMap.get {α : Type} [Inhabited α] : PMap α → Nat → α
  | [], _ => default
  | (j, v) :: m, k => if j = k then v else PMap.get m k

/-- The table with every entry of one key taken out. -/
def PMap.erase {α : Type} : PMap α → Nat → PMap α
  | [], _ => []
  | (j, v) :: m, k => if j = k then PMap.erase m k else (j, v) :: PMap.erase m k

/-- The table with one entry put in at its place, whatever the value. -/
def PMap.insert {α : Type} : PMap α → Nat → α → PMap α
  | [], k, v => [(k, v)]
  | (j, u) :: m, k, v => if k < j then (k, v) :: (j, u) :: m else (j, u) :: PMap.insert m k v

/-- The table with one key given a value; a default value is not listed. -/
def PMap.set {α : Type} [Inhabited α] [DecidableEq α] (m : PMap α) (k : Nat) (v : α) : PMap α :=
  if v = default then PMap.erase m k else PMap.insert (PMap.erase m k) k v

/-- The table with the value of one key changed by a function. -/
def PMap.modify {α : Type} [Inhabited α] [DecidableEq α] (m : PMap α) (k : Nat) (f : α → α) : PMap α :=
  PMap.set m k (f (PMap.get m k))

/-- The keys strictly rise. -/
def PMap.rising {α : Type} : PMap α → Bool
  | [] => true
  | [_] => true
  | (j, _) :: (k, v) :: m => decide (j < k) && PMap.rising ((k, v) :: m)

/-- The canonical form of a table: keys strictly rising and no default value listed. -/
def PMap.wf {α : Type} [Inhabited α] [DecidableEq α] (m : PMap α) : Bool :=
  PMap.rising m && m.all (fun p => decide (p.2 ≠ default))

end Sys2Proof
end

