-- ==== Sys2Proof/Syntax.lean ====
section
/-! DEFINITION. The instruction syntax: one constructor of `Instr` for each row of spec/opcode_table.json, and the types of their fields. -/

namespace Sys2Proof

/-- The operand types of R285. `b8 k` is binary8 of precision k + 1, `b8n k` its unsigned form. -/
inductive Ty where
  | n32 | s32 | n16 | s16 | n8 | s8 | n64 | s64 | f32 | h16 | bf16 | mx6e2 | mx6e3 | mx4 | mxi8 | any
  | b8 (k : Fin 7)
  | b8n (k : Fin 7)
  deriving DecidableEq, Repr, Inhabited

/-- The rounding codes of R112; code 7 is reserved and names none. -/
inductive Rnd where
  | rne | rtz | rup | rdn | rna | blk | sr
  deriving DecidableEq, Repr, Inhabited

/-- The four forms of the FN field (R284). -/
inductive Fn where
  | tr (t : Ty) (r : Rnd)
  | ty (t : Ty) (sub : BitVec 3)
  | sh (n : BitVec 4) (fmt : BitVec 4)
  | im (v : BitVec 8)
  deriving DecidableEq, Repr, Inhabited

/-- The fields of a slot word apart from OP and FN (R281, R282). V is 1 in every armed slot word (R283). -/
structure Slot where
  awt : Bool := false
  pri : BitVec 2 := 0
  ocs : BitVec 4 := 0
  icn : BitVec 4 := 0
  nsm : BitVec 2 := 0
  ns : BitVec 6 := 0
  gm : BitVec 6 := 0
  gv : BitVec 6 := 0
  sa : BitVec 4 := 0
  sb : BitVec 4 := 0
  dt : BitVec 4 := 0
  tt : BitVec 4 := 0
  deriving DecidableEq, Repr, Inhabited

/-- The fields of a matrix control token apart from OPC (R185); bits [14:0] are zero. -/
structure MTok where
  mc : BitVec 2 := 0
  nc : BitVec 2 := 0
  kb : BitVec 12 := 0
  fa : BitVec 5 := 0
  fb : BitVec 5 := 0
  acc : Bool := false
  tr : Bool := false
  nms : BitVec 2 := 0
  abase : BitVec 12 := 0
  ntf : Bool := false
  deriving DecidableEq, Repr, Inhabited

/-- The header of a TRLS packet apart from OP (R264), with its payload. -/
structure TrlsHdr where
  tclass : BitVec 2 := 0
  spanel : BitVec 16 := 0
  dpanel : BitVec 16 := 0
  stream : BitVec 16 := 0
  kgen : BitVec 16 := 0
  psn : BitVec 32 := 0
  apsn : BitVec 32 := 0
  gpa : Dword := 0
  payload : List Byte := []
  deriving DecidableEq, Repr, Inhabited

/-- A rectangle of regions (R13, R38). -/
structure Rect where
  gx : Nat := 0
  gy : Nat := 0
  w : Nat := 0
  h : Nat := 0
  deriving DecidableEq, Repr, Inhabited

/-- A die with an identity of its own (R247): a fabric die, a bridge die, a port die, by its number. -/
inductive UnitId where
  | fabric (n : Nat)
  | bridge (n : Nat)
  | port (n : Nat)
  deriving DecidableEq, Repr, Inhabited

/-- What NEGOTIATE_ALGORITHMS offers in each field of R251: does it hold the one acceptable choice. -/
structure SpdmOffer where
  hash : Bool := false
  measHash : Bool := false
  aead : Bool := false
  sched : Bool := false
  asym : Bool := false
  kex : Bool := false
  deriving DecidableEq, Repr, Inhabited

/-- What bring-up finds outside the panel (R273, R267, R247, R249): whether the stored firmware set verifies, and for each die kind
(0 fabric, 1 bridge, 2 port) its SVN and the images of its stages 1 and 2; the configuration record; the root's random secret and its
policy: a die kind, a measurement block and a value accepted there. -/
structure Boot where
  setOk : Bool := false
  recordOk : Bool := false
  images : List (BitVec 8 × List Byte × List Byte) := []
  lms : BitVec 256 := 0
  panelNo : BitVec 16 := 0
  trlsPort : BitVec 16 := 0
  ports : List (BitVec 8 × BitVec 128) := []
  hosts : List (BitVec 128) := []
  peers : List (Nat × List (BitVec 128)) := []
  policy : List (Nat × Nat × List Byte) := []
  deriving DecidableEq, Repr, Inhabited

/-- One constructor for each row of spec/opcode_table.json: slot firings, sequencer words, matrix control tokens,
management commands, TRLS packets, and after them the events that no encoding names. -/
inductive Instr where
  /-- ADD (R318). -/
  | add (o : Slot) (f : Fn)
  /-- ADDS (R318). -/
  | adds (o : Slot) (f : Fn)
  /-- SUB (R386). -/
  | sub (o : Slot) (f : Fn)
  /-- SUBS (R386). -/
  | subs (o : Slot) (f : Fn)
  /-- MUL (R357). -/
  | mul (o : Slot) (f : Fn)
  /-- MULH (R357). -/
  | mulh (o : Slot) (f : Fn)
  /-- MULW (R357). -/
  | mulw (o : Slot) (f : Fn)
  /-- MAD (R357). -/
  | mad (o : Slot) (f : Fn)
  /-- MADW (R358). -/
  | madw (o : Slot) (f : Fn)
  /-- NEG (R359). -/
  | neg (o : Slot) (f : Fn)
  /-- ABS (R316). -/
  | abs (o : Slot) (f : Fn)
  /-- MIN (R359). -/
  | min (o : Slot) (f : Fn)
  /-- MAX (R359). -/
  | max (o : Slot) (f : Fn)
  /-- CLAMP (R332). -/
  | clamp (o : Slot) (f : Fn)
  /-- AND (R318). -/
  | and (o : Slot) (f : Fn)
  /-- OR (R359). -/
  | or (o : Slot) (f : Fn)
  /-- XOR (R386). -/
  | xor (o : Slot) (f : Fn)
  /-- ANDN (R318). -/
  | andn (o : Slot) (f : Fn)
  /-- NOT (R359). -/
  | not (o : Slot) (f : Fn)
  /-- SHL (R386). -/
  | shl (o : Slot) (f : Fn)
  /-- SHR (R386). -/
  | shr (o : Slot) (f : Fn)
  /-- SAR (R386). -/
  | sar (o : Slot) (f : Fn)
  /-- ROTL (R359). -/
  | rotl (o : Slot) (f : Fn)
  /-- CLZ (R316). -/
  | clz (o : Slot) (f : Fn)
  /-- CTZ (R316). -/
  | ctz (o : Slot) (f : Fn)
  /-- POPC (R359). -/
  | popc (o : Slot) (f : Fn)
  /-- BREV (R316). -/
  | brev (o : Slot) (f : Fn)
  /-- BFX (R326). -/
  | bfx (o : Slot) (f : Fn)
  /-- BFI (R326). -/
  | bfi (o : Slot) (f : Fn)
  /-- CMP (R318). -/
  | cmp (o : Slot) (f : Fn)
  /-- SEL (R391). -/
  | sel (o : Slot) (f : Fn)
  /-- QDIV (R379). -/
  | qdiv (o : Slot) (f : Fn)
  /-- FADD (R340). -/
  | fadd (o : Slot) (f : Fn)
  /-- FSUB (R340). -/
  | fsub (o : Slot) (f : Fn)
  /-- FMUL (R340). -/
  | fmul (o : Slot) (f : Fn)
  /-- FMA (R340). -/
  | fma (o : Slot) (f : Fn)
  /-- FNMA (R340). -/
  | fnma (o : Slot) (f : Fn)
  /-- FMIN (R340). -/
  | fmin (o : Slot) (f : Fn)
  /-- FMAX (R340). -/
  | fmax (o : Slot) (f : Fn)
  /-- FABS (R340). -/
  | fabs (o : Slot) (f : Fn)
  /-- FNEG (R340). -/
  | fneg (o : Slot) (f : Fn)
  /-- FCMP (R341). -/
  | fcmp (o : Slot) (f : Fn)
  /-- FCLASS (R341). -/
  | fclass (o : Slot) (f : Fn)
  /-- FRND (R343). -/
  | frnd (o : Slot) (f : Fn)
  /-- FCVT (R343). -/
  | fcvt (o : Slot) (f : Fn)
  /-- FSCL (R343). -/
  | fscl (o : Slot) (f : Fn)
  /-- FEXPN (R341). -/
  | fexpn (o : Slot) (f : Fn)
  /-- FRCP (R342). -/
  | frcp (o : Slot) (f : Fn)
  /-- FRSQ (R342). -/
  | frsq (o : Slot) (f : Fn)
  /-- FSQRT (R342). -/
  | fsqrt (o : Slot) (f : Fn)
  /-- FDIV (R342). -/
  | fdiv (o : Slot) (f : Fn)
  /-- FEXP2 (R342). -/
  | fexp2 (o : Slot) (f : Fn)
  /-- FLOG2 (R342). -/
  | flog2 (o : Slot) (f : Fn)
  /-- FSIN (R342). -/
  | fsin (o : Slot) (f : Fn)
  /-- FCOS (R342). -/
  | fcos (o : Slot) (f : Fn)
  /-- FSNCS (R342). -/
  | fsncs (o : Slot) (f : Fn)
  /-- FICV (R343). -/
  | ficv (o : Slot) (f : Fn)
  /-- PKSPL (R373). -/
  | pkspl (o : Slot) (f : Fn)
  /-- PKMRG (R374). -/
  | pkmrg (o : Slot) (f : Fn)
  /-- PKLEN_GET (R373). -/
  | pklenGet (o : Slot) (f : Fn)
  /-- PKLEN_SET (R373). -/
  | pklenSet (o : Slot) (f : Fn)
  /-- LSWAP (R351). -/
  | lswap (o : Slot) (f : Fn)
  /-- LPERM (R351). -/
  | lperm (o : Slot) (f : Fn)
  /-- LBCAST (R351). -/
  | lbcast (o : Slot) (f : Fn)
  /-- LEXT (R351). -/
  | lext (o : Slot) (f : Fn)
  /-- LINS (R351). -/
  | lins (o : Slot) (f : Fn)
  /-- LRED (R352). -/
  | lred (o : Slot) (f : Fn)
  /-- LSCAN (R352). -/
  | lscan (o : Slot) (f : Fn)
  /-- EOFM (R338). -/
  | eofm (o : Slot) (f : Fn)
  /-- DOT (R336). -/
  | dot (o : Slot) (f : Fn)
  /-- AMAX (R320). -/
  | amax (o : Slot) (f : Fn)
  /-- SCLX (R389). -/
  | sclx (o : Slot) (f : Fn)
  /-- QNT (R380). -/
  | qnt (o : Slot) (f : Fn)
  /-- DQNT (R337). -/
  | dqnt (o : Slot) (f : Fn)
  /-- SCLM (R388). -/
  | sclm (o : Slot) (f : Fn)
  /-- UNP6 (R406). -/
  | unp6 (o : Slot) (f : Fn)
  /-- PCK6 (R368). -/
  | pck6 (o : Slot) (f : Fn)
  /-- NZC (R367). -/
  | nzc (o : Slot) (f : Fn)
  /-- ABRD (R315). -/
  | abrd (o : Slot) (f : Fn)
  /-- ABWR (R317). -/
  | abwr (o : Slot) (f : Fn)
  /-- FWD (R346). -/
  | fwd (o : Slot) (f : Fn)
  /-- STEER (R396). -/
  | steer (o : Slot) (f : Fn)
  /-- MRG (R360). -/
  | mrg (o : Slot) (f : Fn)
  /-- SPLT (R393). -/
  | splt (o : Slot) (f : Fn)
  /-- JOIN (R349). -/
  | join (o : Slot) (f : Fn)
  /-- SEQT_CNT (R392). -/
  | seqtCnt (o : Slot) (f : Fn)
  /-- SEQT_SET (R392). -/
  | seqtSet (o : Slot) (f : Fn)
  /-- SEQT_GET (R392). -/
  | seqtGet (o : Slot) (f : Fn)
  /-- BND (R330). -/
  | bnd (o : Slot) (f : Fn)
  /-- STSET (R398). -/
  | stset (o : Slot) (f : Fn)
  /-- STXOR (R398). -/
  | stxor (o : Slot) (f : Fn)
  /-- EXIT (R339). -/
  | exit (o : Slot) (f : Fn)
  /-- NOP (R366). -/
  | nop (o : Slot) (f : Fn)
  /-- TRAP (R405). -/
  | trap (o : Slot) (f : Fn)
  /-- BRK (R331). -/
  | brk (o : Slot) (f : Fn)
  /-- LDB (R353). -/
  | ldb (o : Slot) (f : Fn)
  /-- STB (R395). -/
  | stb (o : Slot) (f : Fn)
  /-- LDV (R355). -/
  | ldv (o : Slot) (f : Fn)
  /-- STV (R399). -/
  | stv (o : Slot) (f : Fn)
  /-- RCLM (R382). -/
  | rclm (o : Slot) (f : Fn)
  /-- GATH (R347). -/
  | gath (o : Slot) (f : Fn)
  /-- SCAT (R387). -/
  | scat (o : Slot) (f : Fn)
  /-- BFST (R328). -/
  | bfst (o : Slot) (f : Fn)
  /-- BFSET_FULL (R327). -/
  | bfsetFull (o : Slot) (f : Fn)
  /-- BFSET_EMPTY (R327). -/
  | bfsetEmpty (o : Slot) (f : Fn)
  /-- ATB (R322). -/
  | atb (o : Slot) (f : Fn)
  /-- SYA (R400). -/
  | sya (o : Slot) (f : Fn)
  /-- SYADD (R400). -/
  | syadd (o : Slot) (f : Fn)
  /-- SYWCH (R400). -/
  | sywch (o : Slot) (f : Fn)
  /-- LDG (R354). -/
  | ldg (o : Slot) (f : Fn)
  /-- STG (R397). -/
  | stg (o : Slot) (f : Fn)
  /-- ATG (R322). -/
  | atg (o : Slot) (f : Fn)
  /-- FNC (R345). -/
  | fnc (o : Slot) (f : Fn)
  /-- PFG (R369). -/
  | pfg (o : Slot) (f : Fn)
  /-- CPARM (R333). -/
  | cparm (o : Slot) (f : Fn)
  /-- CPDIS (R333). -/
  | cpdis (o : Slot) (f : Fn)
  /-- CPFIRE (R333). -/
  | cpfire (o : Slot) (f : Fn)
  /-- CPQ (R333). -/
  | cpq (o : Slot) (f : Fn)
  /-- TMOV (R182). -/
  | tmov (o : Slot) (f : Fn)
  /-- JCARD (R348). -/
  | jcard (o : Slot) (f : Fn)
  /-- MGOPEN (R215). -/
  | mgopen (o : Slot) (f : Fn)
  /-- MGCLOSE (R215). -/
  | mgclose (o : Slot) (f : Fn)
  /-- MGSPL_ALLOW (R215). -/
  | mgsplAllow (o : Slot) (f : Fn)
  /-- MGSPL_FORBID (R215). -/
  | mgsplForbid (o : Slot) (f : Fn)
  /-- MGSPL_FORCE (R215). -/
  | mgsplForce (o : Slot) (f : Fn)
  /-- MGSPL_XQREG (R212). -/
  | mgsplXqreg (o : Slot) (f : Fn)
  /-- MGSPL_XQDEL (R215). -/
  | mgsplXqdel (o : Slot) (f : Fn)
  /-- MGST_ISLAND (R218). -/
  | mgstIsland (o : Slot) (f : Fn)
  /-- MGST_QUEUE (R218). -/
  | mgstQueue (o : Slot) (f : Fn)
  /-- MXTOK (R364). -/
  | mxtok (o : Slot) (f : Fn)
  /-- MXCFG (R184). -/
  | mxcfg (o : Slot) (f : Fn)
  /-- MXDRN (R190). -/
  | mxdrn (o : Slot) (f : Fn)
  /-- LUTX (R356). -/
  | lutx (o : Slot) (f : Fn)
  /-- BSPL (R329). -/
  | bspl (o : Slot) (f : Fn)
  /-- BJN (R329). -/
  | bjn (o : Slot) (f : Fn)
  /-- PHLX (R372). -/
  | phlx (o : Slot) (f : Fn)
  /-- RNGF (R384). -/
  | rngf (o : Slot) (f : Fn)
  /-- TAMP (R402). -/
  | tamp (o : Slot) (f : Fn)
  /-- THAW (R402). -/
  | thaw (o : Slot) (f : Fn)
  /-- THAW_TRAP (R244). -/
  | thawTrap (o : Slot) (f : Fn)
  /-- SCRD (R390). -/
  | scrd (o : Slot) (f : Fn)
  /-- SCWR_VFT (R390). -/
  | scwrVft (o : Slot) (f : Fn)
  /-- SCWR_ES (R390). -/
  | scwrEs (o : Slot) (f : Fn)
  /-- SCWR_ST (R390). -/
  | scwrSt (o : Slot) (f : Fn)
  /-- RTWR (R376). -/
  | rtwr (o : Slot) (f : Fn)
  /-- PRTD (R376). -/
  | prtd (o : Slot) (f : Fn)
  /-- PTCT_READ (R378). -/
  | ptctRead (o : Slot) (f : Fn)
  /-- PTCT_WRITE (R378). -/
  | ptctWrite (o : Slot) (f : Fn)
  /-- PTCT_DEFINE (R378). -/
  | ptctDefine (o : Slot) (f : Fn)
  /-- PTCT_SAVE (R237). -/
  | ptctSave (o : Slot) (f : Fn)
  /-- PTCT_RESTORE (R238). -/
  | ptctRestore (o : Slot) (f : Fn)
  /-- PTCT_RELEASE (R378). -/
  | ptctRelease (o : Slot) (f : Fn)
  /-- TLBI_S1VA (R403). -/
  | tlbiS1va (o : Slot) (f : Fn)
  /-- TLBI_S1PID (R403). -/
  | tlbiS1pid (o : Slot) (f : Fn)
  /-- TLBI_S2G (R403). -/
  | tlbiS2g (o : Slot) (f : Fn)
  /-- TLBI_S2VF (R403). -/
  | tlbiS2vf (o : Slot) (f : Fn)
  /-- PGFW_START (R371). -/
  | pgfwStart (o : Slot) (f : Fn)
  /-- PGFW_CLEAR (R371). -/
  | pgfwClear (o : Slot) (f : Fn)
  /-- PGFW_ABORT (R371). -/
  | pgfwAbort (o : Slot) (f : Fn)
  /-- PGFW_QUERY (R371). -/
  | pgfwQuery (o : Slot) (f : Fn)
  /-- VFEN_SET (R408). -/
  | vfenSet (o : Slot) (f : Fn)
  /-- VFEN_CLR (R408). -/
  | vfenClr (o : Slot) (f : Fn)
  /-- VDMAP (R407). -/
  | vdmap (o : Slot) (f : Fn)
  /-- KROLL (R350). -/
  | kroll (o : Slot) (f : Fn)
  /-- ATST_QUERY (R325). -/
  | atstQuery (o : Slot) (f : Fn)
  /-- ATST_CHALLENGE (R325). -/
  | atstChallenge (o : Slot) (f : Fn)
  /-- ATST_QUARANTINE (R325). -/
  | atstQuarantine (o : Slot) (f : Fn)
  /-- ATST_RESET (R325). -/
  | atstReset (o : Slot) (f : Fn)
  /-- FLTAK_TAKE (R344). -/
  | fltakTake (o : Slot) (f : Fn)
  /-- FLTAK_PEEK (R344). -/
  | fltakPeek (o : Slot) (f : Fn)
  /-- QSCK_READ (R381). -/
  | qsckRead (o : Slot) (f : Fn)
  /-- QSCK_RESTART (R381). -/
  | qsckRestart (o : Slot) (f : Fn)
  /-- RLIM (R383). -/
  | rlim (o : Slot) (f : Fn)
  /-- SQARM (R394). -/
  | sqarm (off : BitVec 32)
  /-- SQBR (R394). -/
  | sqbr (off : BitVec 32)
  /-- SQLOOP (R300). -/
  | sqloop (lc : BitVec 2) (count : BitVec 24) (off : BitVec 30)
  /-- SQWAIT (R394). -/
  | sqwait (g : BitVec 16) (va : Dword)
  /-- SQLAUNCH (R43). -/
  | sqlaunch (ex ey bit : BitVec 3) (g : BitVec 2) (va : Dword)
  /-- SQJOIN (R44). -/
  | sqjoin (g : BitVec 2)
  /-- SQEND (R394). -/
  | sqend
  /-- SQMARK (R394). -/
  | sqmark (m : BitVec 16)
  /-- SQFENCE (R394). -/
  | sqfence
  /-- MMA (R187). -/
  | mma (t : MTok)
  /-- MMAS (R189). -/
  | mmas (t : MTok)
  /-- MMSC (R187). -/
  | mmsc (t : MTok)
  /-- MMI (R187). -/
  | mmi (t : MTok)
  /-- MZERO (R187). -/
  | mzero (t : MTok)
  /-- MLDM (R187). -/
  | mldm (t : MTok)
  /-- STW_LAUNCH (R269). -/
  | stwLaunch (tag : BitVec 32) (vdn : Byte) (hdr : List Dword)
  /-- PORT_ADDR (R268). -/
  | portAddr (tag : BitVec 32) (port plen : Byte) (addr : BitVec 128)
  /-- PEER_SET (R268). -/
  | peerSet (tag : BitVec 32) (panel : BitVec 16) (addrs : List (BitVec 128))
  /-- TRLS_CFG (R268). -/
  | trlsCfg (tag : BitVec 32) (port panel : BitVec 16)
  /-- QP_OPEN (R268). -/
  | qpOpen (tag : BitVec 32) (vf pid port : Byte) (rqpn : BitVec 32) (rip : BitVec 128) (psn : BitVec 32)
  /-- QP_CLOSE (R268). -/
  | qpClose (tag qpn : BitVec 32)
  /-- MW_OPEN (R268). -/
  | mwOpen (tag : BitVec 32) (vf pid : Byte) (rd wr : Bool) (va len : Dword)
  /-- MW_CLOSE (R268). -/
  | mwClose (tag key : BitVec 32)
  /-- SQ_BIND (R268). -/
  | sqBind (tag : BitVec 32) (vf q pid : Byte) (qpn : BitVec 32) (va : Dword) (key entries : BitVec 32)
  /-- RING_SET (R268). -/
  | ringSet (tag : BitVec 32) (vf ring : Byte) (qpn : BitVec 32) (va : Dword) (key : BitVec 32)
  /-- CFG_READ (R268). -/
  | cfgRead (tag : BitVec 32) (item : Byte) (index : BitVec 32)
  /-- MGMT_MALFORMED_COMMAND (R268). -/
  | mgmtMalformedCommand (msg : List Byte)
  /-- TRLS_LOAD (R264). -/
  | trlsLoad (h : TrlsHdr)
  /-- TRLS_STORE (R264). -/
  | trlsStore (h : TrlsHdr)
  /-- TRLS_ATOMIC (R264). -/
  | trlsAtomic (h : TrlsHdr)
  /-- TRLS_SYNCADD (R264). -/
  | trlsSyncadd (h : TrlsHdr)
  /-- TRLS_DATA (R264). -/
  | trlsData (h : TrlsHdr)
  /-- TRLS_ACK (R265). -/
  | trlsAck (h : TrlsHdr)
  /-- TRLS_NAK (R265). -/
  | trlsNak (h : TrlsHdr)
  /-- TRLS_KEYSWITCH (R264). -/
  | trlsKeyswitch (h : TrlsHdr)
  /-- TRLS_UNDEFINED_OP (R264). -/
  | trlsUndefinedOp (opc : BitVec 4) (h : TrlsHdr)
  /-- LAUNCH_SUBMIT (R42). -/
  | launchSubmit (vf q : Nat) (hdr : List Dword)
  /-- LAUNCH_PLACE (R50). -/
  | launchPlace (pid lnch : Nat) (rect : Rect)
  /-- LAUNCH_AGEING (R50). -/
  | launchAgeing (pid lnch : Nat)
  /-- PASS_START (R38). -/
  | passStart (pid lnch fslot : Nat)
  /-- LAUNCH_COMPLETE (R47). -/
  | launchComplete (pid lnch : Nat)
  /-- BLOCK_ARM (R51). -/
  | blockArm (r : Nat)
  /-- FRAME_FIRE (R52). -/
  | frameFire (r frm : Nat)
  /-- BLOCK_COMMIT (R54). -/
  | blockCommit (r frm : Nat)
  /-- ITERATION_TOKEN (R56). -/
  | iterationToken (r frm : Nat)
  /-- PACKET_DELIVER (R80). -/
  | packetDeliver (i : Nat)
  /-- OUTPUT_CHANNEL_SEND (R81). -/
  | outputChannelSend (e ch : Nat)
  /-- CREDIT_RETURN (R76). -/
  | creditReturn (i : Nat)
  /-- BND_PACKET_RELEASE (R163). -/
  | bndPacketRelease (i : Nat)
  /-- SLOT_AGEING (R92). -/
  | slotAgeing (e n : Nat)
  /-- BARISTA_WINDOW (R60). -/
  | baristaWindow (die pid idle : Nat)
  /-- DRIP_WINDOW (R62). -/
  | dripWindow (r cls : Nat)
  /-- QUIET_COUNT_EXPIRE (R63). -/
  | quietCountExpire (die pid : Nat)
  /-- QUIESCENCE_PROBE (R63). -/
  | quiescenceProbe (pid : Nat)
  /-- STREAM_READ_AHEAD (R134). -/
  | streamReadAhead (r frm b : Nat)
  /-- TAG_WORD_ARRIVE (R136). -/
  | tagWordArrive (i : Nat)
  /-- TILE_BANK_CYCLE (R142). -/
  | tileBankCycle (r tile : Nat)
  /-- SYNC_HOME_CYCLE (R139). -/
  | syncHomeCycle (word k : Nat)
  /-- VERSION_HOME_CYCLE (R160). -/
  | versionHomeCycle (word : Nat)
  /-- POSTED_WRITE_DRAIN (R155). -/
  | postedWriteDrain (i : Nat)
  /-- HOME_ACCESS (R154). -/
  | homeAccess (i : Nat)
  /-- MEMORY_RESPONSE (R314). -/
  | memoryResponse (i : Nat)
  /-- TABLE_WALK (R151). -/
  | tableWalk (i : Nat)
  /-- ENGINE_JOB_START (R166). -/
  | engineJobStart (i : Nat)
  /-- COPY_FIRE_TOKEN (R177). -/
  | copyFireToken (die edge q : Nat)
  /-- COPY_PERMIT_TOKEN (R177). -/
  | copyPermitToken (die edge q : Nat)
  /-- COPY_JOB (R178). -/
  | copyJob (i : Nat)
  /-- COPY_JOB_COMPLETE (R179). -/
  | copyJobComplete (i : Nat)
  /-- NODE_ROUTE_SEND (R184). -/
  | nodeRouteSend (e : Nat)
  /-- MERGE_LEAF_PACKET (R199). -/
  | mergeLeafPacket (i : Nat)
  /-- MERGE_ROOT_EMIT (R202). -/
  | mergeRootEmit (die q : Nat)
  /-- MERGE_REMERGE_PASS (R207). -/
  | mergeRemergePass (die q : Nat)
  /-- MERGE_OUTPUT_SEND (R204). -/
  | mergeOutputSend (die q : Nat)
  /-- XQ_MESSAGE (R212). -/
  | xqMessage (i : Nat)
  /-- XQ_DIVERT (R212). -/
  | xqDivert (die desc : Nat)
  /-- FREEZE_ARRIVE (R236). -/
  | freezeArrive (die pid : Nat)
  /-- SLICE_END (R235). -/
  | sliceEnd (pid : Nat)
  /-- SCRUB_COMPLETE (R224). -/
  | scrubComplete (pid : Nat)
  /-- SLICE_COPY_COMPLETE (R240). -/
  | sliceCopyComplete (kind site lfn : Nat)
  /-- FAULT_RECORD_DELIVER (R244). -/
  | faultRecordDeliver (i : Nat)
  /-- DOORBELL_WRITE (R270). -/
  | doorbellWrite (vf off : Nat) (data : List Byte)
  /-- ROCE_WRITE (R263). -/
  | roceWrite (qpn key va : Nat) (data : List Byte)
  /-- ROCE_READ (R263). -/
  | roceRead (qpn key va len : Nat)
  /-- ROCE_CNP (R263). -/
  | roceCnp (qpn : Nat)
  /-- ROCE_INVALID_OPCODE (R263). -/
  | roceInvalidOpcode (qpn opc : Nat)
  /-- TRLS_RETRANSMIT_TIMEOUT (R265). -/
  | trlsRetransmitTimeout (panel stream : Nat)
  /-- TRLS_REKEY (R265). -/
  | trlsRekey (panel : Nat)
  /-- GET_VERSION (R250). -/
  | getVersion (u : UnitId)
  /-- GET_CAPABILITIES (R250). -/
  | getCapabilities (u : UnitId)
  /-- NEGOTIATE_ALGORITHMS (R251). -/
  | negotiateAlgorithms (u : UnitId) (offer : SpdmOffer)
  /-- GET_DIGESTS (R250). -/
  | getDigests (u : UnitId) (cslot : Nat)
  /-- GET_CERTIFICATE (R250). -/
  | getCertificate (u : UnitId) (cslot off len : Nat)
  /-- CHALLENGE (R250). -/
  | challenge (u : UnitId) (sigOk : Bool)
  /-- GET_MEASUREMENTS (R252). -/
  | getMeasurements (u : UnitId) (sigOk : Bool)
  /-- KEY_EXCHANGE (R250). -/
  | keyExchange (u : UnitId)
  /-- FINISH (R250). -/
  | finish (u : UnitId) (ok : Bool)
  /-- KEY_UPDATE (R250). -/
  | keyUpdate (u : UnitId)
  /-- END_SESSION (R250). -/
  | endSession (u : UnitId)
  /-- SPDM_UNSUPPORTED_REQUEST (R250). -/
  | spdmUnsupportedRequest (u : UnitId) (code : Byte)
  /-- KEY_DELIVER (R258). -/
  | keyDeliver (u : UnitId) (n : Nat) (rx : Bool) (gen : BitVec 16)
  /-- KEY_ROLL_DUE (R256). -/
  | keyRollDue (u : UnitId) (n : Nat)
  /-- KEYSWITCH_RECEIVE (R258). -/
  | keyswitchReceive (u : UnitId) (n : Nat) (gen : BitVec 16)
  /-- LINK_FRAME_SEND (R256). -/
  | linkFrameSend (u : UnitId) (n flits : Nat)
  /-- FRAME_COUNTER_EXHAUSTED (R256). -/
  | frameCounterExhausted (u : UnitId) (n : Nat)
  /-- LINK_FRAME_RECEIVE (R260). -/
  | linkFrameReceive (u : UnitId) (n : Nat) (gen : BitVec 16) (flits : Nat) (crcOk tagOk chkOk peerOk : Bool)
  /-- ROOT_TAKEOVER (R249). -/
  | rootTakeover (port : Nat) (done : Bool)
  /-- POWER_GOOD (R273). -/
  | powerGood (fw : Boot)
  /-- CLOCK_RAISE (R273). -/
  | clockRaise (die : Nat)
  /-- DROOP_STRETCH (R276). -/
  | droopStretch (r : Nat) (on : Bool)
  /-- POWER_EVAL (R277). -/
  | powerEval (power : Nat)
  /-- THERMAL_THROTTLE (R278). -/
  | thermalThrottle (u : UnitId) (temp : Nat)
  /-- THERMAL_TRIP (R278). -/
  | thermalTrip (u : UnitId) (temp : Nat)
  /-- PATROL_SCRUB (R279). -/
  | patrolScrub (addr : Nat) (bad : Bool)
  /-- CHANNEL_SPARE (R279). -/
  | channelSpare (vsn ch : Nat)
  /-- SESSION_LOST (R254). -/
  | sessionLost (u : UnitId)
  /-- JUNCTION_BELOW_THROTTLE (R254). -/
  | junctionBelowThrottle (u : UnitId) (temp : Nat)
  /-- PFC_FRAME (R262). -/
  | pfcFrame (port : Nat) (prio : BitVec 3) (pause : Bool)
  deriving DecidableEq, Repr

end Sys2Proof
end

