-- ==== Sys2Proof/Machine/Types.lean ====
section
/-! DEFINITION. The types the machine's operations share: fault codes (R17), packets (R83), source operands (R74), and the
slot operations of R286 as plain names. -/

namespace Sys2Proof.Machine

/-- The 26 fault codes of R17; the hardware produces no other. -/
inductive FCode where
  /-- F_ILLEGAL: undefined opcode, FN code or tier code, or a nonzero reserved bit (0x01). -/
  | illegal
  /-- F_PRIV: operation above the issuer's privilege (0x02). -/
  | priv
  /-- F_BLKALIGN: block target not on a block header, or a header check failure (0x03). -/
  | blkAlign
  /-- F_SCOPE: channel crosses into a wider scope without a boundary node (0x04). -/
  | scope
  /-- F_NONDET: non-deterministic operation in a DETERM block (0x05). -/
  | nonDet
  /-- F_BUFSTATE: access illegal in the sub-buffer's state (0x10). -/
  | bufState
  /-- F_VERSION: versioned word already past the version named (0x11). -/
  | version
  /-- F_TAGCOUNT: more tagged words than the binding declares (0x12). -/
  | tagCount
  /-- F_SYNCOVER: sync-word remainder still reaches the target (0x13). -/
  | syncOver
  /-- F_BOUNDS: index or offset outside its binding, template or table (0x14). -/
  | bounds
  /-- F_PKLEN: packet lengths unequal and neither is 1 (0x20). -/
  | pkLen
  /-- F_FMT: instruction type differs from packet FMT (0x21). -/
  | fmt
  /-- F_SCALETAG: scaled tag SC not as the consumer expects (0x22). -/
  | scaleTag
  /-- F_DIVZERO: integer divisor of zero (0x23). -/
  | divZero
  /-- F_XLAT: missing translation, or replicated leaves that disagree (0x30). -/
  | xlat
  /-- F_PERM: access not permitted by the translation (0x31). -/
  | perm
  /-- F_ALIGN: address not aligned to the access size (0x32). -/
  | align
  /-- F_NONCANON: virtual-address bits [63:57] not zero (0x33). -/
  | nonCanon
  /-- F_DEADLOCK: partition quiescent with work outstanding (0x40). -/
  | deadlock
  /-- F_SPILLEX: Grounds ring exhausted (0x41). -/
  | spillEx
  /-- F_ECC: uncorrectable memory error (0x50). -/
  | ecc
  /-- F_LINK: link failed beyond retry (0x51). -/
  | link
  /-- F_QUARANTINE: access to or through a die that is not ACTIVE (0x52). -/
  | quarantine
  /-- F_RESUME: saved context cannot be formed on the dies now mapped (0x53). -/
  | resume
  /-- F_TRAP: user TRAP instruction (0x60). -/
  | trap
  /-- F_BRK: breakpoint instruction BRK (0x61). -/
  | brk
  deriving DecidableEq, Repr, Inhabited

/-- The code number of a fault (R17). -/
def FCode.num : FCode → Nat
  | .illegal => 0x01
  | .priv => 0x02
  | .blkAlign => 0x03
  | .scope => 0x04
  | .nonDet => 0x05
  | .bufState => 0x10
  | .version => 0x11
  | .tagCount => 0x12
  | .syncOver => 0x13
  | .bounds => 0x14
  | .pkLen => 0x20
  | .fmt => 0x21
  | .scaleTag => 0x22
  | .divZero => 0x23
  | .xlat => 0x30
  | .perm => 0x31
  | .align => 0x32
  | .nonCanon => 0x33
  | .deadlock => 0x40
  | .spillEx => 0x41
  | .ecc => 0x50
  | .link => 0x51
  | .quarantine => 0x52
  | .resume => 0x53
  | .trap => 0x60
  | .brk => 0x61

/-- The fault codes in the order of R17. -/
def FCode.all : List FCode :=
  [.illegal, .priv, .blkAlign, .scope, .nonDet, .bufState, .version, .tagCount, .syncOver, .bounds, .pkLen, .fmt, .scaleTag, .divZero, .xlat, .perm, .align, .nonCanon, .deadlock, .spillEx, .ecc, .link, .quarantine, .resume, .trap, .brk]

/-- A packet (R83): the header fields and the lanes. LEN is the number of lanes minus 1. `cov` names the posted writes that
the packet releases (R158, R162); it is no part of the header. -/
structure Packet where
  fmt : BitVec 4 := 0
  fpx : BitVec 3 := 0
  sc : Bool := false
  sce : Byte := 0
  eof : BitVec 2 := 0
  tag : BitVec 7 := 0
  seq : BitVec 16 := 0
  kind : BitVec 2 := 0
  lanes : List Lane := [0]
  cov : List Nat := []
  deriving DecidableEq, Repr, Inhabited

/-- What a source selector yields before the instruction's type is known: a packet held somewhere, the length-1 value of
selectors 11 to 15 (R74), or the length-1 zero packet of a clear data register (R71) (log 24: DEDUCED). -/
inductive Operand where
  | pkt (p : Packet)
  | const (v : Lane)
  | clear
  deriving DecidableEq, Repr, Inhabited

/-- The slot operations, one for each slot row of spec/opcode_table.json. -/
inductive SlotOp where
  | add | adds | sub | subs | mul | mulh | mulw | mad | madw | neg | abs | min | max | clamp | and | or | xor | andn
  | not | shl | shr | sar | rotl | clz | ctz | popc | brev | bfx | bfi | cmp | sel | qdiv | fadd | fsub | fmul | fma
  | fnma | fmin | fmax | fabs | fneg | fcmp | fclass | frnd | fcvt | fscl | fexpn | frcp | frsq | fsqrt | fdiv
  | fexp2 | flog2 | fsin | fcos | fsncs | ficv | pkspl | pkmrg | pklenGet | pklenSet | lswap | lperm | lbcast | lext
  | lins | lred | lscan | eofm | dot | amax | sclx | qnt | dqnt | sclm | unp6 | pck6 | nzc | abrd | abwr | fwd
  | steer | mrg | splt | join | seqtCnt | seqtSet | seqtGet | bnd | stset | stxor | exit | nop | trap | brk | ldb
  | stb | ldv | stv | rclm | gath | scat | bfst | bfsetFull | bfsetEmpty | atb | sya | syadd | sywch | ldg | stg
  | atg | fnc | pfg | cparm | cpdis | cpfire | cpq | tmov | jcard | mgopen | mgclose | mgsplAllow | mgsplForbid
  | mgsplForce | mgsplXqreg | mgsplXqdel | mgstIsland | mgstQueue | mxtok | mxcfg | mxdrn | lutx | bspl | bjn | phlx
  | rngf | tamp | thaw | thawTrap | scrd | scwrVft | scwrEs | scwrSt | rtwr | prtd | ptctRead | ptctWrite
  | ptctDefine | ptctSave | ptctRestore | ptctRelease | tlbiS1va | tlbiS1pid | tlbiS2g | tlbiS2vf | pgfwStart
  | pgfwClear | pgfwAbort | pgfwQuery | vfenSet | vfenClr | vdmap | kroll | atstQuery | atstChallenge
  | atstQuarantine | atstReset | fltakTake | fltakPeek | qsckRead | qsckRestart | rlim
  deriving DecidableEq, Repr, Inhabited

end Sys2Proof.Machine
end

