-- ==== Sys2Proof/Config.lean ====
section
/-! DEFINITION. What the spec leaves open: free values with no body, which nothing can evaluate, and the constants of the
three forms of the part. -/

namespace Sys2Proof

/-- The three forms of the part (R1). A package built from the IKB-D has a grid of sites twice `cols` wide and `rows` high, and for
each port die the physical fabric dies to which it attaches, in rising order (R272) (log 92: DEDUCED). -/
inductive Form where
  | module80 | package16
  | ikbD (cols rows : Nat) (attach : List (List Nat))
  deriving DecidableEq, Repr, Inhabited

/-- Is a form one that the spec allows (R272): W from 2 to 16, H from 1 to 10, one to four port dies, each attached to one or two dies
at the west or the east edge, no two at one die? -/
def Form.legal : Form → Bool
  | .ikbD c r ps =>
    1 ≤ c && c ≤ 8 && 1 ≤ r && r ≤ 10 && 1 ≤ ps.length && ps.length ≤ 4
      && ps.all (fun p => 1 ≤ p.length && p.length ≤ 2 && p.Pairwise (· < ·)
        && p.all (fun d => d < c * r && ((d % c == 0 && d / c % 2 == 0) || (d % c + 1 == c && d / c % 2 == 1))))
      && ps.flatten.Nodup
  | _ => true

namespace Machine

/-- A floating-point value: NaN (signalling or not), an infinity, or (−1)^neg × m × 2^e. -/
inductive FVal where
  | nan (sig : Bool)
  | inf (neg : Bool)
  | fin (neg : Bool) (m : Nat) (e : Int)
  deriving DecidableEq, Repr, Inhabited

end Machine

/-- Which of the two binary32 neighbours of the exact value a special function returns (R124): true for the one of larger
magnitude. A function of the operation and the input alone, the same in every element and on every run (log 17: UNVERIFIED). -/
opaque Config.upperNeighbour : Nat → Lane → Bool

/-- The value read from an accumulator pattern that R110 gives none: E = 0 with J = 1 (log 18: DESIGN CHOICE). -/
opaque Config.a96Open : Acc → Machine.FVal

/-- What MLDM leaves in an accumulator under integer EMODE for a binary32 value that is no integer, whose exact conversion does not
exist (R111, R187), by that value and the accumulator's old bits (log 68: DEDUCED). -/
opaque Config.loadOpen : Lane → Acc → Acc

/-- A number that the environment supplies, by the count of draws: cycles elapsed, power, and the like
(log 2: DESIGN CHOICE; log 14: DESIGN CHOICE; log 84: DESIGN CHOICE). -/
opaque Config.elapsed : Nat → Nat

/-- A yes or no that the spec leaves to the implementation, by the count of draws: a prefetch line filled (R156, R369), a
translation still cached (R150) (log 2: DESIGN CHOICE; log 16: DESIGN CHOICE). -/
opaque Config.choice : Nat → Bool

/-- The channel of a stack that serves an address, modulo 32 (R230, R279), which the spec does not give (log 100: DESIGN CHOICE). -/
opaque Config.channelOf : Nat → Nat

/-- A byte of another panel's memory as a read made within one step finds it (R144, R264), by the count of draws and the GPA: the
other panel is outside the machine (log 2: DESIGN CHOICE; log 21: DESIGN CHOICE). -/
opaque Config.remoteByte : Nat → Nat → Byte

/-- A byte of a partition save area whose layout R237 does not give (header, scan, link buffers, descriptor records), by the count
of draws and the offset (log 2: DESIGN CHOICE; log 22: DESIGN CHOICE). -/
opaque Config.saveByte : Nat → Nat → Byte

/-! The standard functions that the spec names (R247, R251, R252, R256, R264), of which it gives no more than the name: FIPS 202, FIPS
204, X.509 and AES-256-GCM. Nothing is assumed of them. -/

/-- SHAKE256 with 256 bits of output, and SHA3-384 (log 19: DESIGN CHOICE). -/
opaque Config.shake256 : List Byte → BitVec 256
opaque Config.sha384 : List Byte → BitVec 384

/-- ML-DSA-65.KeyGen of a seed: the public and the secret key; and a signature by a secret key (log 19: DESIGN CHOICE). -/
opaque Config.keyGen : BitVec 256 → List Byte × List Byte
opaque Config.sign : List Byte → List Byte → List Byte

/-- The certificate of a public key that carries a measurement, signed with a secret key; the certificate that Siralmord's device CA
gave an identity key, and the CA's own (R247, R250) (log 19: DESIGN CHOICE). -/
opaque Config.certificate : List Byte → BitVec 384 → List Byte → List Byte
opaque Config.identityCert : List Byte → List Byte
opaque Config.deviceCa : List Byte

/-- The 16 bytes of an AES-256-GCM tag, of the key, the nonce, the associated data and the text (log 19: DESIGN CHOICE). -/
opaque Config.gcmTag : BitVec 256 → BitVec 96 → List Byte → List Byte → BitVec 128

/-- The key stream of AES-256-GCM, byte by byte, of the key and the nonce (log 19: DESIGN CHOICE). -/
opaque Config.gcmByte : BitVec 256 → BitVec 96 → Nat → Byte

/-- ML-KEM-768 (R251): the requester's ephemeral encapsulation key, and encapsulation to it, which gives the ciphertext and the shared
secret, each with the count of draws (log 19: DESIGN CHOICE). -/
opaque Config.encapsulationKey : Nat → List Byte
opaque Config.encapsulate : List Byte → Nat → List Byte × BitVec 256

/-- The header of a link frame and the bytes of its flits, by the count of draws, which the spec does not lay out
(log 128: DESIGN CHOICE). -/
opaque Config.frameHeader : Nat → List Byte
opaque Config.frameFlits : Nat → Nat → List Byte

/-- A key that two panels' roots agree on by KEY_EXCHANGE (R264), by the count of draws (log 2: DESIGN CHOICE; log 19: DESIGN CHOICE). -/
opaque Config.sessionKey : Nat → BitVec 256

/-- A secret or signed value: nonces, signatures and certificates (R247 to R252), by the count of draws
(log 2: DESIGN CHOICE; log 19: DESIGN CHOICE). -/
opaque Config.secret : Nat → BitVec 64

end Sys2Proof
end

