-- ==== Sys2Proof/Machine/Legal.lean ====
section
/-! DEFINITION. What the arm-time check accepts in one slot word taken alone (R72 to R77, R281 to R287, and the encoding
table of each reference entry): the operand types, the function field, the selectors and the destinations of each slot
operation. What depends on the block that holds the word is checked in Machine/Arm.lean. -/

namespace Sys2Proof.Machine

/-! Operand types (R84, R285). -/

/-- The type code of R285. -/
def tyCode : Ty → Nat
  | .n32 => 0 | .s32 => 1 | .n16 => 2 | .s16 => 3 | .n8 => 4 | .s8 => 5 | .n64 => 6 | .s64 => 7
  | .f32 => 8 | .h16 => 9 | .bf16 => 10 | .mx6e2 => 11 | .mx6e3 => 12 | .mx4 => 13 | .mxi8 => 14 | .any => 15
  | .b8 k => 16 + k.val
  | .b8n k => 24 + k.val

/-- The type of a code of R285; 0x17 and 0x1F are reserved. -/
def tyOfCode (c : Nat) : Option Ty :=
  if h : 16 ≤ c ∧ c < 23 then some (.b8 ⟨c - 16, by omega⟩)
  else if h : 24 ≤ c ∧ c < 31 then some (.b8n ⟨c - 24, by omega⟩)
  else match c with
    | 0 => some .n32 | 1 => some .s32 | 2 => some .n16 | 3 => some .s16 | 4 => some .n8 | 5 => some .s8
    | 6 => some .n64 | 7 => some .s64 | 8 => some .f32 | 9 => some .h16 | 10 => some .bf16 | 11 => some .mx6e2
    | 12 => some .mx6e3 | 13 => some .mx4 | 14 => some .mxi8 | 15 => some .any
    | _ => none

/-- FMT of a type (R84); `.any` has none and is given FMT 0 (R71). -/
def tyFmt : Ty → BitVec 4
  | .n32 => 0 | .s32 => 1 | .n16 => 2 | .s16 => 3 | .n8 => 4 | .s8 => 5 | .n64 => 6 | .s64 => 7
  | .f32 => 8 | .h16 => 9 | .bf16 => 10 | .b8 _ => 11 | .b8n _ => 12 | .mx6e2 => 13 | .mx6e3 => 13 | .mx4 => 14
  | .mxi8 => 15 | .any => 0

/-- FPX of a type (R84). -/
def tyFpx : Ty → BitVec 3
  | .b8 k => BitVec.ofNat 3 k.val
  | .b8n k => BitVec.ofNat 3 k.val
  | .mx6e3 => 1
  | _ => 0

/-- The type that an FMT and FPX pair names (R84); other pairs are illegal. -/
def tyOfFmt (fmt : BitVec 4) (fpx : BitVec 3) : Option Ty :=
  match fmt.toNat, fpx.toNat with
  | 0, 0 => some .n32 | 1, 0 => some .s32 | 2, 0 => some .n16 | 3, 0 => some .s16 | 4, 0 => some .n8 | 5, 0 => some .s8
  | 6, 0 => some .n64 | 7, 0 => some .s64 | 8, 0 => some .f32 | 9, 0 => some .h16 | 10, 0 => some .bf16
  | 11, k => if h : k < 7 then some (.b8 ⟨k, h⟩) else none
  | 12, k => if h : k < 7 then some (.b8n ⟨k, h⟩) else none
  | 13, 0 => some .mx6e2 | 13, 1 => some .mx6e3 | 14, 0 => some .mx4 | 15, 0 => some .mxi8
  | _, _ => none

/-- Bits of one value (R84, R109). -/
def tyWidth : Ty → Nat
  | .n32 => 32 | .s32 => 32 | .n16 => 16 | .s16 => 16 | .n8 => 8 | .s8 => 8 | .n64 => 64 | .s64 => 64
  | .f32 => 32 | .h16 => 16 | .bf16 => 16 | .b8 _ => 8 | .b8n _ => 8 | .mx6e2 => 6 | .mx6e3 => 6 | .mx4 => 4
  | .mxi8 => 8 | .any => 32

/-- An integer type of R285. -/
def tyIsInt : Ty → Bool
  | .n32 | .s32 | .n16 | .s16 | .n8 | .s8 | .n64 | .s64 => true
  | _ => false

/-- A signed integer type. -/
def tyIsSigned : Ty → Bool
  | .s32 | .s16 | .s8 | .s64 => true
  | _ => false

/-- A 64-bit type: each value takes two lanes (R84). -/
def tyIs64 : Ty → Bool
  | .n64 | .s64 => true
  | _ => false

/-- A binary8 type of either kind (R104, R105). -/
def tyIsB8 : Ty → Bool
  | .b8 _ | .b8n _ => true
  | _ => false

/-- The float set of R343. -/
def tyIsFloat : Ty → Bool
  | .f32 | .h16 | .bf16 | .b8 _ | .b8n _ => true
  | _ => false

/-- An MX element type (R108). -/
def tyIsMx : Ty → Bool
  | .mx6e2 | .mx6e3 | .mx4 | .mxi8 => true
  | _ => false

/-- An unpadded 6-bit type (R109). -/
def tyIsMx6 : Ty → Bool
  | .mx6e2 | .mx6e3 => true
  | _ => false

/-- The rounding code of R112. -/
def rndCode : Rnd → Nat
  | .rne => 0 | .rtz => 1 | .rup => 2 | .rdn => 3 | .rna => 4 | .blk => 5 | .sr => 6

/-- The rounding of a code of R112; code 7 is reserved. -/
def rndOfCode : Nat → Option Rnd
  | 0 => some .rne | 1 => some .rtz | 2 => some .rup | 3 => some .rdn | 4 => some .rna | 5 => some .blk | 6 => some .sr
  | _ => none

/-! The table of the operations. -/

/-- The FN form of an entry when no source is selector 11 or 13 (R284). -/
inductive FnKind where
  | tr | ty | im
  deriving DecidableEq, Repr

/-- The short form an entry gives (R284): none, FMT 0x0 to 0x7, or FMT 0x8 to 0xC. -/
inductive ShortKind where
  | none | int | flt
  deriving DecidableEq, Repr

/-- The set of types an entry allows. -/
inductive TySet where
  | none | int | signed | intNo64 | intAny | signedAny | intNo64Any | float | floatAny | floatSignedAny | f32 | wide
  | quant | quantAny | mx6 | dot | acc | fold | sel | all | lext | mem
  deriving DecidableEq, Repr

/-- What an entry allows as DT and TT (R76). -/
inductive DstKind where
  /-- DT 0 to 15, TT 0 to 7 or 0xF. -/
  | one
  /-- DT must be 0 and TT 0xF: the no-result form of R335. -/
  | nothing
  /-- Two results: TT must be 0 to 7. -/
  | two
  /-- DT names T entries 8 to 15, TT 0xF (R393). -/
  | entries
  /-- DT names OUT0 to OUT3, TT 0xF (R374). -/
  | queue
  deriving DecidableEq, Repr

/-- Which sources an entry takes. -/
inductive SrcKind where
  /-- No source: SA and SB must be 15. -/
  | zero
  /-- One source, any selector the entry's form allows; SB must be 15. -/
  | a
  /-- One source that must be a packet selector, 0 to 10; SB must be 15. -/
  | aPkt
  /-- Two sources. -/
  | ab
  /-- Two sources, the first a packet selector. -/
  | abPkt
  deriving DecidableEq, Repr

/-- The row of one operation. -/
structure OpRow where
  opc : Nat
  fn : FnKind
  types : TySet
  src : SrcKind
  dst : DstKind := .one
  short : ShortKind := .none
  deriving DecidableEq, Repr

/-- Is a type in a set. -/
def tySetHas : TySet → Ty → Bool
  | .none, _ => false
  | .int, t => tyIsInt t
  | .signed, t => tyIsSigned t
  | .intNo64, t => tyIsInt t && !tyIs64 t
  | .intAny, t => tyIsInt t || t == .any
  | .signedAny, t => tyIsSigned t || t == .any
  | .intNo64Any, t => (tyIsInt t && !tyIs64 t) || t == .any
  | .float, t => tyIsFloat t
  | .floatAny, t => tyIsFloat t || t == .any
  | .floatSignedAny, t => t == .f32 || t == .h16 || t == .bf16 || t == .any || (tyIsB8 t && tyFmt t == 11)
  | .f32, t => t == .f32
  | .wide, t => t == .f32 || t == .h16 || t == .bf16
  | .quant, t => tyIsB8 t || tyIsMx t
  | .quantAny, t => tyIsB8 t || tyIsMx t || t == .any
  | .mx6, t => tyIsMx6 t
  | .dot, t => (tyIsInt t && !tyIs64 t) || tyIsFloat t || tyIsMx t || t == .any
  | .acc, t => tyIsInt t || tyIsFloat t
  | .fold, t => tyIsInt t || tyIsFloat t || t == .any
  | .sel, t => !tyIsMx6 t
  | .all, _ => true
  | .lext, t => !tyIsMx6 t && t != .any
  | .mem, t => !tyIsMx6 t && t != .any

/-- The row of each operation: opcode (R286), FN form, types, sources, destinations and short form of its entry. -/
def opRow : SlotOp → OpRow
  | .add => { opc := 0x00, fn := .ty, types := .intAny, src := .ab, short := .int }
  | .adds => { opc := 0x01, fn := .ty, types := .intAny, src := .ab, short := .int }
  | .sub => { opc := 0x02, fn := .ty, types := .intAny, src := .ab, short := .int }
  | .subs => { opc := 0x03, fn := .ty, types := .intAny, src := .ab, short := .int }
  | .mul => { opc := 0x04, fn := .ty, types := .intAny, src := .ab, short := .int }
  | .mulh => { opc := 0x05, fn := .ty, types := .intAny, src := .ab, short := .int }
  | .mulw => { opc := 0x06, fn := .ty, types := .intNo64Any, src := .ab }
  | .mad => { opc := 0x07, fn := .ty, types := .intAny, src := .ab, short := .int }
  | .madw => { opc := 0x08, fn := .ty, types := .intNo64Any, src := .ab }
  | .neg => { opc := 0x09, fn := .ty, types := .signedAny, src := .a }
  | .abs => { opc := 0x0A, fn := .ty, types := .signedAny, src := .a }
  | .min => { opc := 0x0B, fn := .ty, types := .intAny, src := .ab, short := .int }
  | .max => { opc := 0x0C, fn := .ty, types := .intAny, src := .ab, short := .int }
  | .clamp => { opc := 0x0D, fn := .ty, types := .intAny, src := .ab }
  | .and => { opc := 0x0E, fn := .ty, types := .intAny, src := .ab, short := .int }
  | .or => { opc := 0x0F, fn := .ty, types := .intAny, src := .ab, short := .int }
  | .xor => { opc := 0x10, fn := .ty, types := .intAny, src := .ab, short := .int }
  | .andn => { opc := 0x11, fn := .ty, types := .intAny, src := .ab, short := .int }
  | .not => { opc := 0x12, fn := .ty, types := .intAny, src := .a }
  | .shl => { opc := 0x13, fn := .ty, types := .intAny, src := .ab, short := .int }
  | .shr => { opc := 0x14, fn := .ty, types := .intAny, src := .ab, short := .int }
  | .sar => { opc := 0x15, fn := .ty, types := .signedAny, src := .ab, short := .int }
  | .rotl => { opc := 0x16, fn := .ty, types := .intAny, src := .ab, short := .int }
  | .clz => { opc := 0x17, fn := .ty, types := .intAny, src := .a }
  | .ctz => { opc := 0x18, fn := .ty, types := .intAny, src := .a }
  | .popc => { opc := 0x19, fn := .ty, types := .intAny, src := .a }
  | .brev => { opc := 0x1A, fn := .ty, types := .intAny, src := .a }
  | .bfx => { opc := 0x1B, fn := .ty, types := .intAny, src := .ab }
  | .bfi => { opc := 0x1C, fn := .ty, types := .intAny, src := .ab }
  | .cmp => { opc := 0x1D, fn := .ty, types := .intAny, src := .ab, short := .int }
  | .sel => { opc := 0x1E, fn := .ty, types := .sel, src := .ab }
  | .qdiv => { opc := 0x1F, fn := .ty, types := .intAny, src := .ab, short := .int }
  | .fadd => { opc := 0x20, fn := .tr, types := .floatAny, src := .ab, short := .flt }
  | .fsub => { opc := 0x21, fn := .tr, types := .floatAny, src := .ab, short := .flt }
  | .fmul => { opc := 0x22, fn := .tr, types := .floatAny, src := .ab, short := .flt }
  | .fma => { opc := 0x23, fn := .tr, types := .floatAny, src := .ab }
  | .fnma => { opc := 0x24, fn := .tr, types := .floatAny, src := .ab }
  | .fmin => { opc := 0x25, fn := .ty, types := .floatAny, src := .ab, short := .flt }
  | .fmax => { opc := 0x26, fn := .ty, types := .floatAny, src := .ab, short := .flt }
  | .fabs => { opc := 0x27, fn := .ty, types := .floatSignedAny, src := .a }
  | .fneg => { opc := 0x28, fn := .ty, types := .floatSignedAny, src := .a }
  | .fcmp => { opc := 0x29, fn := .ty, types := .floatAny, src := .ab }
  | .fclass => { opc := 0x2A, fn := .ty, types := .floatAny, src := .a }
  | .frnd => { opc := 0x2B, fn := .tr, types := .float, src := .a }
  | .fcvt => { opc := 0x2C, fn := .tr, types := .float, src := .a }
  | .fscl => { opc := 0x2D, fn := .tr, types := .float, src := .ab }
  | .fexpn => { opc := 0x2E, fn := .ty, types := .floatAny, src := .a }
  | .frcp => { opc := 0x2F, fn := .ty, types := .f32, src := .a }
  | .frsq => { opc := 0x30, fn := .ty, types := .f32, src := .a }
  | .fsqrt => { opc := 0x31, fn := .tr, types := .f32, src := .a }
  | .fdiv => { opc := 0x32, fn := .tr, types := .f32, src := .ab }
  | .fexp2 => { opc := 0x33, fn := .ty, types := .f32, src := .a }
  | .flog2 => { opc := 0x34, fn := .ty, types := .f32, src := .a }
  | .fsin => { opc := 0x35, fn := .ty, types := .f32, src := .a }
  | .fcos => { opc := 0x36, fn := .ty, types := .f32, src := .a }
  | .fsncs => { opc := 0x37, fn := .ty, types := .f32, src := .a, dst := .two }
  | .ficv => { opc := 0x38, fn := .tr, types := .acc, src := .a }
  | .pkspl => { opc := 0x40, fn := .im, types := .none, src := .aPkt, dst := .two }
  | .pkmrg => { opc := 0x41, fn := .im, types := .none, src := .a, dst := .queue }
  | .pklenGet => { opc := 0x42, fn := .im, types := .none, src := .aPkt }
  | .pklenSet => { opc := 0x42, fn := .im, types := .none, src := .aPkt }
  | .lswap => { opc := 0x43, fn := .im, types := .none, src := .a }
  | .lperm => { opc := 0x44, fn := .im, types := .none, src := .ab }
  | .lbcast => { opc := 0x45, fn := .im, types := .none, src := .a }
  | .lext => { opc := 0x46, fn := .ty, types := .lext, src := .a }
  | .lins => { opc := 0x47, fn := .im, types := .none, src := .ab }
  | .lred => { opc := 0x48, fn := .ty, types := .fold, src := .a }
  | .lscan => { opc := 0x49, fn := .ty, types := .fold, src := .a }
  | .eofm => { opc := 0x4A, fn := .im, types := .none, src := .aPkt }
  | .dot => { opc := 0x50, fn := .ty, types := .dot, src := .ab }
  | .amax => { opc := 0x51, fn := .ty, types := .float, src := .ab }
  | .sclx => { opc := 0x52, fn := .ty, types := .quant, src := .a }
  | .qnt => { opc := 0x53, fn := .tr, types := .quant, src := .ab }
  | .dqnt => { opc := 0x54, fn := .tr, types := .wide, src := .ab }
  | .sclm => { opc := 0x55, fn := .ty, types := .quantAny, src := .ab }
  | .unp6 => { opc := 0x56, fn := .ty, types := .mx6, src := .a }
  | .pck6 => { opc := 0x57, fn := .ty, types := .mx6, src := .a }
  | .nzc => { opc := 0x58, fn := .ty, types := .all, src := .a }
  | .abrd => { opc := 0x59, fn := .tr, types := .acc, src := .a }
  | .abwr => { opc := 0x5A, fn := .ty, types := .acc, src := .ab }
  | .fwd => { opc := 0x60, fn := .im, types := .none, src := .aPkt }
  | .steer => { opc := 0x61, fn := .im, types := .none, src := .abPkt, dst := .entries }
  | .mrg => { opc := 0x62, fn := .im, types := .none, src := .zero }
  | .splt => { opc := 0x63, fn := .im, types := .none, src := .aPkt, dst := .entries }
  | .join => { opc := 0x64, fn := .im, types := .none, src := .ab }
  | .seqtCnt => { opc := 0x65, fn := .im, types := .none, src := .aPkt }
  | .seqtSet => { opc := 0x65, fn := .im, types := .none, src := .abPkt }
  | .seqtGet => { opc := 0x65, fn := .im, types := .none, src := .aPkt }
  | .bnd => { opc := 0x66, fn := .im, types := .none, src := .aPkt }
  | .stset => { opc := 0x67, fn := .im, types := .none, src := .a, dst := .nothing }
  | .stxor => { opc := 0x68, fn := .im, types := .none, src := .a, dst := .nothing }
  | .exit => { opc := 0x69, fn := .im, types := .none, src := .a, dst := .nothing }
  | .nop => { opc := 0x6A, fn := .im, types := .none, src := .a, dst := .nothing }
  | .trap => { opc := 0x6B, fn := .im, types := .none, src := .a, dst := .nothing }
  | .brk => { opc := 0x6C, fn := .im, types := .none, src := .a, dst := .nothing }
  | .ldb => { opc := 0x70, fn := .im, types := .none, src := .a }
  | .stb => { opc := 0x71, fn := .im, types := .none, src := .ab }
  | .ldv => { opc := 0x72, fn := .im, types := .none, src := .ab }
  | .stv => { opc := 0x73, fn := .im, types := .none, src := .ab }
  | .rclm => { opc := 0x74, fn := .im, types := .none, src := .ab }
  | .gath => { opc := 0x75, fn := .im, types := .none, src := .a }
  | .scat => { opc := 0x76, fn := .im, types := .none, src := .ab }
  | .bfst => { opc := 0x77, fn := .im, types := .none, src := .a }
  | .bfsetFull => { opc := 0x78, fn := .im, types := .none, src := .a }
  | .bfsetEmpty => { opc := 0x78, fn := .im, types := .none, src := .a }
  | .atb => { opc := 0x79, fn := .im, types := .none, src := .ab }
  | .sya => { opc := 0x7A, fn := .im, types := .none, src := .ab }
  | .syadd => { opc := 0x7B, fn := .im, types := .none, src := .ab }
  | .sywch => { opc := 0x7C, fn := .im, types := .none, src := .ab }
  | .ldg => { opc := 0x80, fn := .ty, types := .mem, src := .a }
  | .stg => { opc := 0x81, fn := .ty, types := .mem, src := .ab }
  | .atg => { opc := 0x82, fn := .im, types := .none, src := .ab }
  | .fnc => { opc := 0x83, fn := .im, types := .none, src := .a, dst := .nothing }
  | .pfg => { opc := 0x84, fn := .im, types := .none, src := .a, dst := .nothing }
  | .cparm => { opc := 0x90, fn := .im, types := .none, src := .a }
  | .cpdis => { opc := 0x91, fn := .im, types := .none, src := .a }
  | .cpfire => { opc := 0x92, fn := .im, types := .none, src := .a }
  | .cpq => { opc := 0x93, fn := .im, types := .none, src := .a }
  | .tmov => { opc := 0x94, fn := .im, types := .none, src := .zero }
  | .jcard => { opc := 0x95, fn := .im, types := .none, src := .a }
  | .mgopen => { opc := 0x96, fn := .im, types := .none, src := .aPkt }
  | .mgclose => { opc := 0x97, fn := .im, types := .none, src := .zero }
  | .mgsplAllow => { opc := 0x98, fn := .im, types := .none, src := .zero }
  | .mgsplForbid => { opc := 0x98, fn := .im, types := .none, src := .zero }
  | .mgsplForce => { opc := 0x98, fn := .im, types := .none, src := .zero }
  | .mgsplXqreg => { opc := 0x98, fn := .im, types := .none, src := .a }
  | .mgsplXqdel => { opc := 0x98, fn := .im, types := .none, src := .zero }
  | .mgstIsland => { opc := 0x99, fn := .im, types := .none, src := .zero }
  | .mgstQueue => { opc := 0x99, fn := .im, types := .none, src := .zero }
  | .mxtok => { opc := 0xA0, fn := .im, types := .none, src := .a }
  | .mxcfg => { opc := 0xA1, fn := .im, types := .none, src := .a }
  | .mxdrn => { opc := 0xA2, fn := .im, types := .none, src := .a }
  | .lutx => { opc := 0xA3, fn := .im, types := .none, src := .ab }
  | .bspl => { opc := 0xA4, fn := .im, types := .none, src := .a }
  | .bjn => { opc := 0xA5, fn := .im, types := .none, src := .ab }
  | .phlx => { opc := 0xA6, fn := .im, types := .none, src := .a }
  | .rngf => { opc := 0xA7, fn := .ty, types := .f32, src := .a }
  | .tamp => { opc := 0xE0, fn := .im, types := .none, src := .a }
  | .thaw => { opc := 0xE1, fn := .im, types := .none, src := .a }
  | .thawTrap => { opc := 0xE1, fn := .im, types := .none, src := .a }
  | .scrd => { opc := 0xE2, fn := .im, types := .none, src := .a }
  | .scwrVft => { opc := 0xE3, fn := .im, types := .none, src := .ab }
  | .scwrEs => { opc := 0xE3, fn := .im, types := .none, src := .ab }
  | .scwrSt => { opc := 0xE3, fn := .im, types := .none, src := .ab }
  | .rtwr => { opc := 0xE4, fn := .im, types := .none, src := .ab }
  | .prtd => { opc := 0xE8, fn := .im, types := .none, src := .a }
  | .ptctRead => { opc := 0xE5, fn := .im, types := .none, src := .a }
  | .ptctWrite => { opc := 0xE5, fn := .im, types := .none, src := .ab }
  | .ptctDefine => { opc := 0xE5, fn := .im, types := .none, src := .a }
  | .ptctSave => { opc := 0xE5, fn := .im, types := .none, src := .a }
  | .ptctRestore => { opc := 0xE5, fn := .im, types := .none, src := .a }
  | .ptctRelease => { opc := 0xE5, fn := .im, types := .none, src := .a }
  | .tlbiS1va => { opc := 0xE6, fn := .im, types := .none, src := .a }
  | .tlbiS1pid => { opc := 0xE6, fn := .im, types := .none, src := .a }
  | .tlbiS2g => { opc := 0xE6, fn := .im, types := .none, src := .a }
  | .tlbiS2vf => { opc := 0xE6, fn := .im, types := .none, src := .a }
  | .pgfwStart => { opc := 0xE7, fn := .im, types := .none, src := .a }
  | .pgfwClear => { opc := 0xE7, fn := .im, types := .none, src := .a }
  | .pgfwAbort => { opc := 0xE7, fn := .im, types := .none, src := .a }
  | .pgfwQuery => { opc := 0xE7, fn := .im, types := .none, src := .a }
  | .vfenSet => { opc := 0xE9, fn := .im, types := .none, src := .a }
  | .vfenClr => { opc := 0xE9, fn := .im, types := .none, src := .a }
  | .vdmap => { opc := 0xEA, fn := .im, types := .none, src := .a }
  | .kroll => { opc := 0xEB, fn := .im, types := .none, src := .a }
  | .atstQuery => { opc := 0xEC, fn := .im, types := .none, src := .a }
  | .atstChallenge => { opc := 0xEC, fn := .im, types := .none, src := .a }
  | .atstQuarantine => { opc := 0xEC, fn := .im, types := .none, src := .a }
  | .atstReset => { opc := 0xEC, fn := .im, types := .none, src := .a }
  | .fltakTake => { opc := 0xED, fn := .im, types := .none, src := .a, dst := .two }
  | .fltakPeek => { opc := 0xED, fn := .im, types := .none, src := .a, dst := .two }
  | .qsckRead => { opc := 0xEE, fn := .im, types := .none, src := .a }
  | .qsckRestart => { opc := 0xEE, fn := .im, types := .none, src := .a }
  | .rlim => { opc := 0xEF, fn := .im, types := .none, src := .a }

/-- The operation an opcode and its FN bits name (R286). Where one opcode serves several rows of the table, the sub-code in
FN tells them apart: PKLEN (R373), SEQT (R392), BFSET (R327), MGSPL and MGST (R214), PTCT (R377), TLBI (R403), PGFW (R371),
VFEN (R408), ATST (R325), FLTAK (R344) and QSCK (R381). The rows of SCWR share every encoding and are told apart by the
SPACE their packet names (R390), and those of THAW by its TRP bit (R402): here the first row of each is named (log 11: DEDUCED). -/
def opOfCode (opc : Nat) (fn : BitVec 8) : Option SlotOp :=
  match opc with
  | 0x00 => some .add
  | 0x01 => some .adds
  | 0x02 => some .sub
  | 0x03 => some .subs
  | 0x04 => some .mul
  | 0x05 => some .mulh
  | 0x06 => some .mulw
  | 0x07 => some .mad
  | 0x08 => some .madw
  | 0x09 => some .neg
  | 0x0A => some .abs
  | 0x0B => some .min
  | 0x0C => some .max
  | 0x0D => some .clamp
  | 0x0E => some .and
  | 0x0F => some .or
  | 0x10 => some .xor
  | 0x11 => some .andn
  | 0x12 => some .not
  | 0x13 => some .shl
  | 0x14 => some .shr
  | 0x15 => some .sar
  | 0x16 => some .rotl
  | 0x17 => some .clz
  | 0x18 => some .ctz
  | 0x19 => some .popc
  | 0x1A => some .brev
  | 0x1B => some .bfx
  | 0x1C => some .bfi
  | 0x1D => some .cmp
  | 0x1E => some .sel
  | 0x1F => some .qdiv
  | 0x20 => some .fadd
  | 0x21 => some .fsub
  | 0x22 => some .fmul
  | 0x23 => some .fma
  | 0x24 => some .fnma
  | 0x25 => some .fmin
  | 0x26 => some .fmax
  | 0x27 => some .fabs
  | 0x28 => some .fneg
  | 0x29 => some .fcmp
  | 0x2A => some .fclass
  | 0x2B => some .frnd
  | 0x2C => some .fcvt
  | 0x2D => some .fscl
  | 0x2E => some .fexpn
  | 0x2F => some .frcp
  | 0x30 => some .frsq
  | 0x31 => some .fsqrt
  | 0x32 => some .fdiv
  | 0x33 => some .fexp2
  | 0x34 => some .flog2
  | 0x35 => some .fsin
  | 0x36 => some .fcos
  | 0x37 => some .fsncs
  | 0x38 => some .ficv
  | 0x40 => some .pkspl
  | 0x41 => some .pkmrg
  | 0x42 => if fn.getLsbD 3 then some .pklenSet else some .pklenGet
  | 0x43 => some .lswap
  | 0x44 => some .lperm
  | 0x45 => some .lbcast
  | 0x46 => some .lext
  | 0x47 => some .lins
  | 0x48 => some .lred
  | 0x49 => some .lscan
  | 0x4A => some .eofm
  | 0x50 => some .dot
  | 0x51 => some .amax
  | 0x52 => some .sclx
  | 0x53 => some .qnt
  | 0x54 => some .dqnt
  | 0x55 => some .sclm
  | 0x56 => some .unp6
  | 0x57 => some .pck6
  | 0x58 => some .nzc
  | 0x59 => some .abrd
  | 0x5A => some .abwr
  | 0x60 => some .fwd
  | 0x61 => some .steer
  | 0x62 => some .mrg
  | 0x63 => some .splt
  | 0x64 => some .join
  | 0x65 => match (fn.extractLsb' 0 2).toNat with | 0 => some .seqtCnt | 1 => some .seqtSet | 2 => some .seqtGet | _ => none
  | 0x66 => some .bnd
  | 0x67 => some .stset
  | 0x68 => some .stxor
  | 0x69 => some .exit
  | 0x6A => some .nop
  | 0x6B => some .trap
  | 0x6C => some .brk
  | 0x70 => some .ldb
  | 0x71 => some .stb
  | 0x72 => some .ldv
  | 0x73 => some .stv
  | 0x74 => some .rclm
  | 0x75 => some .gath
  | 0x76 => some .scat
  | 0x77 => some .bfst
  | 0x78 => if fn.getLsbD 3 then some .bfsetFull else some .bfsetEmpty
  | 0x79 => some .atb
  | 0x7A => some .sya
  | 0x7B => some .syadd
  | 0x7C => some .sywch
  | 0x80 => some .ldg
  | 0x81 => some .stg
  | 0x82 => some .atg
  | 0x83 => some .fnc
  | 0x84 => some .pfg
  | 0x90 => some .cparm
  | 0x91 => some .cpdis
  | 0x92 => some .cpfire
  | 0x93 => some .cpq
  | 0x94 => some .tmov
  | 0x95 => some .jcard
  | 0x96 => some .mgopen
  | 0x97 => some .mgclose
  | 0x98 => match (fn.extractLsb' 0 3).toNat with | 0 => some .mgsplAllow | 1 => some .mgsplForbid | 2 => some .mgsplForce | 3 => some .mgsplXqreg | 4 => some .mgsplXqdel | _ => none
  | 0x99 => if fn.getLsbD 2 then some .mgstQueue else some .mgstIsland
  | 0xA0 => some .mxtok
  | 0xA1 => some .mxcfg
  | 0xA2 => some .mxdrn
  | 0xA3 => some .lutx
  | 0xA4 => some .bspl
  | 0xA5 => some .bjn
  | 0xA6 => some .phlx
  | 0xA7 => some .rngf
  | 0xE0 => some .tamp
  | 0xE1 => some .thaw
  | 0xE2 => some .scrd
  | 0xE3 => some .scwrVft
  | 0xE4 => some .rtwr
  | 0xE5 => match (fn.extractLsb' 0 3).toNat with | 0 => some .ptctRead | 1 => some .ptctWrite | 2 => some .ptctDefine | 3 => some .ptctSave | 4 => some .ptctRestore | 5 => some .ptctRelease | _ => none
  | 0xE6 => match (fn.extractLsb' 0 3).toNat with | 0 => some .tlbiS1va | 1 => some .tlbiS1pid | 2 => some .tlbiS2g | 3 => some .tlbiS2vf | _ => none
  | 0xE7 => match (fn.extractLsb' 0 3).toNat with | 0 => some .pgfwStart | 1 => some .pgfwClear | 2 => some .pgfwAbort | 3 => some .pgfwQuery | _ => none
  | 0xE8 => some .prtd
  | 0xE9 => if fn.getLsbD 0 then some .vfenSet else some .vfenClr
  | 0xEA => some .vdmap
  | 0xEB => some .kroll
  | 0xEC => match (fn.extractLsb' 0 3).toNat with | 0 => some .atstQuery | 1 => some .atstChallenge | 2 => some .atstQuarantine | 3 => some .atstReset | _ => none
  | 0xED => if fn.getLsbD 0 then some .fltakPeek else some .fltakTake
  | 0xEE => match (fn.extractLsb' 0 3).toNat with | 0 => some .qsckRead | 1 => some .qsckRestart | _ => none
  | 0xEF => some .rlim
  | _ => none

/-- Rows that share every encoding with another row name that row; every other operation names itself (R390, R402) (log 11: DEDUCED). -/
def opCanon : SlotOp → SlotOp
  | .scwrEs => .scwrVft
  | .scwrSt => .scwrVft
  | .thawTrap => .thaw
  | o => o

/-- The slot operation of an instruction with its fields; none for what is no slot firing. -/
def instrSlot : Instr → Option (SlotOp × Slot × Fn)
  | .add o f => some (.add, o, f)
  | .adds o f => some (.adds, o, f)
  | .sub o f => some (.sub, o, f)
  | .subs o f => some (.subs, o, f)
  | .mul o f => some (.mul, o, f)
  | .mulh o f => some (.mulh, o, f)
  | .mulw o f => some (.mulw, o, f)
  | .mad o f => some (.mad, o, f)
  | .madw o f => some (.madw, o, f)
  | .neg o f => some (.neg, o, f)
  | .abs o f => some (.abs, o, f)
  | .min o f => some (.min, o, f)
  | .max o f => some (.max, o, f)
  | .clamp o f => some (.clamp, o, f)
  | .and o f => some (.and, o, f)
  | .or o f => some (.or, o, f)
  | .xor o f => some (.xor, o, f)
  | .andn o f => some (.andn, o, f)
  | .not o f => some (.not, o, f)
  | .shl o f => some (.shl, o, f)
  | .shr o f => some (.shr, o, f)
  | .sar o f => some (.sar, o, f)
  | .rotl o f => some (.rotl, o, f)
  | .clz o f => some (.clz, o, f)
  | .ctz o f => some (.ctz, o, f)
  | .popc o f => some (.popc, o, f)
  | .brev o f => some (.brev, o, f)
  | .bfx o f => some (.bfx, o, f)
  | .bfi o f => some (.bfi, o, f)
  | .cmp o f => some (.cmp, o, f)
  | .sel o f => some (.sel, o, f)
  | .qdiv o f => some (.qdiv, o, f)
  | .fadd o f => some (.fadd, o, f)
  | .fsub o f => some (.fsub, o, f)
  | .fmul o f => some (.fmul, o, f)
  | .fma o f => some (.fma, o, f)
  | .fnma o f => some (.fnma, o, f)
  | .fmin o f => some (.fmin, o, f)
  | .fmax o f => some (.fmax, o, f)
  | .fabs o f => some (.fabs, o, f)
  | .fneg o f => some (.fneg, o, f)
  | .fcmp o f => some (.fcmp, o, f)
  | .fclass o f => some (.fclass, o, f)
  | .frnd o f => some (.frnd, o, f)
  | .fcvt o f => some (.fcvt, o, f)
  | .fscl o f => some (.fscl, o, f)
  | .fexpn o f => some (.fexpn, o, f)
  | .frcp o f => some (.frcp, o, f)
  | .frsq o f => some (.frsq, o, f)
  | .fsqrt o f => some (.fsqrt, o, f)
  | .fdiv o f => some (.fdiv, o, f)
  | .fexp2 o f => some (.fexp2, o, f)
  | .flog2 o f => some (.flog2, o, f)
  | .fsin o f => some (.fsin, o, f)
  | .fcos o f => some (.fcos, o, f)
  | .fsncs o f => some (.fsncs, o, f)
  | .ficv o f => some (.ficv, o, f)
  | .pkspl o f => some (.pkspl, o, f)
  | .pkmrg o f => some (.pkmrg, o, f)
  | .pklenGet o f => some (.pklenGet, o, f)
  | .pklenSet o f => some (.pklenSet, o, f)
  | .lswap o f => some (.lswap, o, f)
  | .lperm o f => some (.lperm, o, f)
  | .lbcast o f => some (.lbcast, o, f)
  | .lext o f => some (.lext, o, f)
  | .lins o f => some (.lins, o, f)
  | .lred o f => some (.lred, o, f)
  | .lscan o f => some (.lscan, o, f)
  | .eofm o f => some (.eofm, o, f)
  | .dot o f => some (.dot, o, f)
  | .amax o f => some (.amax, o, f)
  | .sclx o f => some (.sclx, o, f)
  | .qnt o f => some (.qnt, o, f)
  | .dqnt o f => some (.dqnt, o, f)
  | .sclm o f => some (.sclm, o, f)
  | .unp6 o f => some (.unp6, o, f)
  | .pck6 o f => some (.pck6, o, f)
  | .nzc o f => some (.nzc, o, f)
  | .abrd o f => some (.abrd, o, f)
  | .abwr o f => some (.abwr, o, f)
  | .fwd o f => some (.fwd, o, f)
  | .steer o f => some (.steer, o, f)
  | .mrg o f => some (.mrg, o, f)
  | .splt o f => some (.splt, o, f)
  | .join o f => some (.join, o, f)
  | .seqtCnt o f => some (.seqtCnt, o, f)
  | .seqtSet o f => some (.seqtSet, o, f)
  | .seqtGet o f => some (.seqtGet, o, f)
  | .bnd o f => some (.bnd, o, f)
  | .stset o f => some (.stset, o, f)
  | .stxor o f => some (.stxor, o, f)
  | .exit o f => some (.exit, o, f)
  | .nop o f => some (.nop, o, f)
  | .trap o f => some (.trap, o, f)
  | .brk o f => some (.brk, o, f)
  | .ldb o f => some (.ldb, o, f)
  | .stb o f => some (.stb, o, f)
  | .ldv o f => some (.ldv, o, f)
  | .stv o f => some (.stv, o, f)
  | .rclm o f => some (.rclm, o, f)
  | .gath o f => some (.gath, o, f)
  | .scat o f => some (.scat, o, f)
  | .bfst o f => some (.bfst, o, f)
  | .bfsetFull o f => some (.bfsetFull, o, f)
  | .bfsetEmpty o f => some (.bfsetEmpty, o, f)
  | .atb o f => some (.atb, o, f)
  | .sya o f => some (.sya, o, f)
  | .syadd o f => some (.syadd, o, f)
  | .sywch o f => some (.sywch, o, f)
  | .ldg o f => some (.ldg, o, f)
  | .stg o f => some (.stg, o, f)
  | .atg o f => some (.atg, o, f)
  | .fnc o f => some (.fnc, o, f)
  | .pfg o f => some (.pfg, o, f)
  | .cparm o f => some (.cparm, o, f)
  | .cpdis o f => some (.cpdis, o, f)
  | .cpfire o f => some (.cpfire, o, f)
  | .cpq o f => some (.cpq, o, f)
  | .tmov o f => some (.tmov, o, f)
  | .jcard o f => some (.jcard, o, f)
  | .mgopen o f => some (.mgopen, o, f)
  | .mgclose o f => some (.mgclose, o, f)
  | .mgsplAllow o f => some (.mgsplAllow, o, f)
  | .mgsplForbid o f => some (.mgsplForbid, o, f)
  | .mgsplForce o f => some (.mgsplForce, o, f)
  | .mgsplXqreg o f => some (.mgsplXqreg, o, f)
  | .mgsplXqdel o f => some (.mgsplXqdel, o, f)
  | .mgstIsland o f => some (.mgstIsland, o, f)
  | .mgstQueue o f => some (.mgstQueue, o, f)
  | .mxtok o f => some (.mxtok, o, f)
  | .mxcfg o f => some (.mxcfg, o, f)
  | .mxdrn o f => some (.mxdrn, o, f)
  | .lutx o f => some (.lutx, o, f)
  | .bspl o f => some (.bspl, o, f)
  | .bjn o f => some (.bjn, o, f)
  | .phlx o f => some (.phlx, o, f)
  | .rngf o f => some (.rngf, o, f)
  | .tamp o f => some (.tamp, o, f)
  | .thaw o f => some (.thaw, o, f)
  | .thawTrap o f => some (.thawTrap, o, f)
  | .scrd o f => some (.scrd, o, f)
  | .scwrVft o f => some (.scwrVft, o, f)
  | .scwrEs o f => some (.scwrEs, o, f)
  | .scwrSt o f => some (.scwrSt, o, f)
  | .rtwr o f => some (.rtwr, o, f)
  | .prtd o f => some (.prtd, o, f)
  | .ptctRead o f => some (.ptctRead, o, f)
  | .ptctWrite o f => some (.ptctWrite, o, f)
  | .ptctDefine o f => some (.ptctDefine, o, f)
  | .ptctSave o f => some (.ptctSave, o, f)
  | .ptctRestore o f => some (.ptctRestore, o, f)
  | .ptctRelease o f => some (.ptctRelease, o, f)
  | .tlbiS1va o f => some (.tlbiS1va, o, f)
  | .tlbiS1pid o f => some (.tlbiS1pid, o, f)
  | .tlbiS2g o f => some (.tlbiS2g, o, f)
  | .tlbiS2vf o f => some (.tlbiS2vf, o, f)
  | .pgfwStart o f => some (.pgfwStart, o, f)
  | .pgfwClear o f => some (.pgfwClear, o, f)
  | .pgfwAbort o f => some (.pgfwAbort, o, f)
  | .pgfwQuery o f => some (.pgfwQuery, o, f)
  | .vfenSet o f => some (.vfenSet, o, f)
  | .vfenClr o f => some (.vfenClr, o, f)
  | .vdmap o f => some (.vdmap, o, f)
  | .kroll o f => some (.kroll, o, f)
  | .atstQuery o f => some (.atstQuery, o, f)
  | .atstChallenge o f => some (.atstChallenge, o, f)
  | .atstQuarantine o f => some (.atstQuarantine, o, f)
  | .atstReset o f => some (.atstReset, o, f)
  | .fltakTake o f => some (.fltakTake, o, f)
  | .fltakPeek o f => some (.fltakPeek, o, f)
  | .qsckRead o f => some (.qsckRead, o, f)
  | .qsckRestart o f => some (.qsckRestart, o, f)
  | .rlim o f => some (.rlim, o, f)
  | _ => none

/-- The instruction of a slot operation with its fields. -/
def slotInstr : SlotOp → Slot → Fn → Instr
  | .add, o, f => .add o f
  | .adds, o, f => .adds o f
  | .sub, o, f => .sub o f
  | .subs, o, f => .subs o f
  | .mul, o, f => .mul o f
  | .mulh, o, f => .mulh o f
  | .mulw, o, f => .mulw o f
  | .mad, o, f => .mad o f
  | .madw, o, f => .madw o f
  | .neg, o, f => .neg o f
  | .abs, o, f => .abs o f
  | .min, o, f => .min o f
  | .max, o, f => .max o f
  | .clamp, o, f => .clamp o f
  | .and, o, f => .and o f
  | .or, o, f => .or o f
  | .xor, o, f => .xor o f
  | .andn, o, f => .andn o f
  | .not, o, f => .not o f
  | .shl, o, f => .shl o f
  | .shr, o, f => .shr o f
  | .sar, o, f => .sar o f
  | .rotl, o, f => .rotl o f
  | .clz, o, f => .clz o f
  | .ctz, o, f => .ctz o f
  | .popc, o, f => .popc o f
  | .brev, o, f => .brev o f
  | .bfx, o, f => .bfx o f
  | .bfi, o, f => .bfi o f
  | .cmp, o, f => .cmp o f
  | .sel, o, f => .sel o f
  | .qdiv, o, f => .qdiv o f
  | .fadd, o, f => .fadd o f
  | .fsub, o, f => .fsub o f
  | .fmul, o, f => .fmul o f
  | .fma, o, f => .fma o f
  | .fnma, o, f => .fnma o f
  | .fmin, o, f => .fmin o f
  | .fmax, o, f => .fmax o f
  | .fabs, o, f => .fabs o f
  | .fneg, o, f => .fneg o f
  | .fcmp, o, f => .fcmp o f
  | .fclass, o, f => .fclass o f
  | .frnd, o, f => .frnd o f
  | .fcvt, o, f => .fcvt o f
  | .fscl, o, f => .fscl o f
  | .fexpn, o, f => .fexpn o f
  | .frcp, o, f => .frcp o f
  | .frsq, o, f => .frsq o f
  | .fsqrt, o, f => .fsqrt o f
  | .fdiv, o, f => .fdiv o f
  | .fexp2, o, f => .fexp2 o f
  | .flog2, o, f => .flog2 o f
  | .fsin, o, f => .fsin o f
  | .fcos, o, f => .fcos o f
  | .fsncs, o, f => .fsncs o f
  | .ficv, o, f => .ficv o f
  | .pkspl, o, f => .pkspl o f
  | .pkmrg, o, f => .pkmrg o f
  | .pklenGet, o, f => .pklenGet o f
  | .pklenSet, o, f => .pklenSet o f
  | .lswap, o, f => .lswap o f
  | .lperm, o, f => .lperm o f
  | .lbcast, o, f => .lbcast o f
  | .lext, o, f => .lext o f
  | .lins, o, f => .lins o f
  | .lred, o, f => .lred o f
  | .lscan, o, f => .lscan o f
  | .eofm, o, f => .eofm o f
  | .dot, o, f => .dot o f
  | .amax, o, f => .amax o f
  | .sclx, o, f => .sclx o f
  | .qnt, o, f => .qnt o f
  | .dqnt, o, f => .dqnt o f
  | .sclm, o, f => .sclm o f
  | .unp6, o, f => .unp6 o f
  | .pck6, o, f => .pck6 o f
  | .nzc, o, f => .nzc o f
  | .abrd, o, f => .abrd o f
  | .abwr, o, f => .abwr o f
  | .fwd, o, f => .fwd o f
  | .steer, o, f => .steer o f
  | .mrg, o, f => .mrg o f
  | .splt, o, f => .splt o f
  | .join, o, f => .join o f
  | .seqtCnt, o, f => .seqtCnt o f
  | .seqtSet, o, f => .seqtSet o f
  | .seqtGet, o, f => .seqtGet o f
  | .bnd, o, f => .bnd o f
  | .stset, o, f => .stset o f
  | .stxor, o, f => .stxor o f
  | .exit, o, f => .exit o f
  | .nop, o, f => .nop o f
  | .trap, o, f => .trap o f
  | .brk, o, f => .brk o f
  | .ldb, o, f => .ldb o f
  | .stb, o, f => .stb o f
  | .ldv, o, f => .ldv o f
  | .stv, o, f => .stv o f
  | .rclm, o, f => .rclm o f
  | .gath, o, f => .gath o f
  | .scat, o, f => .scat o f
  | .bfst, o, f => .bfst o f
  | .bfsetFull, o, f => .bfsetFull o f
  | .bfsetEmpty, o, f => .bfsetEmpty o f
  | .atb, o, f => .atb o f
  | .sya, o, f => .sya o f
  | .syadd, o, f => .syadd o f
  | .sywch, o, f => .sywch o f
  | .ldg, o, f => .ldg o f
  | .stg, o, f => .stg o f
  | .atg, o, f => .atg o f
  | .fnc, o, f => .fnc o f
  | .pfg, o, f => .pfg o f
  | .cparm, o, f => .cparm o f
  | .cpdis, o, f => .cpdis o f
  | .cpfire, o, f => .cpfire o f
  | .cpq, o, f => .cpq o f
  | .tmov, o, f => .tmov o f
  | .jcard, o, f => .jcard o f
  | .mgopen, o, f => .mgopen o f
  | .mgclose, o, f => .mgclose o f
  | .mgsplAllow, o, f => .mgsplAllow o f
  | .mgsplForbid, o, f => .mgsplForbid o f
  | .mgsplForce, o, f => .mgsplForce o f
  | .mgsplXqreg, o, f => .mgsplXqreg o f
  | .mgsplXqdel, o, f => .mgsplXqdel o f
  | .mgstIsland, o, f => .mgstIsland o f
  | .mgstQueue, o, f => .mgstQueue o f
  | .mxtok, o, f => .mxtok o f
  | .mxcfg, o, f => .mxcfg o f
  | .mxdrn, o, f => .mxdrn o f
  | .lutx, o, f => .lutx o f
  | .bspl, o, f => .bspl o f
  | .bjn, o, f => .bjn o f
  | .phlx, o, f => .phlx o f
  | .rngf, o, f => .rngf o f
  | .tamp, o, f => .tamp o f
  | .thaw, o, f => .thaw o f
  | .thawTrap, o, f => .thawTrap o f
  | .scrd, o, f => .scrd o f
  | .scwrVft, o, f => .scwrVft o f
  | .scwrEs, o, f => .scwrEs o f
  | .scwrSt, o, f => .scwrSt o f
  | .rtwr, o, f => .rtwr o f
  | .prtd, o, f => .prtd o f
  | .ptctRead, o, f => .ptctRead o f
  | .ptctWrite, o, f => .ptctWrite o f
  | .ptctDefine, o, f => .ptctDefine o f
  | .ptctSave, o, f => .ptctSave o f
  | .ptctRestore, o, f => .ptctRestore o f
  | .ptctRelease, o, f => .ptctRelease o f
  | .tlbiS1va, o, f => .tlbiS1va o f
  | .tlbiS1pid, o, f => .tlbiS1pid o f
  | .tlbiS2g, o, f => .tlbiS2g o f
  | .tlbiS2vf, o, f => .tlbiS2vf o f
  | .pgfwStart, o, f => .pgfwStart o f
  | .pgfwClear, o, f => .pgfwClear o f
  | .pgfwAbort, o, f => .pgfwAbort o f
  | .pgfwQuery, o, f => .pgfwQuery o f
  | .vfenSet, o, f => .vfenSet o f
  | .vfenClr, o, f => .vfenClr o f
  | .vdmap, o, f => .vdmap o f
  | .kroll, o, f => .kroll o f
  | .atstQuery, o, f => .atstQuery o f
  | .atstChallenge, o, f => .atstChallenge o f
  | .atstQuarantine, o, f => .atstQuarantine o f
  | .atstReset, o, f => .atstReset o f
  | .fltakTake, o, f => .fltakTake o f
  | .fltakPeek, o, f => .fltakPeek o f
  | .qsckRead, o, f => .qsckRead o f
  | .qsckRestart, o, f => .qsckRestart o f
  | .rlim, o, f => .rlim o f

/-! The function field. -/

/-- The bits of FN (R284). -/
def fnBits : Fn → BitVec 8
  | .tr t r => BitVec.ofNat 8 (tyCode t * 8 + rndCode r)
  | .ty t s => BitVec.ofNat 8 (tyCode t * 8 + s.toNat)
  | .sh n m => n ++ m
  | .im v => v

/-- FN read in one form (R284); none for a reserved type code or rounding code. -/
def fnParse (k : FnKind) (short : Bool) (v : BitVec 8) : Option Fn :=
  if short then some (.sh (v.extractLsb' 4 4) (v.extractLsb' 0 4))
  else match k with
    | .tr => match tyOfCode (v.toNat / 8), rndOfCode (v.toNat % 8) with
      | some t, some r => some (.tr t r)
      | _, _ => none
    | .ty => match tyOfCode (v.toNat / 8) with
      | some t => some (.ty t (v.extractLsb' 0 3))
      | none => none
    | .im => some (.im v)

/-- The immediate bits of FN. -/
def fnIm (f : Fn) : Nat := (fnBits f).toNat

/-- Does the TY form of an operation define a sub-code for a type. -/
def subOk (op : SlotOp) (t : Ty) (s : Nat) : Bool :=
  match op with
  | .cmp => s < 6
  | .mul | .mad | .abs | .neg | .dot | .amax | .sclm | .nzc | .abwr => s < 2
  | .fcmp => true
  | .lext => true
  | .lred | .lscan => s < 3 || (s < 6 && !tyIsFloat t)
  | .ldg | .stg => s < 4 && !(tyIs64 t && s == 0)
  | _ => s == 0

/-- Does the IM form of an operation define a value of FN: the encoding table of each entry. -/
def imOk (op : SlotOp) (v : Nat) : Bool :=
  match op with
  | .pkspl => v < 8 && v != 0
  | .pkmrg => v < 4
  | .pklenGet => v == 0
  | .pklenSet => 8 ≤ v && v < 16
  | .lswap => v < 8
  | .lbcast => v < 64
  | .lins => v < 8
  | .eofm => v < 16 && v / 4 < 3
  | .steer | .splt => v < 4
  | .mrg => v < 32 && 2 ≤ (v % 2 + v / 2 % 2 + v / 4 % 2 + v / 8 % 2)
  | .join => v < 16
  | .seqtCnt => v == 0
  | .seqtSet => v == 1
  | .seqtGet => v == 2
  | .bnd | .fnc => v < 6
  | .stset | .stxor => v < 64 && v != 0
  | .exit => v < 4
  | .ldb => v < 64
  | .stb | .ldv | .stv | .rclm | .gath | .scat => v < 8
  | .bfst => v < 16
  | .bfsetFull => 8 ≤ v && v < 16
  | .bfsetEmpty => v < 8
  | .atb => v / 16 < 9 && !(v / 16 == 8 && v / 8 % 2 == 1)
  | .atg => v / 16 < 9 && v % 2 == 0 && !(v / 16 == 8 && v / 2 % 2 == 1)
  | .pfg => true
  | .cparm | .cpdis | .cpfire | .jcard => true
  | .cpq => v / 16 % 2 == 0
  | .tmov => v / 8 % 8 != v % 8
  | .mgopen | .mgclose => v < 4
  | .mgsplAllow => v < 32 && v % 8 == 0
  | .mgsplForbid => v < 32 && v % 8 == 1
  | .mgsplForce => v < 32 && v % 8 == 2
  | .mgsplXqreg => v == 3
  | .mgsplXqdel => v == 4
  | .mgstIsland => v < 4
  | .mgstQueue => v < 64 && v % 8 == 4
  | .mxtok => v % 16 == 0
  | .mxcfg => v < 4
  | .lutx => v < 2
  | .bspl | .bjn => v / 8 + v % 8 + 1 ≤ 32
  | .phlx => v % 32 == 0
  | .ptctRead => v % 16 == 0 && v / 16 < 7
  | .ptctWrite => v % 16 == 1 && v / 16 < 7
  | .ptctDefine => v == 2
  | .ptctSave => v == 3
  | .ptctRestore => v == 4
  | .ptctRelease => v == 5
  | .tlbiS1va | .pgfwStart | .atstQuery | .vfenClr | .fltakTake | .qsckRead => v == 0
  | .tlbiS1pid | .pgfwClear | .atstChallenge | .vfenSet | .fltakPeek | .qsckRestart => v == 1
  | .tlbiS2g | .pgfwAbort | .atstQuarantine => v == 2
  | .tlbiS2vf | .pgfwQuery | .atstReset => v == 3
  | _ => v == 0

/-- Does the entry define this FN (R284). Rounding code 6 is legal in FCVT and QNT only (R112). -/
def fnOk (op : SlotOp) (f : Fn) : Bool :=
  match f, (opRow op).fn with
  | .tr t r, .tr => tySetHas (opRow op).types t && (r != .sr || op == .fcvt || op == .qnt)
  | .ty t s, .ty => tySetHas (opRow op).types t && subOk op t s.toNat
  | .sh _ m, _ =>
    match (opRow op).short with
    | .none => false
    | .int => m.toNat < 8 && (op != .sar || m.toNat % 2 == 1)
    | .flt => 8 ≤ m.toNat && m.toNat ≤ 12
  | .im v, .im => imOk op v.toNat
  | _, _ => false

/-! Sources and destinations. -/

/-- Is a selector 11 or 13: the two that FN[7:4] serves (R74). -/
def selUsesFn (x : BitVec 4) : Bool := x == 11 || x == 13

/-- Does a slot use the short form: one of its selectors is 11 or 13 (R284). -/
def isShort (o : Slot) : Bool := selUsesFn o.sa || selUsesFn o.sb

/-- Does FN give the form its selectors ask for, with a legal field number for selector 13 (R74). -/
def shortOk (o : Slot) (f : Fn) : Bool :=
  match f with
  | .sh n _ => isShort o && !((o.sa == 11 && o.sb == 13) || (o.sa == 13 && o.sb == 11))
      && (!(o.sa == 13 || o.sb == 13) || n.toNat < 6)
  | _ => !isShort o

/-- Does an entry take a second source here: SB serves AMAX under .acc, STB in random mode, and DQNT's index (R320, R337). -/
def needsSb15 (op : SlotOp) (f : Fn) : Bool :=
  match (opRow op).src with
  | .zero | .a | .aPkt => true
  | .ab => match op, f with
    | .amax, .ty _ s => s == 0
    | _, _ => false
  | .abPkt => false

/-- The source selectors an entry allows (R74, R311). -/
def srcOk (op : SlotOp) (o : Slot) (f : Fn) : Bool :=
  (!needsSb15 op f || o.sb == 15)
  && match (opRow op).src with
    | .zero => o.sa == 15
    | .aPkt | .abPkt => o.sa.toNat ≤ 10
    | .a | .ab =>
      match op with
      | .mxtok => if fnIm f / 16 % 2 == 1 then true else o.sa == 15
      | .pkmrg => o.sa.toNat != fnIm f
      | _ => true

/-- The input channels an operation reads besides its selectors: the mask of JOIN and MRG (R349, R360). -/
def maskChannels (op : SlotOp) (f : Fn) : BitVec 4 :=
  match op with
  | .mrg => BitVec.ofNat 4 (fnIm f % 16)
  | .join => BitVec.ofNat 4 (fnIm f % 16)
  | _ => 0

/-- The input channels the selectors of a slot read (R74). -/
def selChannels (o : Slot) : BitVec 4 :=
  (if 4 ≤ o.sa.toNat && o.sa.toNat < 8 then 1#4 <<< (o.sa.toNat - 4) else 0)
  ||| (if 4 ≤ o.sb.toNat && o.sb.toNat < 8 then 1#4 <<< (o.sb.toNat - 4) else 0)

/-- ICN names exactly the channels the slot reads, and a mask channel is not also a selector (R74, R349, R360). -/
def icnOk (op : SlotOp) (o : Slot) (f : Fn) : Bool :=
  o.icn == (selChannels o ||| maskChannels op f) && (selChannels o &&& maskChannels op f) == 0

/-- The destinations an entry allows, and OUTn named in OCS (R76, R335, R374, R393). -/
def dstOk (op : SlotOp) (o : Slot) (f : Fn) : Bool :=
  (o.tt.toNat < 8 || o.tt == 15)
  && !(o.tt.toNat < 8 && o.dt.toNat == o.tt.toNat + 8)
  && (!(4 ≤ o.dt.toNat && o.dt.toNat < 8) || o.ocs.getLsbD (o.dt.toNat - 4))
  && match (opRow op).dst with
    | .one => true
    | .nothing => o.dt == 0 && o.tt == 15
    | .two => o.tt.toNat < 8
    | .entries => 8 ≤ o.dt.toNat && o.tt == 15 && o.dt.toNat + fnIm f % 4 < 16
    | .queue => 4 ≤ o.dt.toNat && o.dt.toNat < 8 && o.tt == 15

/-- What the arm-time check accepts of one slot word alone. -/
def slotOk (op : SlotOp) (o : Slot) (f : Fn) : Bool :=
  o.nsm != 3 && fnOk op f && shortOk o f && srcOk op o f && icnOk op o f && dstOk op o f

/-- Does the operation take its third source from field P (R73, R321, R343, R380). -/
def usesP (op : SlotOp) (f : Fn) : Bool :=
  match op with
  | .mad | .madw | .clamp | .bfi | .sel | .fma | .fnma | .dot | .stv => true
  | .fcvt | .qnt => match f with | .tr _ .sr => true | _ => false
  | .atb | .atg => fnIm f / 16 == 7
  | _ => false

/-- Must field P have no feeder: FCVT, FICV, FRND, FSCL and QNT outside .sr, and the atomics other than CAS (R321, R343, R380). -/
def forbidsP (op : SlotOp) (f : Fn) : Bool :=
  match op with
  | .ficv | .frnd | .fscl => true
  | .fcvt | .qnt | .atb | .atg => !usesP op f
  | _ => false

end Sys2Proof.Machine
end

