-- ==== Sys2Proof/WellFormed.lean ====
section
/-! DEFINITION. Well-formed instructions: what the arm-time check accepts in a slot word taken alone, what a sequencer word,
a management command and a TRLS packet must hold, and the reasons for which a word is turned away. -/

namespace Sys2Proof

/-- Why the decoder turns a word away. -/
inductive Reject where
  /-- All bits zero: a vacant slot word (R283). -/
  | vacant
  /-- V = 0 with another bit set (R283). -/
  | vacantBits
  /-- A dash of the opcode map (R286, R287). -/
  | undefinedOpcode
  /-- Opcodes 0xF0 to 0xFF: the firmware class, in which no operation is defined (R287). -/
  | firmwareClass
  /-- An FN value the entry does not define (R284, R287). -/
  | badFn
  /-- NSM 11 (R75). -/
  | badNextState
  /-- Selector misuse (R74, R311). -/
  | badSource
  /-- ICN not the channels the slot reads (R74). -/
  | badChannels
  /-- DT or TT misuse (R76). -/
  | badDestination
  /-- A stream word that is neither a block header nor a sequencer word (R55, R287). -/
  | notSequencer
  /-- Sequencer opcode 0xC9 to 0xCF, or a reserved bit or field value that R299 forbids. -/
  | badSequencer
  /-- A matrix control token with an undefined OPC or a nonzero reserved bit (R187, R192). -/
  | badToken
  /-- A TRLS packet whose version, flags, reserved bytes or length R264 does not allow. -/
  | badTrls
  deriving DecidableEq, Repr

namespace Machine

/-- A management command is well-formed: its lists have the lengths its body gives them, and its fields have the widths of
R268. A malformed message is one that no command's layout fits (log 88: DEDUCED). -/
def mgmtOk : Instr → Bool
  | .stwLaunch _ _ hdr => hdr.length == 16
  | .peerSet _ _ addrs => addrs.length ≤ 4
  | _ => true

/-- The header fields of a TRLS packet that R264 bounds. -/
def trlsOk (h : TrlsHdr) : Bool :=
  h.payload.length ≤ 4096

end Machine

/-- Well-formed instructions. Events carry no encoding: their operands name things of the state, which their meanings test. -/
def Instr.wellFormed (i : Instr) : Bool :=
  match Machine.instrSlot i with
  | some (op, o, f) => Machine.slotOk op o f
  | none =>
    match i with
    | .sqloop _ c off => c != 0 && off.msb
    | .sqlaunch _ _ b _ _ => b.toNat < 6
    | .trlsLoad h | .trlsStore h | .trlsAtomic h | .trlsSyncadd h | .trlsData h | .trlsAck h | .trlsNak h
    | .trlsKeyswitch h => Machine.trlsOk h
    | .trlsUndefinedOp c h => 8 ≤ c.toNat && Machine.trlsOk h
    | i => Machine.mgmtOk i

end Sys2Proof
end

