-- ==== Sys2Proof/Decode.lean ====
section
/-! DEFINITION. The decoder, total on any bits: slot words (R281 to R287), sequencer words (R299), matrix control tokens
(R185, R187), management commands (R268) and TRLS packets (R264); and after it the encoder, from the same tables. -/

namespace Sys2Proof

/-! Bytes and doublewords, least significant byte first (R34, R288). -/

/-- The number that bytes spell, least significant first. -/
def bytesVal : List Byte → Nat
  | [] => 0
  | b :: bs => b.toNat + 256 * bytesVal bs

/-- A number as n bytes, least significant first. -/
def valBytes : Nat → Nat → List Byte
  | 0, _ => []
  | n + 1, v => BitVec.ofNat 8 (v % 256) :: valBytes n (v / 256)

/-- The number in the n bytes of a message from an offset. -/
def bytesAt (bs : List Byte) (off n : Nat) : Nat :=
  bytesVal ((bs.drop off).take n)

/-! Slot words. -/

/-- The trigger half and the selectors of a slot word (R281). -/
def slotFields (w : Dword) : Slot :=
  { awt := w.getLsbD 62, pri := w.extractLsb' 60 2, ocs := w.extractLsb' 56 4, icn := w.extractLsb' 52 4,
    nsm := w.extractLsb' 50 2, ns := w.extractLsb' 44 6, gm := w.extractLsb' 38 6, gv := w.extractLsb' 32 6,
    sa := w.extractLsb' 20 4, sb := w.extractLsb' 16 4, dt := w.extractLsb' 12 4, tt := w.extractLsb' 8 4 }

/-- The slot word with V = 1, the fields of a slot, an opcode and an FN (R281) (log 107: DESIGN CHOICE). -/
def slotBits (o : Slot) (opc fn : BitVec 8) : Dword :=
  (1#1 ++ BitVec.ofBool o.awt ++ o.pri ++ o.ocs ++ o.icn ++ o.nsm ++ o.ns ++ o.gm ++ o.gv
    ++ opc ++ o.sa ++ o.sb ++ o.dt ++ o.tt ++ fn : BitVec 64)

/-- What R74 and R76 ask of a word whatever its operation: the selectors, the channels, and the destinations. -/
def anyOpOk (o : Slot) (fn : BitVec 8) : Bool :=
  !((o.sa == 11 && o.sb == 13) || (o.sa == 13 && o.sb == 11)) && (!(o.sa == 13 || o.sb == 13) || (fn.extractLsb' 4 4).toNat < 6)
  && o.icn == Machine.selChannels o
  && !(o.tt.toNat < 8 && o.dt.toNat == o.tt.toNat + 8)
  && (!(4 ≤ o.dt.toNat && o.dt.toNat < 8) || o.ocs.getLsbD (o.dt.toNat - 4))

/-- Why a word with a defined opcode and a readable FN is turned away. -/
def slotReject (op : Machine.SlotOp) (o : Slot) (f : Fn) : Reject :=
  if o.nsm == 3 then .badNextState
  else if !Machine.fnOk op f then .badFn
  else if !(Machine.shortOk o f && Machine.srcOk op o f) then .badSource
  else if !Machine.icnOk op o f then .badChannels
  else .badDestination

/-- The slot operation, fields and function of a slot word (log 107: DESIGN CHOICE). -/
def decodeSlotParts (w : Dword) : Except Reject (Machine.SlotOp × Slot × Fn) :=
  if w.getLsbD 63 = false then .error (if w = 0 then .vacant else .vacantBits)
  else
    let o := slotFields w
    let opc := (w.extractLsb' 24 8).toNat
    let fn := w.extractLsb' 0 8
    if o.nsm == 3 then .error .badNextState
    else if 8 ≤ o.tt.toNat && o.tt.toNat < 15 then .error .badDestination
    else if 0xF0 ≤ opc then .error (if anyOpOk o fn then .firmwareClass else .badSource)
    else match Machine.opOfCode opc fn with
      | none => .error (if (Machine.opOfCode opc 0).isSome then .badFn else .undefinedOpcode)
      | some op =>
        match Machine.fnParse (Machine.opRow op).fn (Machine.isShort o) fn with
        | none => .error .badFn
        | some f => if Machine.slotOk op o f then .ok (op, o, f) else .error (slotReject op o f)

/-- The instruction of a slot word, or why there is none (log 10: DEDUCED; log 106: DEDUCED). -/
def decodeSlot (w : Dword) : Except Reject Instr :=
  (decodeSlotParts w).map (fun x => Machine.slotInstr x.1 x.2.1 x.2.2)

/-- The slot word of a slot operation with its fields (log 106: DEDUCED; log 107: DESIGN CHOICE). -/
def encodeSlot (op : Machine.SlotOp) (o : Slot) (f : Fn) : Dword :=
  slotBits o (BitVec.ofNat 8 (Machine.opRow op).opc) (Machine.fnBits f)

/-! Sequencer words. -/

/-- The number of doublewords a sequencer word takes (R299). -/
def seqLength (w : Dword) : Nat :=
  let c := (w.extractLsb' 56 8).toNat
  if c = 0xC3 ∨ c = 0xC4 then 2 else 1

/-- The sequencer word at a position, with the doubleword that follows it (R299) (log 10: DEDUCED; log 106: DEDUCED). -/
def decodeSeq (w v : Dword) : Except Reject Instr :=
  let z (lo n : Nat) : Bool := (w.toNat / 2 ^ lo) % 2 ^ n == 0
  match (w.extractLsb' 56 8).toNat with
  | 0xC0 => if z 32 24 then .ok (.sqarm (w.extractLsb' 0 32)) else .error .badSequencer
  | 0xC1 => if z 32 24 then .ok (.sqbr (w.extractLsb' 0 32)) else .error .badSequencer
  | 0xC2 =>
    if (w.extractLsb' 30 24) != 0 && (w.extractLsb' 0 30).msb then
      .ok (.sqloop (w.extractLsb' 54 2) (w.extractLsb' 30 24) (w.extractLsb' 0 30))
    else .error .badSequencer
  | 0xC3 => if z 16 40 then .ok (.sqwait (w.extractLsb' 0 16) v) else .error .badSequencer
  | 0xC4 =>
    if z 0 45 && (w.extractLsb' 47 3).toNat < 6 then
      .ok (.sqlaunch (w.extractLsb' 53 3) (w.extractLsb' 50 3) (w.extractLsb' 47 3) (w.extractLsb' 45 2) v)
    else .error .badSequencer
  | 0xC5 => if z 2 54 then .ok (.sqjoin (w.extractLsb' 0 2)) else .error .badSequencer
  | 0xC6 => if z 0 56 then .ok .sqend else .error .badSequencer
  | 0xC7 => if z 16 40 then .ok (.sqmark (w.extractLsb' 0 16)) else .error .badSequencer
  | 0xC8 => if z 0 56 then .ok .sqfence else .error .badSequencer
  | c => .error (if 0xC9 ≤ c ∧ c ≤ 0xCF then .badSequencer else .notSequencer)

/-! Matrix control tokens. -/

/-- The fields of a control token (R185). -/
def tokFields (w : Dword) : MTok :=
  { mc := w.extractLsb' 56 2, nc := w.extractLsb' 54 2, kb := w.extractLsb' 42 12, fa := w.extractLsb' 37 5,
    fb := w.extractLsb' 32 5, acc := w.getLsbD 31, tr := w.getLsbD 30, nms := w.extractLsb' 28 2,
    abase := w.extractLsb' 16 12, ntf := w.getLsbD 15 }

/-- The control token of an opcode and its fields (R185). -/
def tokBits (opc : BitVec 6) (t : MTok) : Dword :=
  (opc ++ t.mc ++ t.nc ++ t.kb ++ t.fa ++ t.fb ++ BitVec.ofBool t.acc ++ BitVec.ofBool t.tr ++ t.nms ++ t.abase
    ++ BitVec.ofBool t.ntf ++ 0#15 : BitVec 64)

/-- The command of a control token (R187); other opcodes and nonzero reserved bits are turned away (log 10: DEDUCED). -/
def decodeTok (w : Dword) : Except Reject Instr :=
  let t := tokFields w
  if (w.extractLsb' 0 15) != 0 then .error .badToken
  else match (w.extractLsb' 58 6).toNat with
    | 1 => .ok (.mma t)
    | 2 => .ok (.mmas t)
    | 3 => .ok (.mmsc t)
    | 4 => .ok (.mmi t)
    | 5 => .ok (.mzero t)
    | 6 => .ok (.mldm t)
    | _ => .error .badToken

/-! Management commands (R268). -/

/-- Doublewords from bytes, as many as n. -/
def bytesDwords : Nat → List Byte → List Dword
  | 0, _ => []
  | n + 1, bs => BitVec.ofNat 64 (bytesVal (bs.take 8)) :: bytesDwords n (bs.drop 8)

/-- IPv6 addresses from bytes, as many as n. -/
def bytesAddrs : Nat → List Byte → List (BitVec 128)
  | 0, _ => []
  | n + 1, bs => BitVec.ofNat 128 (bytesVal (bs.take 16)) :: bytesAddrs n (bs.drop 16)

/-- Are the n bytes from an offset all zero. -/
def bytesZero (bs : List Byte) (off n : Nat) : Bool :=
  ((bs.drop off).take n).all (fun b => b == 0)

/-- The body of a management command, by OP; none where its length or its reserved bytes are wrong. -/
def decodeMgmtBody (op : Nat) (tag : BitVec 32) (b : List Byte) : Option Instr :=
  let n := b.length
  let by8 (i : Nat) : Byte := BitVec.ofNat 8 (bytesAt b i 1)
  let by32 (i : Nat) : BitVec 32 := BitVec.ofNat 32 (bytesAt b i 4)
  let by64 (i : Nat) : Dword := BitVec.ofNat 64 (bytesAt b i 8)
  let by128 (i : Nat) : BitVec 128 := BitVec.ofNat 128 (bytesAt b i 16)
  match op with
  | 0x01 => if n == 136 && bytesZero b 1 7 then some (.stwLaunch tag (by8 0) (bytesDwords 16 (b.drop 8))) else none
  | 0x02 => if n == 24 && bytesZero b 2 6 then some (.portAddr tag (by8 0) (by8 1) (by128 8)) else none
  | 0x03 =>
    if 8 ≤ n && bytesAt b 2 1 ≤ 4 && n == 8 + 16 * bytesAt b 2 1 && bytesZero b 3 5 then
      some (.peerSet tag (BitVec.ofNat 16 (bytesAt b 0 2)) (bytesAddrs (bytesAt b 2 1) (b.drop 8)))
    else none
  | 0x04 =>
    if n == 8 && bytesZero b 4 4 then
      some (.trlsCfg tag (BitVec.ofNat 16 (bytesAt b 0 2)) (BitVec.ofNat 16 (bytesAt b 2 2)))
    else none
  | 0x05 =>
    if n == 32 && bytesZero b 3 1 && bytesZero b 28 4 then
      some (.qpOpen tag (by8 0) (by8 1) (by8 2) (by32 4) (by128 8) (by32 24))
    else none
  | 0x06 => if n == 4 then some (.qpClose tag (by32 0)) else none
  | 0x07 =>
    if n == 24 && bytesZero b 3 5 && bytesAt b 2 1 < 4 then
      some (.mwOpen tag (by8 0) (by8 1) (bytesAt b 2 1 % 2 == 1) (bytesAt b 2 1 / 2 == 1) (by64 8) (by64 16))
    else none
  | 0x08 => if n == 4 then some (.mwClose tag (by32 0)) else none
  | 0x09 =>
    if n == 24 && bytesZero b 3 1 then
      some (.sqBind tag (by8 0) (by8 1) (by8 2) (by32 4) (by64 8) (by32 16) (by32 20))
    else none
  | 0x0A => if n == 20 && bytesZero b 2 2 then some (.ringSet tag (by8 0) (by8 1) (by32 4) (by64 8) (by32 16)) else none
  | 0x0B => if n == 8 && bytesZero b 1 3 then some (.cfgRead tag (by8 0) (by32 4)) else none
  | _ => none

/-- The command in a message of the management queue pair: whatever is no well-laid-out command is the malformed command,
which is answered FORMAT (log 10: DEDUCED). -/
def decodeMgmt (msg : List Byte) : Instr :=
  if 16 ≤ msg.length && msg.length ≤ 4096 && bytesZero msg 1 1 && bytesZero msg 8 8
      && bytesAt msg 2 2 + 16 == msg.length then
    match decodeMgmtBody (bytesAt msg 0 1) (BitVec.ofNat 32 (bytesAt msg 4 4)) (msg.drop 16) with
    | some i => i
    | none => .mgmtMalformedCommand msg
  else .mgmtMalformedCommand msg

/-- A management message: the 16-byte header and the body (R268). -/
def mgmtMsg (op : Nat) (status : Nat) (tag : BitVec 32) (body : List Byte) : List Byte :=
  valBytes 1 op ++ valBytes 1 status ++ valBytes 2 body.length ++ valBytes 4 tag.toNat ++ valBytes 8 0 ++ body

/-- The body and OP of a management command. -/
def encodeMgmtBody : Instr → Nat × BitVec 32 × List Byte
  | .stwLaunch tag vdn hdr => (0x01, tag, valBytes 1 vdn.toNat ++ valBytes 7 0 ++ hdr.flatMap (fun d => valBytes 8 d.toNat))
  | .portAddr tag p l a => (0x02, tag, valBytes 1 p.toNat ++ valBytes 1 l.toNat ++ valBytes 6 0 ++ valBytes 16 a.toNat)
  | .peerSet tag p as =>
    (0x03, tag, valBytes 2 p.toNat ++ valBytes 1 as.length ++ valBytes 5 0 ++ as.flatMap (fun a => valBytes 16 a.toNat))
  | .trlsCfg tag p n => (0x04, tag, valBytes 2 p.toNat ++ valBytes 2 n.toNat ++ valBytes 4 0)
  | .qpOpen tag vf pid port q ip psn =>
    (0x05, tag, valBytes 1 vf.toNat ++ valBytes 1 pid.toNat ++ valBytes 1 port.toNat ++ valBytes 1 0 ++ valBytes 4 q.toNat
      ++ valBytes 16 ip.toNat ++ valBytes 4 psn.toNat ++ valBytes 4 0)
  | .qpClose tag q => (0x06, tag, valBytes 4 q.toNat)
  | .mwOpen tag vf pid r w va len =>
    (0x07, tag, valBytes 1 vf.toNat ++ valBytes 1 pid.toNat ++ valBytes 1 (r.toNat + 2 * w.toNat) ++ valBytes 5 0
      ++ valBytes 8 va.toNat ++ valBytes 8 len.toNat)
  | .mwClose tag k => (0x08, tag, valBytes 4 k.toNat)
  | .sqBind tag vf q pid qpn va key n =>
    (0x09, tag, valBytes 1 vf.toNat ++ valBytes 1 q.toNat ++ valBytes 1 pid.toNat ++ valBytes 1 0 ++ valBytes 4 qpn.toNat
      ++ valBytes 8 va.toNat ++ valBytes 4 key.toNat ++ valBytes 4 n.toNat)
  | .ringSet tag vf r qpn va key =>
    (0x0A, tag, valBytes 1 vf.toNat ++ valBytes 1 r.toNat ++ valBytes 2 0 ++ valBytes 4 qpn.toNat ++ valBytes 8 va.toNat
      ++ valBytes 4 key.toNat)
  | .cfgRead tag i x => (0x0B, tag, valBytes 1 i.toNat ++ valBytes 3 0 ++ valBytes 4 x.toNat)
  | _ => (0, 0, [])

/-- The message of a management command. -/
def encodeMgmt (i : Instr) : List Byte :=
  match i with
  | .mgmtMalformedCommand msg => msg
  | i => let r := encodeMgmtBody i; mgmtMsg r.1 0 r.2.1 r.2.2

/-! TRLS packets (R264), after the tag has been taken off. -/

/-- The header fields of a TRLS packet. -/
def trlsFields (b : List Byte) : TrlsHdr :=
  { tclass := BitVec.ofNat 2 (bytesAt b 1 1 / 64), spanel := BitVec.ofNat 16 (bytesAt b 2 2),
    dpanel := BitVec.ofNat 16 (bytesAt b 4 2), stream := BitVec.ofNat 16 (bytesAt b 8 2),
    kgen := BitVec.ofNat 16 (bytesAt b 10 2), psn := BitVec.ofNat 32 (bytesAt b 12 4),
    apsn := BitVec.ofNat 32 (bytesAt b 16 4), gpa := BitVec.ofNat 64 (bytesAt b 24 8), payload := b.drop 32 }

/-- A TRLS packet (R264) (log 10: DEDUCED). -/
def decodeTrls (b : List Byte) : Except Reject Instr :=
  let h := trlsFields b
  if 32 ≤ b.length && b.length ≤ 32 + 4096 && bytesAt b 0 1 / 16 == 1 && bytesAt b 1 1 % 64 == 0 && bytesZero b 20 4
      && bytesAt b 6 2 + 32 == b.length then
    match bytesAt b 0 1 % 16 with
    | 0 => .ok (.trlsLoad h)
    | 1 => .ok (.trlsStore h)
    | 2 => .ok (.trlsAtomic h)
    | 3 => .ok (.trlsSyncadd h)
    | 4 => .ok (.trlsData h)
    | 5 => .ok (.trlsAck h)
    | 6 => .ok (.trlsNak h)
    | 7 => .ok (.trlsKeyswitch h)
    | c => .ok (.trlsUndefinedOp (BitVec.ofNat 4 c) h)
  else .error .badTrls

/-- The bytes of a TRLS packet with an OP. -/
def trlsBytes (op : Nat) (h : TrlsHdr) : List Byte :=
  valBytes 1 (16 + op) ++ valBytes 1 (h.tclass.toNat * 64) ++ valBytes 2 h.spanel.toNat ++ valBytes 2 h.dpanel.toNat
    ++ valBytes 2 h.payload.length ++ valBytes 2 h.stream.toNat ++ valBytes 2 h.kgen.toNat ++ valBytes 4 h.psn.toNat
    ++ valBytes 4 h.apsn.toNat ++ valBytes 4 0 ++ valBytes 8 h.gpa.toNat ++ h.payload

/-! The encoder. -/

/-- The doublewords of an instruction that is a slot word, a sequencer word or a control token; none for the others, whose
bytes encodeMgmt and encodeTrls give, and for events, which no word names. -/
def encode (i : Instr) : List Dword :=
  match Machine.instrSlot i with
  | some (op, o, f) => [encodeSlot op o f]
  | none =>
    match i with
    | .sqarm off => [0xC0#8 ++ 0#24 ++ off]
    | .sqbr off => [0xC1#8 ++ 0#24 ++ off]
    | .sqloop lc n off => [0xC2#8 ++ lc ++ n ++ off]
    | .sqwait g va => [0xC3#8 ++ 0#40 ++ g, va]
    | .sqlaunch ex ey b g va => [0xC4#8 ++ ex ++ ey ++ b ++ g ++ 0#45, va]
    | .sqjoin g => [0xC5#8 ++ 0#54 ++ g]
    | .sqend => [0xC6#8 ++ 0#56]
    | .sqmark m => [0xC7#8 ++ 0#40 ++ m]
    | .sqfence => [0xC8#8 ++ 0#56]
    | .mma t => [tokBits 1 t]
    | .mmas t => [tokBits 2 t]
    | .mmsc t => [tokBits 3 t]
    | .mmi t => [tokBits 4 t]
    | .mzero t => [tokBits 5 t]
    | .mldm t => [tokBits 6 t]
    | _ => []

/-- The bytes of a TRLS instruction. -/
def encodeTrls : Instr → List Byte
  | .trlsLoad h => trlsBytes 0 h
  | .trlsStore h => trlsBytes 1 h
  | .trlsAtomic h => trlsBytes 2 h
  | .trlsSyncadd h => trlsBytes 3 h
  | .trlsData h => trlsBytes 4 h
  | .trlsAck h => trlsBytes 5 h
  | .trlsNak h => trlsBytes 6 h
  | .trlsKeyswitch h => trlsBytes 7 h
  | .trlsUndefinedOp c h => trlsBytes c.toNat h
  | _ => []

/-- The instruction the decoder reads from bits numbered as spec/opcode_table.json numbers them. The table gives no row any
bits. A word of at most 64 bits is read as a slot word; where that is turned away, as a sequencer word, then as a matrix
control token. A longer one is a sequencer word of two doublewords (log 10: DEDUCED). -/
def decodeTableWord (nbits w : Nat) : Option Instr :=
  let lo := BitVec.ofNat 64 w
  let hi := BitVec.ofNat 64 (w / 2 ^ 64)
  let seq : Option Instr := (decodeSeq lo hi).toOption
  if nbits ≤ 64 then
    match decodeSlot lo with
    | .ok i => some i
    | .error _ => match seq with
      | some i => some i
      | none => (decodeTok lo).toOption
  else seq

end Sys2Proof
end

