-- ==== Sys2Proof/Machine/Bits.lean ====
section
/-! DEFINITION. Bit strings, sign extension, and the values a packet's lanes hold (R84, R109, R312). -/

namespace Sys2Proof.Machine

/-- The n values of w bits each that a bit string holds, lowest first (R84, R109). -/
def bitVals (w n s : Nat) : List Nat :=
  (List.range n).map (fun i => s / 2 ^ (w * i) % 2 ^ w)

/-- The bit string that values of w bits form, the first lowest. -/
def valsBits (w : Nat) : List Nat → Nat
  | [] => 0
  | v :: vs => v % 2 ^ w + 2 ^ w * valsBits w vs

/-- The bit string that lanes form: lane j supplies bits [32j+31:32j] (R109). -/
def lanesNat (ls : List Lane) : Nat := valsBits 32 (ls.map BitVec.toNat)

/-- n lanes of a bit string. -/
def natLanes (n s : Nat) : List Lane := (bitVals 32 n s).map (BitVec.ofNat 32)

/-- The values of lanes under a type (R84, R109). -/
def laneVals (t : Ty) (ls : List Lane) : List Nat :=
  bitVals (tyWidth t) (32 * ls.length / tyWidth t) (lanesNat ls)

/-- The number of lanes that n values of a type take (R84): a 64-bit value takes two. -/
def lanesFor (t : Ty) (n : Nat) : Nat := (n * tyWidth t + 31) / 32

/-- Values packed as R84 gives, unused positions of the last lane zero. -/
def packVals (t : Ty) (vs : List Nat) : List Lane := natLanes (lanesFor t vs.length) (valsBits (tyWidth t) vs)

/-- Values per lane of a type; a 64-bit type has none (R84). -/
def perLane (t : Ty) : Nat := 32 / tyWidth t

/-- A value of w bits read as two's complement. -/
def sval (w x : Nat) : Int :=
  if x < 2 ^ (w - 1) then (x : Int) else (x : Int) - (2 ^ w : Nat)

/-- A value of a type as an integer, signed for .s types (R312). -/
def ival (t : Ty) (x : Nat) : Int := if tyIsSigned t then sval (tyWidth t) x else (x : Int)

/-- wrap of R312, as the bits of the result. -/
def wrapTo (w : Nat) (x : Int) : Nat := (x % (2 ^ w : Nat)).toNat

/-- The least and the largest integer of a width and signedness (R312). -/
def intLo (w : Nat) (signed : Bool) : Int := if signed then -((2 ^ (w - 1) : Nat) : Int) else 0
def intHi (w : Nat) (signed : Bool) : Int :=
  if signed then ((2 ^ (w - 1) : Nat) : Int) - 1 else ((2 ^ w : Nat) : Int) - 1

/-- x held to the limits of a width and signedness, and did that change it (R312). -/
def clampTo (w : Nat) (signed : Bool) (x : Int) : Int × Bool :=
  if x < intLo w signed then (intLo w signed, true)
  else if intHi w signed < x then (intHi w signed, true)
  else (x, false)

/-- floor(log2 m) of a nonzero number; 0 for 0. -/
def ilog2 (m : Nat) : Nat := Nat.log2 m

/-- The number of bits set among the low n bits. -/
def popBits (n x : Nat) : Nat := ((List.range n).filter (fun i => x.testBit i)).length

/-- The low n bits in reverse order. -/
def revBits (n x : Nat) : Nat :=
  (List.range n).foldl (fun acc k => if x.testBit k then acc + 2 ^ (n - 1 - k) else acc) 0

/-- The flags of ES (R69), as bits of the register. -/
def esNX : BitVec 32 := 1
def esUF : BitVec 32 := 2
def esOF : BitVec 32 := 4
def esDZ : BitVec 32 := 8
def esNV : BitVec 32 := 16
def esSAT : BitVec 32 := 32
def esSCUND : BitVec 32 := 64

/-- A flag when a condition holds. -/
def flagIf (c : Bool) (f : BitVec 32) : BitVec 32 := if c then f else 0

/-- Is a list of sources' lane counts one that R86 allows: all equal but for those that hold one unit; the common count. -/
def lengthRule (unit : Nat) (ns : List Nat) : Option Nat :=
  let big := ns.filter (fun n => unit < n)
  match big with
  | [] => some unit
  | n :: rest => if rest.all (fun m => m == n) then some n else none

/-- A source's values over n lanes: a source of one unit applies its unit everywhere (R86, R312). -/
def spread (t : Ty) (n : Nat) (ls : List Lane) : List Nat :=
  let unit := if tyIs64 t then 2 else 1
  if ls.length == n then laneVals t ls
  else laneVals t ((List.replicate (n / unit) ls).flatten)

end Sys2Proof.Machine
end

