-- ==== Sys2Proof/Machine/Numeric.lean ====
section
/-! DEFINITION. Number formats, rounding and flags (R102 to R116), the A96 accumulator (R110), and the dot product's block
sums (R117 to R120). -/

namespace Sys2Proof.Machine

/-! Formats. -/

/-- How a format treats its special codes. -/
inductive FKind where
  /-- IEEE 754 (R102). -/
  | ieee
  /-- Signed binary8 (R104). -/
  | b8
  /-- Unsigned binary8 (R105). -/
  | b8n
  /-- An MX floating element (R108). -/
  | mx
  deriving DecidableEq, Repr

/-- The layout of a floating format: exponent bits, trailing significand bits, bias. -/
structure FFmt where
  kind : FKind
  eb : Nat
  tb : Nat
  bias : Int
  deriving DecidableEq, Repr

/-- The floating format of a type (R102, R104, R105, R108); none for integers and .mxi8. -/
def ffmt : Ty → Option FFmt
  | .f32 => some ⟨.ieee, 8, 23, 127⟩
  | .h16 => some ⟨.ieee, 5, 10, 15⟩
  | .bf16 => some ⟨.ieee, 8, 7, 127⟩
  | .b8 k => some ⟨.b8, 7 - k.val, k.val, (2 ^ (6 - k.val) : Nat)⟩
  | .b8n k => some ⟨.b8n, 8 - k.val, k.val, (2 ^ (7 - k.val) : Nat)⟩
  | .mx6e2 => some ⟨.mx, 2, 3, 1⟩
  | .mx6e3 => some ⟨.mx, 3, 2, 3⟩
  | .mx4 => some ⟨.mx, 2, 1, 1⟩
  | _ => none

/-- The fields of an encoding: sign, E, T. -/
def ffields (k : FFmt) (x : Nat) : Bool × Nat × Nat :=
  (k.kind != .b8n && x / 2 ^ (k.eb + k.tb) % 2 == 1, x / 2 ^ k.tb % 2 ^ k.eb, x % 2 ^ k.tb)

/-- Is an encoding subnormal: E = 0 and T ≠ 0. -/
def fSubnormal (k : FFmt) (x : Nat) : Bool :=
  (ffields k x).2.1 == 0 && (ffields k x).2.2 != 0

/-- The value of an encoding (R102, R104, R105, R108). -/
def fDecode (k : FFmt) (inf8 : Bool) (x : Nat) : FVal :=
  let f := ffields k x
  let value : FVal :=
    if f.2.1 == 0 then .fin f.1 f.2.2 (1 - k.bias - k.tb) else .fin f.1 (f.2.2 + 2 ^ k.tb) (f.2.1 - k.bias - k.tb)
  match k.kind with
  | .ieee =>
    if f.2.1 == 2 ^ k.eb - 1 then
      if f.2.2 == 0 then .inf f.1 else .nan (f.2.2 < 2 ^ (k.tb - 1))
    else value
  | .b8 =>
    if x == 0x80 then .nan false
    else if inf8 && x % 128 == 127 then .inf f.1
    else value
  | .b8n =>
    if x == 0xFF then .nan false
    else if inf8 && x == 0xFE then .inf false
    else value
  | .mx => value

/-- The value of an encoding of any type: an integer is its integer, .mxi8 is q × 2^−6 (R108) (log 34: DEDUCED). -/
def valDecode (t : Ty) (inf8 : Bool) (x : Nat) : FVal :=
  match ffmt t with
  | some k => fDecode k inf8 x
  | none =>
    if t == .mxi8 then .fin (sval 8 x < 0) (sval 8 x).natAbs (-6)
    else .fin (ival t x < 0) (ival t x).natAbs 0

/-- fval of R335: the value after FTZ has acted (R114), which leaves MX element types alone. -/
def fval (t : Ty) (ftz inf8 : Bool) (x : Nat) : FVal :=
  match ffmt t with
  | some k =>
    if ftz && k.kind != .mx && fSubnormal k x then .fin ((ffields k x).1 && k.kind != .b8n) 0 0
    else fDecode k inf8 x
  | none => valDecode t inf8 x

/-! Rounding. -/

/-- How one rounding is made: the mode of R112 and, for SR, the random bits and their count (R113). -/
structure RMode where
  rnd : Rnd
  rbits : Nat := 0
  rw : Nat := 0
  deriving DecidableEq, Repr, Inhabited

/-- |x| = m × 2^e as a multiple of 2^q in a mode, and was anything lost (R112, R113) (log 28: DEDUCED). -/
def roundMul (r : RMode) (neg : Bool) (m : Nat) (e q : Int) : Nat × Bool :=
  if q ≤ e then (m * 2 ^ (e - q).toNat, false)
  else
    let far := m != 0 && decide ((ilog2 m : Int) + 40 < q - e)
    -- a value more than 40 places below the last kept one rounds as the least such value does
    let sh := if far then 40 else (q - e).toNat
    let mm := if far then 1 else m
    let lo := mm / 2 ^ sh
    let rem := mm % 2 ^ sh
    if rem == 0 then (lo, false)
    else
      let up : Bool := match r.rnd with
        | .rne => 2 ^ sh < 2 * rem || (2 * rem == 2 ^ sh && lo % 2 == 1)
        | .rtz => false
        | .rup => !neg
        | .rdn => neg
        | .rna => 2 ^ sh ≤ 2 * rem
        | .blk => false
        | .sr => 2 ^ r.rw ≤ rem * 2 ^ r.rw / 2 ^ sh + r.rbits
      (if up then lo + 1 else lo, true)

/-- The exponent of m × 2^e, m nonzero: floor(log2). -/
def expOf (m : Nat) (e : Int) : Int := (ilog2 m : Int) + e

/-- A rounding to p significant bits with no exponent below emin: the multiple, its weight, inexact, and tiny after rounding
with an unbounded exponent (R115). -/
def roundSig (r : RMode) (p : Nat) (emin : Int) (neg : Bool) (m : Nat) (e : Int) : Nat × Int × Bool × Bool :=
  let top := expOf m e
  let q := max top emin - ((p : Int) - 1)
  let a := roundMul r neg m e q
  let q' := top - ((p : Int) - 1)
  let b := roundMul r neg m e q'
  (a.1, q, a.2, a.2 && decide (expOf b.1 q' < emin))

/-- The code of the largest finite value of one sign (R102, R104, R105, R108) (log 29: DEDUCED). -/
def maxCode (k : FFmt) (inf8 neg : Bool) : Nat :=
  let s := if neg then 2 ^ (k.eb + k.tb) else 0
  match k.kind with
  | .ieee => s + (2 ^ k.eb - 1) * 2 ^ k.tb - 1
  | .b8 => s + (if inf8 then 0x7E else 0x7F)
  | .b8n => if inf8 then 0xFD else 0xFE
  | .mx => s + 2 ^ (k.eb + k.tb) - 1

/-- The code of an infinity (R102, R104, R105). -/
def infCode (k : FFmt) (neg : Bool) : Nat :=
  match k.kind with
  | .ieee => (if neg then 2 ^ (k.eb + k.tb) else 0) + (2 ^ k.eb - 1) * 2 ^ k.tb
  | .b8 => if neg then 0xFF else 0x7F
  | .b8n => 0xFE
  | .mx => 0

/-- The canonical NaN (R103, R104, R105); MX types have none and give +0 (R108). -/
def nanCode (k : FFmt) : Nat :=
  match k.kind with
  | .ieee => (2 ^ k.eb - 1) * 2 ^ k.tb + 2 ^ (k.tb - 1)
  | .b8 => 0x80
  | .b8n => 0xFF
  | .mx => 0

/-- The code of zero of a sign: binary8 has no negative zero (R104, R105). -/
def zeroCode (k : FFmt) (neg : Bool) : Nat :=
  match k.kind with
  | .ieee | .mx => if neg then 2 ^ (k.eb + k.tb) else 0
  | _ => 0

/-- The code of a nonzero value m × 2^q that the format holds (log 28: DEDUCED). -/
def packCode (k : FFmt) (neg : Bool) (m : Nat) (q : Int) : Nat :=
  let s := if neg && k.kind != .b8n then 2 ^ (k.eb + k.tb) else 0
  let qmin := 1 - k.bias - k.tb
  -- bring the value to a multiple of the least weight, or to a significand of tb + 1 bits
  if expOf m q < 1 - k.bias then s + m * 2 ^ (q - qmin).toNat
  else
    let top := expOf m q
    let sh := top - k.tb
    let sig := if sh ≤ q then m * 2 ^ (q - sh).toNat else m / 2 ^ (sh - q).toNat
    s + (top + k.bias).toNat * 2 ^ k.tb + (sig - 2 ^ k.tb)

/-- Is m × 2^q above the value of a code. -/
def aboveCode (k : FFmt) (inf8 : Bool) (m : Nat) (q : Int) : Bool :=
  match fDecode k inf8 (maxCode k inf8 false) with
  | .fin _ mm mq =>
    let d := expOf m q - expOf mm mq
    if d == 0 then decide (mm * 2 ^ (mq - q).toNat < m * 2 ^ (q - mq).toNat) else decide (0 < d)
  | _ => false

/-- round_T of R335 into a floating format: the code and the flags (R103, R105, R106, R108, R114, R115)
(log 28: DEDUCED; log 29: DEDUCED; log 34: DEDUCED; log 137: DEDUCED). -/
def roundFmt (k : FFmt) (r : RMode) (ftz inf8 : Bool) (v : FVal) : Nat × BitVec 32 :=
  match v with
  | .nan sig => (nanCode k, flagIf (sig || k.kind == .mx) esNV)
  | .inf neg =>
    match k.kind with
    | .ieee => (infCode k neg, 0)
    | .mx => (maxCode k inf8 neg, esOF)
    | .b8 => if inf8 then (infCode k neg, 0) else (maxCode k inf8 neg, esNV)
    | .b8n =>
      if neg then (0xFF, esNV)
      else if inf8 then (infCode k neg, 0) else (maxCode k inf8 neg, esNV)
  | .fin neg m e =>
    if m == 0 then (zeroCode k neg, 0)
    else
      let emin := 1 - k.bias
      let a := roundSig r (k.tb + 1) emin neg m e
      let mm := a.1
      let q := a.2.1
      if k.kind != .mx && ftz && mm != 0 && decide (expOf mm q < emin) then (zeroCode k neg, esUF ||| esNX)
      else if k.kind == .b8n && neg then
        if mm == 0 then (0, esNX ||| flagIf a.2.2.2 esUF) else (0xFF, esNV)
      else if mm == 0 then (zeroCode k neg, esNX ||| flagIf a.2.2.2 esUF)
      else if aboveCode k inf8 mm q then
        let away : Bool := match r.rnd with
          | .rne | .rna | .sr => true
          | .rup => !neg
          | .rdn => neg
          | _ => false
        let hasInf := k.kind == .ieee || (k.kind == .b8 && inf8) || (k.kind == .b8n && inf8)
        (if away && hasInf then infCode k neg else maxCode k inf8 neg, esOF ||| esNX)
      else (packCode k neg mm q, flagIf a.2.2.1 esNX ||| flagIf a.2.2.2 esUF)

/-- A value rounded to .mxi8: a multiple of 2^−6 from −128 to 127 (R108) (log 34: DEDUCED). -/
def roundMxi8 (r : RMode) (v : FVal) : Nat × BitVec 32 :=
  match v with
  | .nan _ => (0, esNV)
  | .inf neg => (if neg then 0x80 else 0x7F, esOF)
  | .fin neg m e =>
    let a := roundMul r neg m e (-6)
    let x : Int := if neg then -(a.1 : Int) else (a.1 : Int)
    let c := clampTo 8 true x
    (wrapTo 8 c.1, flagIf a.2 esNX ||| flagIf c.2 (esOF ||| esNX))

/-- A value rounded to an integer of a width and signedness (R116). -/
def roundInt (w : Nat) (signed : Bool) (r : RMode) (v : FVal) : Nat × BitVec 32 :=
  match v with
  | .nan _ => (0, esNV)
  | .inf neg => (wrapTo w (if neg then intLo w signed else intHi w signed), esNV)
  | .fin neg m e =>
    let a := roundMul r neg m e 0
    let x : Int := if neg then -(a.1 : Int) else (a.1 : Int)
    let c := clampTo w signed x
    (wrapTo w c.1, if c.2 then esNV else flagIf a.2 esNX)

/-- round_T into any type. -/
def roundTy (t : Ty) (r : RMode) (ftz inf8 : Bool) (v : FVal) : Nat × BitVec 32 :=
  match ffmt t with
  | some k => roundFmt k r ftz inf8 v
  | none => if t == .mxi8 then roundMxi8 r v else roundInt (tyWidth t) (tyIsSigned t) r v

/-! Exact arithmetic. -/

/-- A signed multiple of a power of two; an exact zero takes the sign given. -/
def ofInt (x : Int) (e : Int) (zneg : Bool) : FVal :=
  if x == 0 then .fin zneg 0 0 else .fin (decide (x < 0)) x.natAbs e

/-- The integer that a finite value is at a weight not above its own. -/
def atWeight (neg : Bool) (m : Nat) (e q : Int) : Int :=
  let x : Int := ((m * 2 ^ (e - q).toNat : Nat) : Int)
  if neg then -x else x

/-- Is a value NaN, and is it signalling. -/
def isNan : FVal → Bool
  | .nan _ => true
  | _ => false
def isSnan : FVal → Bool
  | .nan s => s
  | _ => false

/-- x + y exactly, with the invalid case ∞ − ∞ (R103). An exact zero sum is +0, or −0 in RDN; the sum of two zeros of one
sign keeps it. The flag says NV. -/
def fAdd (rdn : Bool) (x y : FVal) : FVal × Bool :=
  match x, y with
  | .nan a, .nan b => (.nan false, a || b)
  | .nan a, _ => (.nan false, a)
  | _, .nan b => (.nan false, b)
  | .inf a, .inf b => if a == b then (.inf a, false) else (.nan false, true)
  | .inf a, _ => (.inf a, false)
  | _, .inf b => (.inf b, false)
  | .fin a m e, .fin b n f =>
    if m == 0 && n == 0 then (.fin (if a == b then a else rdn) 0 0, false)
    else
      let q := min e f
      (ofInt (atWeight a m e q + atWeight b n f q) q rdn, false)

/-- x × y exactly, with the invalid case 0 × ∞ (R103). -/
def fMul (x y : FVal) : FVal × Bool :=
  match x, y with
  | .nan a, .nan b => (.nan false, a || b)
  | .nan a, _ => (.nan false, a)
  | _, .nan b => (.nan false, b)
  | .inf a, .inf b => (.inf (a != b), false)
  | .inf a, .fin b n _ => if n == 0 then (.nan false, true) else (.inf (a != b), false)
  | .fin a m _, .inf b => if m == 0 then (.nan false, true) else (.inf (a != b), false)
  | .fin a m e, .fin b n f => (.fin (a != b) (m * n) (e + f), false)

/-- −x. -/
def fNegate : FVal → FVal
  | .nan s => .nan s
  | .inf n => .inf (!n)
  | .fin n m e => .fin (!n) m e

/-- |x|. -/
def fAbsolute : FVal → FVal
  | .nan s => .nan s
  | .inf _ => .inf false
  | .fin _ m e => .fin false m e

/-- x × 2^n. -/
def fScale (x : FVal) (n : Int) : FVal :=
  match x with
  | .fin s m e => .fin s m (e + n)
  | v => v

/-- The order of two values that are no NaN, as an integer comparison: −1, 0 or 1. −0 equals +0. -/
def fOrder (x y : FVal) : Int :=
  match x, y with
  | .inf a, .inf b => if a == b then 0 else if a then -1 else 1
  | .inf a, _ => if a then -1 else 1
  | _, .inf b => if b then 1 else -1
  | .fin a m e, .fin b n f =>
    let q := min e f
    let d := atWeight a m e q - atWeight b n f q
    if d < 0 then -1 else if d == 0 then 0 else 1
  | _, _ => 0

/-- Is x below y when −0 is ordered below +0 (R340). -/
def fBelow (x y : FVal) : Bool :=
  let o := fOrder x y
  if o == 0 then
    match x, y with
    | .fin a 0 _, .fin b 0 _ => a && !b
    | _, _ => false
  else decide (o < 0)

/-! A96 (R110, R111). -/

/-- The value of an accumulator read as A96 (R110) (log 18: DESIGN CHOICE; log 25: DEDUCED). -/
def a96Val (x : Acc) : FVal :=
  let neg := x.getLsbD 95
  let e := (x.extractLsb' 80 15).toNat
  let j := x.getLsbD 79
  let m := (x.extractLsb' 0 80).toNat
  if e == 0x7FFF then
    if j && m == 2 ^ 79 then .inf neg else .nan false
  else if e == 0 then
    if j then Config.a96Open x else .fin neg m (-16382 - 79)
  else .fin neg m ((e : Int) - 16383 - 79)

/-- A value rounded to A96 under RNE (R110): the accumulator, and was it inexact or an overflow. -/
def a96Round (v : FVal) : Acc × BitVec 32 :=
  match v with
  | .nan sig => (0x7FFFC0000000000000000000#96, flagIf sig esNV)
  | .inf neg => (BitVec.ofNat 96 ((if neg then 2 ^ 95 else 0) + 0x7FFF * 2 ^ 80 + 2 ^ 79), 0)
  | .fin neg m e =>
    let s := if neg then 2 ^ 95 else 0
    if m == 0 then (BitVec.ofNat 96 s, 0)
    else
      let a := roundSig { rnd := .rne } 80 (-16382) neg m e
      let mm := a.1
      let q := a.2.1
      let fl := flagIf a.2.2.1 esNX ||| flagIf a.2.2.2 esUF
      if mm == 0 then (BitVec.ofNat 96 s, fl)
      else if expOf mm q < -16382 then (BitVec.ofNat 96 (s + mm), fl)
      else
        let top := expOf mm q
        let sig := if mm == 2 ^ 80 then 2 ^ 79 else mm
        if 16383 < top then (BitVec.ofNat 96 (s + 0x7FFF * 2 ^ 80 + 2 ^ 79), esOF ||| esNX)
        else (BitVec.ofNat 96 (s + (top + 16383).toNat * 2 ^ 80 + sig), fl)

/-- An accumulator read as an integer (R111). -/
def accInt (x : Acc) : Int := x.toInt

/-- An integer written to an accumulator, saturated at −2^95 and 2^95 − 1 (R111). -/
def intAcc (x : Int) : Acc × BitVec 32 :=
  let c := clampTo 96 true x
  (BitVec.ofInt 96 c.1, flagIf c.2 esSAT)

/-! Dot products (R117 to R120). -/

/-- The size of a K-block: 4 when either operand type is .f32, else 32 (R117). -/
def kBlock (ta tb : Ty) : Nat := if ta == .f32 || tb == .f32 then 4 else 32

/-- A list cut into blocks of n, the last one short. -/
def blocksOf {α : Type} (n : Nat) : Nat → List α → List (List α)
  | 0, _ => []
  | _, [] => []
  | fuel + 1, l => l.take n :: blocksOf n fuel (l.drop n)

/-- The sum of one K-block of products in the 160-bit window (R118): the value, the sticky bit, and NV (log 26: DEDUCED). -/
def blockSum (ps : List (FVal × FVal)) : FVal × Bool × Bool :=
  let prods := ps.map (fun p => fMul p.1 p.2)
  let vals := prods.map (·.1)
  let posInf := vals.any (fun v => v == .inf false)
  let negInf := vals.any (fun v => v == .inf true)
  if vals.any isNan || (posInf && negInf) then
    (.nan false, false, prods.any (·.2) || (posInf && negInf))
  else if posInf then (.inf false, false, false)
  else if negInf then (.inf true, false, false)
  else
    let nz : List (Bool × Nat × Int) := vals.filterMap (fun v => match v with
      | .fin s m e => if m == 0 then none else some (s, m, e)
      | _ => none)
    match nz with
    | [] => (.fin (vals.all (fun v => match v with | .fin s _ _ => s | _ => false) && !vals.isEmpty) 0 0, false, false)
    | (_, m, e) :: rest =>
      let emax := rest.foldl (fun acc x => max acc (expOf x.2.1 x.2.2)) (expOf m e)
      let lsb := emax - 153
      let terms := nz.map (fun x =>
        if lsb ≤ x.2.2 then (atWeight x.1 x.2.1 x.2.2 lsb, false)
        else
          let d := (lsb - x.2.2).toNat
          let sm : Int := if x.1 then -(x.2.1 : Int) else (x.2.1 : Int)
          (sm.fdiv (2 ^ d : Nat), x.2.1 % 2 ^ d != 0))
      let w := terms.foldl (fun acc x => acc + x.1) 0
      let st := terms.any (·.2)
      (ofInt (2 * w + (if st then 1 else 0)) (lsb - 1) false, st, false)

/-- A + one K-block, the block sum scaled by a power of two, rounded once to A96 (R118, R120). `nanScale` is a scale code of
0xFF, which makes the block NaN (log 26: DEDUCED). -/
def accumBlock (acc : Acc) (ps : List (FVal × FVal)) (scale : Int) (nanScale : Bool) : Acc × BitVec 32 :=
  let b := blockSum ps
  let blk := if nanScale then FVal.nan false else fScale b.1 scale
  let s := fAdd false (a96Val acc) blk
  let r := a96Round s.1
  (r.1, r.2 ||| flagIf (b.2.2 || nanScale || s.2) esNV ||| flagIf b.2.1 esNX)

/-- The integer form: each K-block summed exactly and added under saturation (R119, R111). -/
def accumBlockInt (acc : Acc) (ps : List (Int × Int)) : Acc × BitVec 32 :=
  intAcc (accInt acc + ps.foldl (fun t p => t + p.1 * p.2) 0)

end Sys2Proof.Machine
end

