-- ==== Sys2Proof/Machine/Operands.lean ====
section
/-! DEFINITION. What a firing reads and what it gives back: source operands under an instruction's type (R74, R84 to R87),
control operands (R313), result headers (R85). -/

namespace Sys2Proof.Machine

/-- The image of a LUT island (R193): for each cell its truth table and four selects, and 64 output selects. -/
structure LutImage where
  cells : List (BitVec 16 × List Nat) := []
  outs : List Nat := []
  deriving DecidableEq, Repr, Inhabited

/-- What a firing sees of its element, its slot and its block. -/
structure Env where
  a : Operand
  b : Operand
  p : Option Packet := none
  ftz : Bool := false
  inf8 : Bool := false
  rnd : Rnd := .rne
  fcw : BitVec 32 := 0
  node : Bool := false
  accs : PMap Acc := []
  k : PMap Lane := []
  d : PMap (Option Packet) := []
  ctr : BitVec 16 := 0
  ptr : Nat := 0
  lut : Option LutImage := none
  deriving DecidableEq, Repr, Inhabited

/-- What a firing that completes in its element gives back. `out` goes through DT and, unless `second` stands for it, through
TT; `second` goes through TT; `via` sends `out` through one T entry; `queue` holds the packets that PKMRG enqueues. -/
structure Act where
  out : Option Packet := none
  second : Option Packet := none
  via : Option Nat := none
  queue : List Packet := []
  flags : BitVec 32 := 0
  acc : List (Nat × Acc) := []
  dreg : Option (Nat × Packet) := none
  ctr : Option (BitVec 16) := none
  ptr : Option Nat := none
  stMask : BitVec 6 := 0
  stVal : BitVec 6 := 0
  deriving DecidableEq, Repr, Inhabited

/-! Types of sources. -/

/-- FPX of the first packet source, for the short form (R284). -/
def shortFpx (a b : Operand) : BitVec 3 :=
  match a, b with
  | .pkt p, _ => p.fpx
  | _, .pkt p => p.fpx
  | _, _ => 0

/-- The type that an instruction of type .any takes from source A (R71, R87). -/
def anyTy : Operand → Option Ty
  | .const _ | .clear => some .n32
  | .pkt p => tyOfFmt p.fmt p.fpx

/-- The source type of an instruction; none where no legal type results. -/
def srcTy (f : Fn) (a b : Operand) : Option Ty :=
  match f with
  | .tr t _ | .ty t _ => if t == .any then anyTy a else some t
  | .sh _ m => tyOfFmt m (shortFpx a b)
  | .im _ => some .n32

/-- The packet that an operand is under a source type (R71, R74, R312): a 64-bit constant is its one value, extended; a clear
register is one zero lane of any type (log 23: DEDUCED). -/
def srcPk (t : Ty) : Operand → Packet
  | .pkt p => p
  | .const v =>
    { fmt := tyFmt t, fpx := tyFpx t,
      lanes := if tyIs64 t then [v, if tyIsSigned t && v.msb then BitVec.allOnes 32 else 0] else [v] }
  | .clear => { fmt := tyFmt t, fpx := tyFpx t, lanes := [0] }

/-- The packet of an operand as it stands, not as a value of a value-wise instruction: a constant is one lane (R74) (log 135: DEDUCED). -/
def litPk (t : Ty) : Operand → Packet
  | .pkt p => p
  | .const v => { fmt := tyFmt t, fpx := tyFpx t, lanes := [v] }
  | .clear => { fmt := tyFmt t, fpx := tyFpx t, lanes := [0] }

/-- The type in which an instruction reads an operand: a clear register under type .any is .n32 (R71). -/
def readTy (f : Fn) (t : Ty) : Operand → Ty
  | .clear => match f with
    | .tr .any _ | .ty .any _ => .n32
    | _ => t
  | _ => t

/-- The packet of an operand of an instruction of a source type. -/
def srcFor (f : Fn) (t : Ty) (o : Operand) : Packet := srcPk (readTy f t o) o

/-- The packet of an operand of an instruction with no type (R71, R74). -/
def rawPk (o : Operand) : Packet := srcPk .n32 o

/-- The lengths a packet's own format allows: even for 64-bit values, 3 or 6 for .mx6 (R84, R109). -/
def ownLenOk (p : Packet) : Bool :=
  if p.fmt == 6 || p.fmt == 7 then p.lanes.length % 2 == 0
  else if p.fmt == 13 then p.lanes.length == 3 || p.lanes.length == 6
  else true

/-- Has a packet the FMT and FPX of a type (R87). -/
def hasTy (t : Ty) (p : Packet) : Bool := p.fmt == tyFmt t && p.fpx == tyFpx t

/-- Where the checks of one source stand in the order of R87: lengths, formats, scale tags, and then what an entry lists. -/
def checkRank : FCode → Nat
  | .pkLen => 0
  | .fmt => 1
  | .scaleTag => 2
  | _ => 3

/-- The checks of two groups of sources made together: the fault that comes first in the order of R87. -/
def both {α β : Type} (x : Except FCode α) (y : Except FCode β) : Except FCode (α × β) :=
  match x, y with
  | .ok a, .ok b => .ok (a, b)
  | .error c, .ok _ => .error c
  | .ok _, .error d => .error d
  | .error c, .error d => .error (if checkRank c ≤ checkRank d then c else d)

/-- The checks of R86 and R87 on the sources of a typed instruction, in their order, and then the sources' values: the type,
the number of lanes, and the values of each source over those lanes. `ok` holds what else the entry asks of the type. -/
def gatherIf (ok : Ty → Bool) (set : TySet) (f : Fn) (e : Env) (srcs : List Operand) :
    Except FCode (Ty × Nat × List (List Nat)) :=
  let ty := srcTy f e.a e.b
  let t := ty.getD .n32
  let pks := srcs.map (srcFor f t)
  let unit := if tyIs64 t then 2 else 1
  if !(pks.all ownLenOk) then .error .pkLen
  else match lengthRule unit (pks.map (fun p => p.lanes.length)) with
    | none => .error .pkLen
    | some n =>
      if ty.isNone || t == .any || !tySetHas set t || !(pks.all (hasTy t)) || !(ok t) then .error .fmt
      else if pks.any (fun p => p.sc) then .error .scaleTag
      else .ok (t, n, pks.map (fun p => spread t n p.lanes))

/-- The checks and values of the sources of an instruction whose entry asks nothing more of the type (log 23: DEDUCED; log 24: DEDUCED). -/
def gather (set : TySet) (f : Fn) (e : Env) (srcs : List Operand) : Except FCode (Ty × Nat × List (List Nat)) :=
  gatherIf (fun _ => true) set f e srcs

/-- The third source as an operand: the packet of field P, or a clear packet where the field is empty. -/
def thirdOp (e : Env) : Operand :=
  match e.p with
  | some p => .pkt p
  | none => .const 0

/-- A control operand (R313): a length-1 .n32 packet with SC = 0 and no bit set outside the mask its layout gives. Selectors
11 to 15 supply a length-1 packet of the instruction's source type (R74), so a type other than .n32 meets F_FMT there
(log 23: DEDUCED; log 35: DEDUCED; log 135: DEDUCED; log 136: DEDUCED). -/
def controlAs (t : Ty) (mask : Nat) (o : Operand) : Except FCode Nat :=
  let p := litPk t o
  if p.lanes.length != 1 then .error .pkLen
  else if !hasTy .n32 p then .error .fmt
  else if p.sc then .error .scaleTag
  else
    let v := (p.lanes.headD 0).toNat
    if v &&& mask != v then .error .bounds else .ok v

/-- A control operand of an instruction that names no source type. -/
def control (mask : Nat) (o : Operand) : Except FCode Nat := controlAs .n32 mask o

/-- A packet of an exact length and type with SC = 0, checked in the order of R87; its lanes. -/
def fixedPk (n : Nat) (t : Ty) (o : Operand) : Except FCode (List Lane) :=
  let p := rawPk o
  if p.lanes.length != n || !ownLenOk p then .error .pkLen
  else if !hasTy t p then .error .fmt
  else if p.sc then .error .scaleTag
  else .ok p.lanes

/-- A virtual address operand: an .n64 packet of two lanes (R321, R354, R400). -/
def addrPk (o : Operand) : Except FCode Nat := do
  let ls ← fixedPk 2 .n64 o
  pure (lanesNat ls)

/-- A packet of the request operands: .n32 of n lanes with SC = 0, as numbers. -/
def lanesPk (n : Nat) (o : Operand) : Except FCode (List Nat) := do
  let ls ← fixedPk n .n32 o
  pure (ls.map BitVec.toNat)

/-! Results. -/

/-- The header a result copies from source A (R85): SC, SCE, EOF, SEQ, KIND and the TAG it keeps until it is sent; zero where
A is a constant. -/
def hdrOf (o : Operand) : Packet :=
  match o with
  | .pkt p => { p with cov := [] }
  | .const _ | .clear => {}

/-- The packet of source A with its own header, for results that keep it. -/
def keepPk (o : Operand) : Packet := { rawPk o with cov := [] }

/-- The packet of a source that an instruction reads without a type check: its own length rule still holds (R84, R109). -/
def readPk (o : Operand) : Except FCode Packet :=
  let p := keepPk o
  if ownLenOk p then .ok p else .error .pkLen

/-- A packet source of any type that must be unscaled (R87). -/
def plainPk (o : Operand) : Except FCode Packet := do
  let p ← readPk o
  if p.sc then .error .scaleTag else pure p

/-- A result packet of a type with given lanes, its header from source A (R85). -/
def resPk (o : Operand) (t : Ty) (ls : List Lane) : Packet :=
  { hdrOf o with fmt := tyFmt t, fpx := tyFpx t, lanes := ls }

/-- A result of one .n32 lane (R85). -/
def word32 (o : Operand) (v : Nat) : Packet := resPk o .n32 [BitVec.ofNat 32 v]

/-- A result of .n32 lanes (R85). -/
def words32 (o : Operand) (vs : List Nat) : Packet := resPk o .n32 (vs.map (BitVec.ofNat 32))

/-- Values packed over n lanes of a type. -/
def packLanes (t : Ty) (n : Nat) (vs : List Nat) : List Lane := natLanes n (valsBits (tyWidth t) vs)

/-- A value-wise result: the values and flags of one function at each place. -/
def eachVal (g : List Nat → Nat × BitVec 32) (cols : List (List Nat)) : List Nat × BitVec 32 :=
  let n := (cols.headD []).length
  let rs := (List.range n).map (fun i => g (cols.map (fun c => c.getD i 0)))
  (rs.map (·.1), rs.foldl (fun fl r => fl ||| r.2) 0)

/-- The value-wise instruction (R312): sources checked and spread, one function at each value, the result in the source type. -/
def valuewiseIf (ok : Ty → Bool) (set : TySet) (f : Fn) (e : Env) (srcs : List Operand)
    (g : Ty → List Nat → Nat × BitVec 32) : Except FCode Act := do
  let (t, n, cols) ← gatherIf ok set f e srcs
  let r := eachVal (g t) cols
  pure { out := some (resPk e.a t (packLanes t n r.1)), flags := r.2 }

def valuewise (set : TySet) (f : Fn) (e : Env) (srcs : List Operand) (g : Ty → List Nat → Nat × BitVec 32) :
    Except FCode Act :=
  valuewiseIf (fun _ => true) set f e srcs g

/-- The sub-code of the TY form; 0 in the short form (R284). -/
def fnSub : Fn → Nat
  | .ty _ s => s.toNat
  | _ => 0

/-- The rounding of the TR form, BLK in the short form (R284), with BLK taken as the block default (R112). -/
def fnRnd (e : Env) : Fn → Rnd
  | .tr _ .blk => e.rnd
  | .tr _ r => r
  | _ => e.rnd

/-- The type of FN. -/
def fnTy : Fn → Ty
  | .tr t _ => t
  | .ty t _ => t
  | _ => .n32

/-! The FCW (R97 to R100). -/

/-- EMODE of an FCW: 0 integer, 1 float, 2 block-scaled. -/
def fcwMode (w : BitVec 32) : Nat := (w.extractLsb' 26 2).toNat
/-- The width of operand A, and of B, in bits. -/
def fcwA (w : BitVec 32) : Nat := 2 * ((w.extractLsb' 7 4).toNat + 1)
def fcwB (w : BitVec 32) : Nat := 2 * ((w.extractLsb' 3 4).toNat + 1)

/-- The multiplier width a type needs (R99). -/
def mulWidth : Ty → Nat
  | .f32 => 24 | .h16 => 12 | .bf16 => 8
  | .b8 k => if k.val ≤ 1 then 2 else if k.val ≤ 3 then 4 else if k.val ≤ 5 then 6 else 8
  | .b8n k => if k.val ≤ 1 then 2 else if k.val ≤ 3 then 4 else if k.val ≤ 5 then 6 else 8
  | .mx6e2 | .mx6e3 => 4 | .mx4 => 2 | .mxi8 => 8
  | .n8 | .s8 => 8 | .n16 | .s16 => 16 | _ => 32

/-- Does an FCW serve a multiplying instruction of one type (R100). `scaled` marks DOT, which may run block-scaled
(log 30: DEDUCED; log 39: DEDUCED). -/
def fcwServes (w : BitVec 32) (t : Ty) (dot : Bool) : Bool :=
  w != 0 && mulWidth t ≤ fcwA w && mulWidth t ≤ fcwB w
  && (if tyIsInt t then fcwMode w == 0 && w.getLsbD 21 == tyIsSigned t && w.getLsbD 22 == tyIsSigned t
      else if tyIsMx t then dot && fcwMode w == 2
      else fcwMode w == 1 || (dot && fcwMode w == 2))

/-- Is the instruction declared .any, so that the FCW check is made at the firing (R100)? A short form of binary8 names no
precision, which the packet's FPX gives at the firing (log 31: DEDUCED; log 39: DEDUCED). -/
def declaredAny : Fn → Bool
  | .tr t _ => t == .any
  | .ty t _ => t == .any
  | .sh _ m => m == 11 || m == 12
  | .im _ => false

/-- Does the FCW serve the type that a multiplying firing has (R100)? Tested at the firing under .any only, with the formats. -/
def mulOk (f : Fn) (e : Env) (dot : Bool) (t : Ty) : Bool := !(declaredAny f) || fcwServes e.fcw t dot

end Sys2Proof.Machine
end

