-- ==== Sys2Proof/Machine/Parts.lean ====
section
/-! DEFINITION. The parts of the state: elements, slots, channels, bindings, frames, regions, requests on their way, and fault
records. Every table is sparse (Word.lean): an unlisted key holds the default, which is the reset value. -/

namespace Sys2Proof.Machine

/-! Elements. -/

/-- A packet held in an operand field or an input channel, with the target entry whose credit it holds (R76): the element and
the entry; none for an initial or iteration token, a channel, or a token of an engine. `rk` and `frm` name the frame whose
block the token belongs to (R53) (log 40: DEDUCED). -/
structure Held where
  pkt : Packet := {}
  src : Option (Nat × Nat) := none
  rk : Nat := 0
  frm : Nat := 0
  deriving DecidableEq, Repr, Inhabited

/-- A slot position S0 to S31 of an element (R67): its word, the frame that holds it, and its fields. `frm` is the frame's
number plus one, 0 for none. -/
structure SlotSt where
  word : Dword := 0
  frm : Nat := 0
  l : Option Held := none
  r : Option Held := none
  p : Option Held := none
  /-- The awaited fields (R73): bit 0 L, bit 1 R, bit 2 P. -/
  aw : BitVec 3 := 0
  /-- Ready for 256 cycles without being selected (R92). -/
  aged : Bool := false
  /-- The counter E of MRG, SPLT and SEQT (R360, R392, R393). -/
  ctr : BitVec 16 := 0
  /-- The channel or entry pointer of MRG and SPLT (R360, R393). -/
  ptr : Nat := 0
  deriving DecidableEq, Repr, Inhabited

/-- An input channel IN0 to IN3: its packets, its feeder mark (R82), the frame whose slot reads it, plus one (R70). -/
structure InCh where
  q : List Held := []
  mark : Bool := false
  frm : Nat := 0
  deriving DecidableEq, Repr, Inhabited

/-- An output channel OUT0 to OUT3: its packets with the slot that produced each (R58), the space reserved by firings whose
results have not returned (R314), the bound T entry plus one (R81) and the frame that binds it plus one (R70). Packets enter in the
order of firing (R90): `tix` names the places kept, oldest first, `early` the packets that came before their turn, by place, `no` the
next place's number. -/
structure OutCh where
  q : List (Packet × Nat) := []
  rsv : Nat := 0
  tix : List Nat := []
  early : List (Nat × Packet × Nat) := []
  no : Nat := 0
  bound : Nat := 0
  frm : Nat := 0
  deriving DecidableEq, Repr, Inhabited

/-- Does an element run, or hold still after a fault or a TRAP (R95, R244). A trap carries the number of its fault message until
its record has a SEQ. -/
inductive Hold where
  | run
  | fault
  | trap (id : Nat) (seq : Option Nat)
  deriving DecidableEq, Repr, Inhabited

/-- A fence that holds later accesses of its element (R167, R168): the tier, the requests that must be complete, and the writes
that must be performed at the tier (log 49: DEDUCED). -/
structure Fence where
  tier : Nat := 0
  reqs : List Nat := []
  writes : List Nat := []
  deriving DecidableEq, Repr, Inhabited

/-- A firing that was selected and has not passed stage F: a memory access that holds there behind a fence (R89, R345), or one that an
older write of ST will squash (R91): its slot, the ST and the data registers as it found them, where its result goes, the packets it has
taken from channels and fields, and the bits of ST that its squash gives back. -/
structure Parked where
  slot : Nat := 0
  st : BitVec 6 := 0
  ns : BitVec 6 := 0
  d : PMap (Option Packet) := []
  dt : BitVec 4 := 0
  tt : BitVec 4 := 0
  ord : Nat := 0
  chans : List (Nat × Held) := []
  l : Option Held := none
  r : Option Held := none
  p : Option Held := none
  deriving DecidableEq, Repr, Inhabited

/-- An element (R67). -/
structure Elem where
  st : BitVec 6 := 0
  es : BitVec 32 := 0
  fcw : BitVec 32 := 0
  /-- The frames whose footprint names the element (R70). -/
  users : List Nat := []
  d : PMap (Option Packet) := []
  k : PMap Lane := []
  t : PMap Lane := []
  /-- The frame, plus one, that holds each K and T (R70). -/
  kOwn : PMap Nat := []
  tOwn : PMap Nat := []
  /-- T entries whose credit is spent (R76). -/
  spent : List Nat := []
  acc : PMap Acc := []
  slots : PMap SlotSt := []
  ins : PMap InCh := []
  outs : PMap OutCh := []
  lastSel : Nat := 0
  hold : Hold := .run
  /-- Cycles in which a producer was refused at a full input channel (R60). -/
  refusals : Nat := 0
  fences : List Fence := []
  /-- Accesses held at stage F, oldest first (R345). -/
  parked : List Parked := []
  /-- Firings that the write of ST on its way will squash, in the order of their selection (R91). -/
  ghosts : List Parked := []
  /-- The slot whose firing stalls at stage F for a data register that awaits a response, with the ST that it found (R90, R314). -/
  stalled : Option (Nat × BitVec 6) := none
  /-- Bits of ST that an STSET or STXOR has changed and the trigger stage still sees as they were (R91). -/
  late : BitVec 6 := 0
  /-- The writes that the element's next release covers (R158), by request number. -/
  cov : List Nat := []
  /-- Those that its last FNC covered, which the writes after it release, and those that what it has read since has released, which
  its next FNC acquires (R158, R169). -/
  fenced : List Nat := []
  seen : List Nat := []
  deriving DecidableEq, Repr, Inhabited

/-! Requests. -/

/-- What a firing left behind for its response (R314): the element, slot, frame, destinations, its place in the output channel, and
the header the result copies. -/
structure Ret where
  e : Nat := 0
  slot : Nat := 0
  rk : Nat := 0
  frm : Nat := 0
  dt : BitVec 4 := 0
  tt : BitVec 4 := 0
  ord : Nat := 0
  hdr : Packet := {}
  deriving DecidableEq, Repr, Inhabited

/-! Bindings and descriptors. -/

/-- The state of a sub-buffer (R132). -/
inductive BufSt where
  | empty | filling | full | draining
  deriving DecidableEq, Repr, Inhabited

/-- The code of a sub-buffer's state (R328). -/
def BufSt.code : BufSt → Nat
  | .empty => 0 | .filling => 1 | .full => 2 | .draining => 3

/-- A sub-buffer: its state and its fill mark (R132). While it fills, `mark` is the end of the highest word written. -/
structure SubBuf where
  st : BufSt := .empty
  mark : Nat := 0
  deriving DecidableEq, Repr, Inhabited

/-- The ring of a stream or random binding: sub-buffers, pointers and cursors (R132). -/
structure Ring where
  subs : PMap SubBuf := []
  prod : Nat := 0
  cons : Nat := 0
  pcur : Nat := 0
  ccur : Nat := 0
  deriving DecidableEq, Repr, Inhabited

/-- The shape of a binding (R129). Modes: 0 stream, 1 random, 2 versioned. -/
structure Shape where
  base : Nat := 0
  size : Nat := 0
  mode : Nat := 0
  depth : Nat := 0
  fmt : BitVec 4 := 0
  fpx : BitVec 3 := 0
  deriving DecidableEq, Repr, Inhabited

/-- A binding's tag counter (R136): its number, the channel tag, words a fill, fills, and the receiver of its tokens. -/
structure TagUse where
  ctr : Nat := 0
  tag : Nat := 0
  wpf : Nat := 0
  nfill : Nat := 0
  teidx : Nat := 0
  tslot : Nat := 0
  tfld : Nat := 0
  deriving DecidableEq, Repr, Inhabited

/-- A binding B0 to B7 of a frame (R129). The ring of a tile binding is its own; that of a QB or DB binding is the
descriptor's (R130). `ahead` counts the packets its read port has fetched (R134) (log 5: DESIGN CHOICE). -/
structure Binding where
  lvl : Nat := 0
  idx : Nat := 0
  shape : Shape := {}
  tag : Option TagUse := none
  count : Nat := 0
  fills : Nat := 0
  /-- What the jobs released whose words the counter has counted since its last token (R158). -/
  cov : List Nat := []
  ring : Ring := {}
  ahead : Nat := 0
  deriving DecidableEq, Repr, Inhabited

/-- An exchange queue registered on a descriptor (R212): the order of registrations, DWE, the registering frame, the waiting
messages, the diverted records and their total. -/
structure XQueue where
  pid : Nat := 0
  lnch : Nat := 0
  rk : Nat := 0
  frm : Nat := 0
  e : Nat := 0
  slot : Nat := 0
  no : Nat := 0
  dwe : Nat := 0
  /-- Messages that wait, with their jobs. -/
  waiting : List (List Lane × Nat) := []
  /-- Diverted records: offset in the grounds ring, bytes of the message. -/
  records : List (Nat × Nat) := []
  total : Nat := 0
  /-- The XQDELs that wait for the queue to empty (R215). -/
  closing : List Ret := []
  deriving DecidableEq, Repr, Inhabited

/-- A shared-buffer descriptor (R130): free when it has no shape. -/
structure Desc where
  shape : Option Shape := none
  ring : Ring := {}
  pid : Nat := 0
  xq : Option XQueue := none
  deriving DecidableEq, Repr, Inhabited

/-! Frames and regions. -/

/-- The states of a frame (R52). -/
inductive FrameSt where
  | free | arming | armed | firing | draining | committed
  deriving DecidableEq, Repr, Inhabited

/-- The flags of a block header (R289). -/
structure BlockFlags where
  cln : Bool := false
  dtm : Bool := false
  ftz : Bool := false
  inf8 : Bool := false
  rnd : Rnd := .rne
  drip : Nat := 0
  stmask : BitVec 8 := 0
  exitc : Nat := 0
  deriving DecidableEq, Repr, Inhabited

/-- A slot and its field that a token of the header goes to: element index, slot, field 0 L, 1 R, 2 P (R291). -/
structure Target where
  eidx : Nat := 0
  slot : Nat := 0
  fld : Nat := 0
  deriving DecidableEq, Repr, Inhabited

/-- The loop nest of a frame (R56): counts and strides from loop 0, the tuple to be sent next, and whether all have been. -/
structure LoopSt where
  counts : List Nat := []
  strides : List (BitVec 32) := []
  idx : List Nat := []
  done : Bool := true
  deriving DecidableEq, Repr, Inhabited

/-- A frame FRM0 to FRM7 of a region (R52) with what its block's header gives (R289 to R293) (log 5: DESIGN CHOICE). -/
structure Frame where
  st : FrameSt := .free
  soff : Nat := 0
  len : Nat := 0
  flags : BlockFlags := {}
  foot : BitVec 64 := 0
  succ : List Int := []
  exits : Nat := 0
  code : Nat := 0
  loops : LoopSt := {}
  itgt : List Target := []
  inits : List (Target × Packet) := []
  stst : List (Nat × BitVec 6) := []
  bnds : PMap Binding := []
  /-- DATA records: 64 × RKIND + RIDX (R293). -/
  data : PMap (List Dword) := []
  lut : Option LutImage := none
  /-- The input channels, as 4 × element key + channel, whose feeder mark the arming set (R82). -/
  marks : List Nat := []
  /-- Boundary channels at each region edge that lies on a die edge (R59): 4 × region edge and direction, with a count. -/
  bounds : PMap Nat := []
  /-- Armed in a steward region (R15). -/
  priv : Bool := false
  /-- Clones of the block, by region and frame (R60). -/
  clones : List (Nat × Nat) := []
  deriving DecidableEq, Repr, Inhabited

/-- What a region's sequencer is doing (R57, R394). -/
inductive SeqSt where
  | idle
  | run
  /-- Waiting for the successor of a branching frame (R55). -/
  | branch (frm : Nat)
  /-- Holding at SQWAIT, with its waiter registered on the word of a key (R140). -/
  | await (word g : Nat)
  /-- The word of a SQWAIT reached its generation while the region was frozen; the stream passes it when the region moves again. -/
  | reached (word : Nat)
  | ended
  | stopped
  deriving DecidableEq, Repr, Inhabited

/-- A line of a prefetch buffer (R156): the guest-physical line, its 64 bytes, and the writes released with what it holds. -/
structure PLine where
  gpa : Nat := 0
  bytes : List Byte := []
  cov : List Nat := []
  deriving DecidableEq, Repr, Inhabited

/-- A TLB entry (R150): the partition, the page's virtual base and size, its guest-physical base and its rights. -/
structure TlbEnt where
  pid : Nat := 0
  va : Nat := 0
  size : Nat := 0
  gpa : Nat := 0
  rd : Bool := false
  wr : Bool := false
  am : Bool := false
  deriving DecidableEq, Repr, Inhabited

/-- A region. Frame numbers are 0 to 7; `order` holds those in use, oldest armed first (log 6: DEDUCED). -/
structure Region where
  /-- Defined in a partition: its number plus one (R222). -/
  pid : Nat := 0
  /-- The resident launch's number, 0 for none, the footprint slot (R38) and the place in the footprint. -/
  lnch : Nat := 0
  fslot : Nat := 0
  fx : Nat := 0
  fy : Nat := 0
  /-- The placement index of the item in progress (R38). -/
  item : Nat := 0
  dark : Bool := false
  fused : List (Nat × Nat) := []
  seq : SeqSt := .idle
  /-- The address of the stream (R297) and SQP's place in it, in doublewords (R51). -/
  base : Nat := 0
  sqp : Nat := 0
  /-- The offset of the block or word that led to SQP, for F_BLKALIGN (R55). -/
  fromOff : Nat := 0
  /-- An offset led to SQP, not the end of the word or image before it (R299). -/
  branched : Bool := false
  sql : PMap (BitVec 24) := []
  commits : BitVec 32 := 0
  mark : BitVec 16 := 0
  joins : PMap Nat := []
  order : List Nat := []
  frames : PMap Frame := []
  prefetch : List PLine := []
  tlb : List TlbEnt := []
  /-- Tokens admitted in the window in progress at each input port, 0 west, 1 east, 2 south, 3 north, by class (R62). -/
  drip : PMap Nat := []
  /-- Writes covered by the region's commits and joins (R54, R45). -/
  cov : List Nat := []
  stretch : Bool := false
  deriving DecidableEq, Repr, Inhabited

/-! Packets on the networks. -/

/-- Where a packet of the operand network goes: a field, an input channel, or an island port (R77, R174). -/
inductive Dest where
  | field (e slot fld : Nat)
  | chan (e ch : Nat)
  /-- Queue `n` of the copy island on an edge. -/
  | queue (die edge n : Nat)
  /-- The control port of the matrix node anchored at an element. -/
  | node (e : Nat)
  /-- Leaf `n` of a merge island. -/
  | leaf (die q n : Nat)
  deriving DecidableEq, Repr, Inhabited

/-- A packet in flight (R80): where it came from (the element, with its T entry, 8 for a node of that anchor, 9 + q for the merge
island q of that opener; none for a tag token), the producing slot and frame, where it goes (log 40: DEDUCED). -/
structure Flit where
  pkt : Packet := {}
  src : Option (Nat × Nat) := none
  slot : Nat := 0
  rk : Nat := 0
  frm : Nat := 0
  dst : Dest := .field 0 0 0
  deriving DecidableEq, Repr, Inhabited

/-! Memory requests. -/

/-- What the answer of a steward instruction waits for (R370, R402, R403, R378, R408, R325). -/
inductive Pending where
  /-- TAMP: every die reports frozen. -/
  | tamp (pid : Nat)
  /-- PTCT save and release: the last transition has happened. -/
  | save (pid : Nat)
  | release (pid : Nat)
  /-- VFEN.clr: step 7 of R233 for each VF of a mask. -/
  | disable (mask : Nat)
  /-- ATST reset: the die of an identity is ACTIVE again, QUARANTINED or DARK. -/
  | reset (k : Nat)
  /-- KROLL: the KEYSWITCH of a channel has been sent, or given up. -/
  | kroll (k n : Nat)
  /-- TLBI: the accesses translated before are applied at their homes. -/
  | tlbi (ids : List Nat)
  /-- ATST, by sub-code, of a die: the root still serves a RESET that came before it (R325). -/
  | atst (sub : Nat) (u : UnitId)
  deriving DecidableEq, Repr, Inhabited

/-- What a memory request does. -/
inductive ReqOp where
  | load (t : Ty)
  | store
  /-- A write of STB to a word of a QB or DB, at the key `word` (R155, R395). -/
  | put
  | atomic (sub : Nat) (signed : Bool) (acq rel : Bool) (b p : Nat)
  | sya (tgt scope gen : Nat)
  | syadd (amount : Nat)
  | sywch (g : Nat)
  | ldv (v : Nat)
  | stv (v : Nat)
  | rclm (v : Nat)
  /-- An access already done at a controller or an island, whose answer is on its way (R314, R353). -/
  | answer
  /-- A steward instruction whose answer waits (R370). -/
  | steward (p : Pending)
  deriving DecidableEq, Repr, Inhabited

/-- How far a request has come (R145, R155, R314). -/
inductive Phase where
  /-- At the requester, not translated. -/
  | xlat
  /-- A posted write in its region's RWB, its quad's QEQ, its die's DEQ (R155). -/
  | rwb | qeq | deq
  /-- On its way to its home. -/
  | home
  /-- At its home, waiting for the home cycle of its word. -/
  | wait
  /-- Sent to another panel over TRLS (R264). -/
  | remote
  /-- Done or failed; the response is on its way. -/
  | resp
  deriving DecidableEq, Repr, Inhabited

/-- Who makes a request, or contributes a sync-word increment (R139): a firing, a copy job by its arming frame and template with the
FIRE queue of its token (plus one), a completing launch by its home die and partition, a launch's dependence on a word of another panel
(R46), or another panel, by its stream, the number in its packet, and whether a launch's completion is what it adds (R264), or a host's
WRITE to another panel, by its queue pair, its number and the window's key (R170, R268) (log 57: DEDUCED). -/
inductive Contributor where
  | firing
  | job (die edge tslot e slot ql : Nat)
  | completion (die pid : Nat)
  | dependence (pid lnch : Nat)
  | remote (panel stream tag : Nat) (completes : Bool)
  | host (qpn op key : Nat)
  deriving DecidableEq, Repr, Inhabited

/-- A memory request (R153). -/
structure Req where
  id : Nat := 0
  op : ReqOp := .answer
  who : Contributor := .firing
  ret : Ret := {}
  va : Nat := 0
  gpa : Nat := 0
  size : Nat := 0
  /-- The key of the word of a versioned binding (R160), of a sync word, or of what STB writes in a QB or DB. -/
  word : Nat := 0
  phase : Phase := .xlat
  data : List Byte := []
  res : Option Packet := none
  flags : BitVec 32 := 0
  err : Option FCode := none
  /-- The writes that must be performed before it leaves (R165, R167) and that what it writes releases; for a read, once it has its
  value, those that the value's write released (R158). -/
  cov : List Nat := []
  deriving DecidableEq, Repr, Inhabited

/-- A request in the queue of a tile (R141, R322). -/
structure TileReq where
  id : Nat := 0
  /-- 0 GATH, 1 SCAT, 2 ATB. -/
  kind : Nat := 0
  ret : Ret := {}
  /-- For each lane its byte offset within the tile. -/
  offs : List Nat := []
  data : List Lane := []
  /-- The lanes not yet served. -/
  left : List Nat := []
  got : PMap Lane := []
  fmt : BitVec 4 := 0
  fpx : BitVec 3 := 0
  sub : Nat := 0
  signed : Bool := false
  size : Nat := 4
  b : Nat := 0
  p : Nat := 0
  /-- The binding, the sub-buffer it names, the end of the highest word it writes or reads, the fault that the tile found (R141, R323),
  and the flags of FADD. -/
  bnd : Nat := 0
  buf : Nat := 0
  stop : Nat := 0
  err : Option FCode := none
  flags : BitVec 32 := 0
  deriving DecidableEq, Repr, Inhabited

/-! Fault records (R242). -/

/-- The place fields of a record. -/
structure Place where
  gx : Nat := 0
  gy : Nat := 0
  ex : Nat := 0
  ey : Nat := 0
  slot : Nat := 0
  frm : Nat := 0
  vdn : Nat := 0
  eng : Nat := 0
  tpl : Nat := 0
  ql : Nat := 0
  qlv : Bool := false
  deriving DecidableEq, Repr, Inhabited

/-- A fault record or VF completion record (R242). -/
structure Record where
  code : Nat := 0
  vf : Nat := 0
  pid : Nat := 0
  src : Nat := 0
  evk : Bool := false
  prec : Bool := false
  vav : Bool := false
  held : Bool := false
  coal : Bool := false
  storm : Bool := false
  abnd : Bool := false
  tqf : Bool := false
  lnch : Nat := 0
  wid : Nat := 0
  place : Place := {}
  soff : Nat := 0
  cmt : Nat := 0
  va : Nat := 0
  pcmt : Nat := 0
  pjob : Nat := 0
  detail : Nat := 0
  count : Nat := 1
  seq : Nat := 0
  /-- A further fault record of a write that failed, which freezes nothing (R439): no field of the record. -/
  still : Bool := false
  /-- The launches, by partition and number, whose later faults the record stands for (R244, R245): no field of the record. -/
  also : List (Nat × Nat) := []
  deriving DecidableEq, Repr, Inhabited

/-- A record on its way to the steward of the die where the fault was raised (R244). -/
structure FaultMsg where
  id : Nat := 0
  die : Nat := 0
  record : Record := {}
  deriving DecidableEq, Repr, Inhabited

/-! Copy islands. -/

/-- An armed copy template (R175): a number that tells it from other templates of its slot, its record (R301), the card attached (R302), credits, jobs completed, and the CPDIS that waits
for its jobs. -/
structure Template where
  id : Nat := 0
  rk : Nat := 0
  frm : Nat := 0
  e : Nat := 0
  slot : Nat := 0
  pid : Nat := 0
  lnch : Nat := 0
  words : List Dword := []
  card : Option (List Dword) := none
  credits : Nat := 0
  jobs : Nat := 0
  closing : Option Ret := none
  deriving DecidableEq, Repr, Inhabited

/-- A packet that waits in a queue of a copy island, with the number of the template that its queue was bound to when it arrived
and the queue's mode then (R334). -/
structure QTok where
  f : Flit := {}
  tpl : Nat := 0
  permit : Bool := false
  deriving DecidableEq, Repr, Inhabited

/-- A queue of a copy island: its packets, the number of the template it is bound to (0 for none), its mode, and the frame that
holds it. -/
structure CQueue where
  q : List QTok := []
  tpl : Nat := 0
  permit : Bool := false
  rk : Nat := 0
  frm : Nat := 0
  deriving DecidableEq, Repr, Inhabited

/-- A copy island (R175) (log 6: DEDUCED). -/
structure Island where
  tpls : PMap (Option Template) := []
  queues : PMap CQueue := []
  deriving DecidableEq, Repr, Inhabited

/-- An engine job (R166, R177, R182): a copy job of a template, or a TMOV. `unit` counts the 4-byte or 8-byte units done;
`ready` is set when its start has been granted. -/
structure Job where
  id : Nat := 0
  die : Nat := 0
  edge : Nat := 0
  tslot : Nat := 0
  tpl : Template := {}
  origin : List Int := []
  ql : Option Nat := none
  ret : Option Ret := none
  /-- A TMOV: the source and destination bindings. -/
  tmov : Option (Nat × Nat) := none
  started : Bool := false
  unit : Nat := 0
  /-- The exchange queue its tile goes to, as a descriptor key plus one, and the message so far (R212). -/
  xq : Nat := 0
  msg : List Lane := []
  queued : Bool := false
  done : Bool := false
  /-- Has written to another panel; the GPAs and the addresses of those writes (R181); the GPAs it has asked of other panels, and the
  bytes that have come (R265). -/
  far : Bool := false
  sent : List (Nat × Nat) := []
  asked : List Nat := []
  got : List (Nat × List Byte) := []
  cov : List Nat := []
  /-- The fault of an access to another panel, with its GPA, that came while the partition was SAVED (R173, R181). -/
  late : Option (FCode × Nat) := none
  deriving DecidableEq, Repr, Inhabited

/-- A word on its way from a copy job to a tile (R136). -/
structure TagWord where
  job : Nat := 0
  rk : Nat := 0
  tile : Nat := 0
  tag : Nat := 0
  off : Nat := 0
  val : Lane := 0
  deriving DecidableEq, Repr, Inhabited

/-! Matrix nodes. -/

/-- A command in a node's queue (R191): a control token, or a drain with the firing that awaits it. -/
inductive NodeCmd where
  | tok (p : Packet)
  | drain (route mc nc abase fmt rnd : Nat) (zero : Bool) (ret : Ret)
  deriving DecidableEq, Repr, Inhabited

/-- A matrix node (R184, R362): its size, its MXCFG slot and frame, K10 to K15, the command queue, and what it has still to send:
packets with their route entries, and the results of drains once they have left (log 6: DEDUCED). -/
structure Node where
  size : Nat := 1
  rk : Nat := 0
  frm : Nat := 0
  slot : Nat := 0
  k : List Lane := []
  cmds : List NodeCmd := []
  sends : List (Packet × Lane) := []
  result : Option (Ret × Nat) := none
  /-- The writes that its packets' releases cover (R158, R162). -/
  cov : List Nat := []
  deriving DecidableEq, Repr, Inhabited

/-! Merge islands. -/

/-- What stands in a leaf's window (R199): an entry, or the end of a run with its EOF level. -/
inductive MItem where
  | entry (key val : Nat)
  | stop (lvl : Nat)
  deriving DecidableEq, Repr, Inhabited

/-- A leaf of a merge island. -/
structure Leaf where
  win : List MItem := []
  /-- The last key of the run being received (R200). -/
  last : Option Nat := none
  /-- Has sent EOF 3 (R200); has ended its part of the fibre, its run of the round, as the root sees it (R201). -/
  sent3 : Bool := false
  fend : Bool := false
  rend : Bool := false
  past : Bool := false
  deriving DecidableEq, Repr, Inhabited

/-- A run in the run table: its segments' records in the grounds ring, offset and entries (R206). -/
structure Run where
  segs : List (Nat × Nat) := []
  deriving DecidableEq, Repr, Inhabited

/-- A merge island (R195 to R207, R218); `opened` marks a session (log 6: DEDUCED). -/
structure Merge where
  opened : Bool := false
  rk : Nat := 0
  frm : Nat := 0
  e : Nat := 0
  slot : Nat := 0
  pid : Nat := 0
  lnch : Nat := 0
  cfg : List Lane := []
  leaves : PMap Leaf := []
  /-- The key being folded in the round and its value (R203). -/
  hold : Option (Nat × Nat) := none
  /-- The buffer: the fibre so far, or the run being collected (R205, R206). -/
  buf : List (Nat × Nat) := []
  spilled : Bool := false
  runs : List Run := []
  /-- The segments already written of the run being collected. -/
  segs : List (Nat × Nat) := []
  remerge : Bool := false
  forbid : Bool := false
  force : Bool := false
  /-- The entries of an ended fibre that the root has still to emit, in their held form (R204, R205). -/
  drain : Option (List (Nat × Nat)) := none
  /-- Output entries not yet packed, packets not yet sent. -/
  ents : List (Nat × Nat) := []
  out : List Packet := []
  fibre : Nat := 0
  passes : Nat := 0
  /-- The root has seen the end of the stream. -/
  streamEnd : Bool := false
  /-- The final control packet has been sent (R216). -/
  sentEnd : Bool := false
  /-- The MGCLOSEs that wait for the island to finish (R215). -/
  closing : List Ret := []
  /-- The segments already written of the run that a pass makes (R207). -/
  pass : List (Nat × Nat) := []
  /-- The writes that its packets' releases cover (R158). -/
  cov : List Nat := []
  deriving DecidableEq, Repr, Inhabited

end Sys2Proof.Machine
end

