-- ==== Sys2Proof/Machine/Units.lean ====
section
/-! DEFINITION. The parts of the state beside the regions: dies with their links and identities, partitions, launches, virtual
functions, the root, port dies, and what goes to hosts and to other panels. -/

namespace Sys2Proof.Machine

/-! Identity and links (chapter 10). -/

/-- A link frame as it is sent (R256): the generation, the frame counter, the flits, the header, the sealed bytes and the tag. -/
structure LinkFrame where
  gen : BitVec 16 := 0
  ctr : BitVec 64 := 0
  flits : Nat := 0
  hdr : List Byte := []
  body : List Byte := []
  tag : BitVec 128 := 0
  deriving DecidableEq, Repr, Inhabited

/-- One link channel of a die, bridge or port die (R256 to R260): the two key registers (R257), the transmit frame counter,
failed retries of the frame in hand, down, tag failures in this epoch, the frames sent and not yet acknowledged, oldest first, a rollover
due. -/
structure Chan where
  tx : Dword := 0
  rx : Dword := 0
  /-- The keys in the slots of TX and of RX (R256). -/
  tkeys : PMap (BitVec 256) := []
  rkeys : PMap (BitVec 256) := []
  /-- The nonce of the last frame sealed (R256). -/
  nonce : Option (BitVec 96) := none
  /-- The generation that the receiver has acknowledged to the root, and its BUSY answer (R259). -/
  ack : Option (BitVec 16) := none
  busy : Bool := false
  frames : BitVec 64 := 0
  retries : Nat := 0
  down : Bool := false
  tagFails : Nat := 0
  unacked : List LinkFrame := []
  due : Bool := false
  switching : Bool := false
  deriving DecidableEq, Repr, Inhabited

/-- The responder of a die (R250): version fixed, algorithms fixed, an exchange begun, a session open, secured messages since the
last KEY_UPDATE, which checks of R254 have passed since the die was measured, the transcript, the secret of an exchange, the session's key,
and the certificate chain with which the root has authenticated itself (log 6: DEDUCED). -/
structure Spdm where
  version : Bool := false
  caps : Bool := false
  algs : Bool := false
  exchange : Bool := false
  session : Bool := false
  msgs : Nat := 0
  /-- Bytes of the certificate chain read so far, from its start (R250). -/
  got : Nat := 0
  chain : Bool := false
  transcript : List Byte := []
  secret : BitVec 256 := 0
  key : BitVec 256 := 0
  rootChain : List Byte := []
  challenged : Bool := false
  measured : Bool := false
  deriving DecidableEq, Repr, Inhabited

/-- What every die with an identity holds (R247, R253, R257). -/
structure Identity where
  das : Dword := 0
  chans : PMap Chan := []
  spdm : Spdm := {}
  /-- The fused identity seed; the secret of the stage that runs, its secret key, and the certificates of the stages so far (R247). -/
  seed : BitVec 256 := 0
  cdi : BitVec 256 := 0
  sk : List Byte := []
  idCert : List Byte := []
  certs : List (List Byte) := []
  m1 : BitVec 384 := 0
  m2 : BitVec 384 := 0
  /-- Free-running cycle counter (R66). -/
  cycle : BitVec 64 := 0
  /-- Held in reset after a thermal trip in DARK (R254). -/
  tripped : Bool := false
  /-- 64 − σ and the drop by its own temperature, of a bridge or a port die; a fabric die's stand in Die (R277, R278). -/
  drop : Nat := 0
  hot : Nat := 0
  deriving DecidableEq, Repr, Inhabited

/-! Launches and partitions (chapters 02 and 09). -/

/-- Who submitted a launch: a host over a submission queue with the SEND's position, a region's SQLAUNCH into a join group, or a
management host with a tag and a port die (R42, R43, R269). -/
inductive Origin where
  | host (vf q sseq : Nat)
  | child (parent rk group : Nat)
  | steward (tag : BitVec 32) (port : Nat)
  deriving DecidableEq, Repr, Inhabited

/-- A footprint slot in progress: its item's placement index, and the regions that have ended the pass (R38). -/
structure FSlot where
  item : Nat := 0
  running : Bool := false
  finished : Bool := false
  deriving DecidableEq, Repr, Inhabited

/-- An accepted launch (R35 to R50). -/
structure Launch where
  lnch : Nat := 0
  hdr : List Dword := []
  depth : Nat := 1
  origin : Origin := .host 0 0 0
  /-- Its dependences: the key of the sync word and the generation awaited (R46). -/
  deps : List (Nat × Nat) := []
  /-- The key of its completion word (R47). -/
  cmp : Option Nat := none
  /-- Full waits of 2^20 cycles with the dependences met (R50). -/
  waited : Nat := 0
  rect : Option Rect := none
  slots : PMap FSlot := []
  children : Nat := 0
  commits : Nat := 0
  jobs : Nat := 0
  /-- Sync words acted on, in order, at most 257 (R243). -/
  syncs : List Nat := []
  /-- Held frozen by its own fault, with that fault's code (R48). -/
  fault : Option Nat := none
  /-- Waiting for its record to enter the ring, then abandoned (R244). -/
  abandon : Bool := false
  /-- Records of its exchange queues left in the grounds ring, by offset, since the queues went with their frames (R211, R212). -/
  left : List Nat := []
  /-- Writes that the launch's agents see from the start (R45, R46). -/
  cov : List Nat := []
  deriving DecidableEq, Repr, Inhabited

/-- A saved context (R237): the regions, elements, nodes, descriptors, merge and copy islands of the partition, its packets and
requests, and the bytes of its tiles and live sub-buffers. It names only VDNs. Islands are keyed by 4 × VDN + edge or quadrant
(log 22: DESIGN CHOICE). -/
structure Saved where
  regions : PMap Region := []
  elems : PMap Elem := []
  nodes : PMap Node := []
  descs : PMap Desc := []
  /-- Live sub-buffers: descriptor key, offset in the descriptor's range, bytes. -/
  bufs : List (Nat × Nat × List Byte) := []
  tiles : List Host.Cell := []
  marks : PMap Bool := []
  vers : PMap (BitVec 8) := []
  /-- What releases at the tiles' words covered (R158, R173); and versions, marks and covers in the ranges of the descriptors, by
  descriptor key and offset. -/
  rels : PMap (List Nat) := []
  bufVers : List (Nat × Nat × BitVec 8) := []
  bufMarks : List (Nat × Nat) := []
  bufRels : List (Nat × Nat × List Nat) := []
  islands : PMap Island := []
  merges : PMap Merge := []
  net : List Flit := []
  creds : List (Nat × Nat) := []
  bnds : List (Nat × List Nat × Ret) := []
  reqs : List Req := []
  tileQ : PMap (List TileReq) := []
  jobs : List Job := []
  words : List TagWord := []
  deriving DecidableEq, Repr, Inhabited

/-- A partition (R219). -/
structure Part where
  pdef : Dword := 0
  pqos : Dword := 0
  pts : Dword := 0
  psave : Dword := 0
  pstat : Dword := 0
  ps1r : Dword := 0
  pgrb : Dword := 0
  /-- The dies, by VDN, that the freeze has reached (R236). -/
  frozen : List Nat := []
  launches : List Launch := []
  next : Nat := 0
  saved : Option Saved := none
  /-- What follows once the freeze has reached every die: 0 nothing, 1 PTCT save, 2 PTCT release, 3 the end of a slice (R235). -/
  ending : Nat := 0
  /-- The status of the last PTCT save that waited for the freeze (R378, R439). -/
  saveStatus : Nat := 0
  /-- The dies that report quiet, and the detector's last decision: 0 none, 1 completion, 2 WAITING, 3 deadlock (R63, R381). -/
  quiet : List Nat := []
  decision : Nat := 0
  deriving DecidableEq, Repr, Inhabited

/-! Dies. -/

/-- A coalescing counter of a steward (R245), with the launches whose faults it counts. -/
structure Coal where
  vf : Nat := 0
  code : Nat := 0
  count : Nat := 0
  also : List (Nat × Nat) := []
  deriving DecidableEq, Repr, Inhabited

/-- The steward launch that a steward runs, and those that wait (R269): tag, port die, header. -/
structure StwJob where
  tag : BitVec 32 := 0
  port : Nat := 0
  launch : Launch := {}
  deriving DecidableEq, Repr, Inhabited

/-- A fabric die, by VDN. -/
structure Die where
  islands : PMap Island := []
  merges : PMap Merge := []
  /-- 64 − σ (R277). -/
  drop : Nat := 0
  /-- Drop of σ by the die's own temperature rule (R278). -/
  hot : Nat := 0
  store : List Record := []
  coal : List Coal := []
  storm : Bool := false
  stormCtr : PMap Nat := []
  /-- Records numbered for each VF (R242). -/
  recSeq : PMap Nat := []
  stw : List StwJob := []
  clockFull : Bool := false
  /-- Droop calibration is done (R273). -/
  calibrated : Bool := false
  deriving DecidableEq, Repr, Inhabited

/-- A page-forwarding entry (R240). -/
inductive Pgfw where
  | res
  | copy (vsn lfn : Nat)
  | moved (vsn lfn : Nat)
  deriving DecidableEq, Repr, Inhabited

/-- RAS state of a memory site (R279): the channels taken out of service, and the corrections of each channel in its 2^36 cycles. A die's
SRAM counts as channel 0. -/
structure Stack where
  spared : List Nat := []
  corrected : PMap Nat := []
  deriving DecidableEq, Repr, Inhabited

/-- Fuses and faults of a physical region (R78, R79): a fault of its sequencer, tile memory or LUT island, and the fused-off physical
elements, as place 0 to 8 and row. -/
structure Fuses where
  dark : Bool := false
  fused : List (Nat × Nat) := []
  deriving DecidableEq, Repr, Inhabited

/-! Virtual functions and hosts. -/

/-- Where a ring or queue is mirrored in host memory (R268, R270). -/
structure HostBuf where
  qpn : Nat := 0
  va : Nat := 0
  key : Nat := 0
  deriving DecidableEq, Repr, Inhabited

/-- The event ring or a trap queue of a VF (R244, R245, R270): the records not yet freed, oldest first, the count entered, the
count freed, the count mirrored. -/
structure VRing where
  recs : List Record := []
  tail : Nat := 0
  head : Nat := 0
  sent : Nat := 0
  buf : Option HostBuf := none
  deriving DecidableEq, Repr, Inhabited

/-- A submission queue with its completion queue (R42, R268, R270). -/
structure SubQ where
  bound : Bool := false
  pid : Nat := 0
  qpn : Nat := 0
  va : Nat := 0
  key : Nat := 0
  entries : Nat := 0
  sseq : Nat := 0
  written : Nat := 0
  head : Nat := 0
  held : List (List Dword) := []
  deriving DecidableEq, Repr, Inhabited

/-- A virtual function (R231 to R233, R270, R271) (log 6: DEDUCED). -/
structure Vf where
  disabling : Bool := false
  home : Nat := 0
  /-- The port die that holds a copy of the home's state (R271). -/
  mirror : Option Nat := none
  rings : PMap VRing := []
  sqs : PMap SubQ := []
  doorbell : Nat := 0
  abandoned : Nat := 0
  completed : Nat := 0
  stopped : Nat := 0
  remote : Nat := 0
  deriving DecidableEq, Repr, Inhabited

/-- A queue pair; `ending` while its VF is being disabled, when only the VF's last entries and records still go out on it (R232, R233,
R263, R268) (log 6: DEDUCED; log 129: DEDUCED). -/
structure QPair where
  isOpen : Bool := false
  ending : Bool := false
  vf : Nat := 0
  pid : Nat := 0
  port : Nat := 0
  rqpn : BitVec 32 := 0
  rip : BitVec 128 := 0
  psn : BitVec 32 := 0
  /-- Congestion notifications taken since it was opened (R263). -/
  slowed : Nat := 0
  deriving DecidableEq, Repr, Inhabited

/-- A memory window; `closing` names the port die and the tag of an MW_CLOSE that waits for the accesses in progress (R263, R268)
(log 6: DEDUCED). -/
structure Window where
  isOpen : Bool := false
  vf : Nat := 0
  pid : Nat := 0
  rd : Bool := false
  wr : Bool := false
  va : Nat := 0
  len : Nat := 0
  closing : Option (Nat × BitVec 32) := none
  deriving DecidableEq, Repr, Inhabited

/-- A port die (R24, R262, R267): the address of each Ethernet port, its paused priorities, and the management commands behind one that
is not yet answered, with their hosts (R268). -/
structure PortDie where
  lost : Bool := false
  addrs : PMap (BitVec 8 × BitVec 128) := []
  pfc : PMap (BitVec 8) := []
  queued : List (BitVec 128 × List Byte) := []
  deriving DecidableEq, Repr, Inhabited

/-! Other panels (R264, R265). -/

/-- A TRLS stream to one panel: sequence numbers, unacknowledged packets as bytes, retransmissions, and whether it is down
(log 6: DEDUCED). -/
structure Stream where
  psn : Nat := 0
  expect : Nat := 0
  acked : Nat := 0
  unacked : List (Nat × List Byte) := []
  retx : Nat := 0
  down : Bool := false
  deriving DecidableEq, Repr, Inhabited

/-- A TRLS session with another panel: open, whether this panel's root was the requester of its KEY_EXCHANGE, and the key and its
generation of each direction (R264). -/
structure Session where
  isOpen : Bool := false
  asker : Bool := false
  ktx : BitVec 16 := 0
  krx : BitVec 16 := 0
  tkey : BitVec 256 := 0
  rkey : BitVec 256 := 0
  deriving DecidableEq, Repr, Inhabited

/-- The root's state (R249, R264, R267, R277). -/
structure Root where
  port : Nat := 0
  takeover : Bool := false
  /-- 180 less the cap, in units of 0.1 kW (R277, R383). -/
  capDrop : Nat := 0
  /-- Panel power at the last evaluation, in watts. -/
  power : Nat := 0
  lms : BitVec 256 := 0
  linkGen : PMap (BitVec 16) := []
  /-- Accepted measurements: die kind, block, value. -/
  policy : List (Nat × Nat × List Byte) := []
  /-- The firmware set verified at bring-up; for each die kind the SVN and the images of its stages (R247, R248, R273). -/
  booted : Bool := false
  images : List (BitVec 8 × List Byte × List Byte) := []
  recordOk : Bool := false
  trlsPort : Option (BitVec 16) := none
  peers : PMap (List (BitVec 128)) := []
  /-- Addresses of the management hosts (R267). -/
  hosts : List (BitVec 128) := []
  sessions : PMap Session := []
  streams : PMap Stream := []
  undef : Nat := 0
  panelNo : BitVec 16 := 0
  deriving DecidableEq, Repr, Inhabited

/-- What the panel sends outside: completion entries, mirrored records, answers, data, NAKs, management answers and alerts, SPDM
responses, TRLS packets. An entry or a record is a RoCEv2 WRITE: its queue pair, address and key (R270). -/
inductive HostMsg where
  | completion (vf q : Nat) (buf : HostBuf) (entry : List Dword)
  | record (vf ring : Nat) (buf : HostBuf) (words : List Dword)
  | ack (qpn : Nat)
  | data (qpn : Nat) (bytes : List Byte)
  /-- A NAK: 1 invalid request, 2 remote access error, 3 receiver not ready. -/
  | nak (qpn code : Nat)
  /-- On the management queue pair of a port die. -/
  | mgmt (port : Nat) (msg : List Byte)
  | spdm (u : UnitId) (code : Nat) (body : List Byte)
  /-- A TRLS packet, to an address and a UDP port (R264). -/
  | trls (dest : BitVec 128) (port : BitVec 16) (msg : List Byte)
  deriving DecidableEq, Repr, Inhabited

end Sys2Proof.Machine
end

