-- ==== Sys2Proof/Machine/State.lean ====
section
/-! DEFINITION. The machine's state, its faults and refusals, and the state after reset. Tables are sparse: an unlisted key holds
its reset value. Regions are keyed by 17 × VDN + region (0 to 15; 16 is the steward region), elements by 64 × region key +
8 × ey + ex, dies by VDN. Identities, windows and fuses are keyed by the physical die. -/

namespace Sys2Proof

namespace Machine

/-- Why the machine stops: nothing stops it. Every fault of the spec is recorded, and the machine goes on (R241). -/
inductive Fault where
  deriving DecidableEq, Repr

/-- Why an instruction has no meaning. -/
inductive Refusal where
  /-- An instruction of the table that the model does not give a meaning; raised by Dispatch alone. Safe: nothing runs. -/
  | notModelled (mnemonic : String)
  deriving DecidableEq, Repr

/-- Which agent moves next, and on what. -/
inductive Turn where
  /-- The trigger stage of an element. -/
  | element (e : Nat)
  /-- The sequencer of a region. -/
  | sequencer (r : Nat)
  /-- The command queue of a matrix node. -/
  | node (e : Nat)
  /-- A message on the management queue pair of a port die, from a host's address. -/
  | mgmt (port : Nat) (who : BitVec 128) (msg : List Byte)
  /-- A TRLS packet from another panel. -/
  | trls (msg : List Byte)
  /-- An event. -/
  | event (i : Instr)
  deriving DecidableEq, Repr, Inhabited

end Machine

/-- Which agent moves next where nothing else says so (R66), by the count of draws (log 1: DESIGN CHOICE; log 2: DESIGN CHOICE). -/
opaque Config.schedule : Nat → Machine.Turn

namespace Machine

/-- The state that the panel and its tables hold. -/
structure Panel where
  form : Form := .module80
  /-- The package has lost its one port die and has stopped (R3, R271). -/
  stopped : Bool := false
  /-- VDN to physical die and VSN to physical site, where they differ from the identity (R23, R407): number plus one. -/
  vdnAt : PMap Nat := []
  vsnAt : PMap Nat := []
  /-- Identities: physical fabric die n, bridge 100 + n, port die 200 + n (R247). -/
  ids : PMap Identity := []
  fuses : PMap Fuses := []
  sites : PMap Stack := []
  /-- Page-forwarding entries: site × 2^20 + frame (R240); a site is a physical stack, or 100 + a physical die. -/
  pgfw : PMap Pgfw := []
  /-- VFT entries, doublewords 0 and 1: 64 × site + VF (R231); site 200 is the root's copy. -/
  vft : PMap (Dword × Dword) := []
  /-- Stage-2 results still cached, by the requester's VF, site and granule, with the entry read (R150). -/
  s2cache : PMap (BitVec 32) := []
  /-- Route words (R375), by the bits [14:0] that name the port. -/
  routes : PMap (BitVec 32) := []
  ports : PMap PortDie := []
  root : Root := {}
  qps : PMap QPair := []
  windows : PMap Window := []
  hostOut : List HostMsg := []
  deriving DecidableEq, Repr, Inhabited

/-- The machine. -/
structure State where
  /-- The turns to come; where empty, the free schedule of Step decides (R66). -/
  agenda : List Turn := []
  /-- How many free values have been drawn. -/
  draws : Nat := 0
  /-- The element and slot, or the region, whose word is in progress. -/
  cur : Nat × Nat := (0, 0)
  /-- The number of the next request, job or fault message. -/
  nextId : Nat := 0
  panel : Panel := {}
  /-- Tiles, QB, DB and stacks, byte by byte (R127, R144); an unlisted byte is zero (R275). -/
  mem : List Host.Cell := []
  /-- Sync marks of 16-byte granules (R138), by address over 16. -/
  marks : PMap Bool := []
  /-- Versions of 64-bit words (R160), by address over 8. -/
  vers : PMap (BitVec 8) := []
  /-- 64-bit words with an uncorrectable error, by address over 8 (R279). -/
  ecc : PMap Bool := []
  /-- The writes that the releases on a sync word or a versioned word have covered (R158, R160, R165), by address. -/
  relCov : PMap (List Nat) := []
  elems : PMap Elem := []
  nodes : PMap Node := []
  regions : PMap Region := []
  dies : PMap Die := []
  /-- Descriptors: QB (4 × VDN + quad) × 256 + index; DB 2^20 + VDN × 1,024 + index (R130). -/
  descs : PMap Desc := []
  parts : PMap Part := []
  vfs : PMap Vf := []
  net : List Flit := []
  /-- Credits on their way back: element and entry (R80). -/
  creds : List (Nat × Nat) := []
  /-- BND packets that wait: tier, covered writes, the packet on its way (R330). -/
  bnds : List (Nat × List Nat × Ret) := []
  reqs : List Req := []
  /-- The queue of each tile: 8 × region key + tile (R141). -/
  tileQ : PMap (List TileReq) := []
  jobs : List Job := []
  words : List TagWord := []
  recs : List FaultMsg := []
  deriving DecidableEq, Repr, Inhabited

/-- The machine right after reset (log 5: DESIGN CHOICE; log 6: DEDUCED; log 8: DEDUCED). -/
def State.reset : State := {}

end Machine

end Sys2Proof
end

