-- ==== Sys2Proof/Machine/Ops.lean ====
section
/-! DEFINITION. The named operations over the state: tables, places, bit fields, memory, work identifiers, sending and receiving
packets, taking a fault (R95, R241 to R244) and releasing from it (R402), and the firing of a slot (R72 to R95). -/

namespace Sys2Proof.Machine

/-! Bit fields of registers and records. -/

/-- n bits of a doubleword from bit lo, as a number. -/
def bitsOf (w : Dword) (lo n : Nat) : Nat := w.toNat / 2 ^ lo % 2 ^ n

/-- A doubleword with n bits from bit lo replaced. -/
def putBits (w : Dword) (lo n v : Nat) : Dword :=
  BitVec.ofNat 64 (w.toNat - bitsOf w lo n * 2 ^ lo + v % 2 ^ n * 2 ^ lo)

/-- A field placed in a doubleword. -/
def field (v lo n : Nat) : Nat := v % 2 ^ n * 2 ^ lo

/-- A number's low n bits read as two's complement. -/
def signedBits (v n : Nat) : Int := sval n (v % 2 ^ n)

/-! Tables of the state. -/

def State.elem (s : State) (e : Nat) : Elem := s.elems.get e
def State.setElem (s : State) (e : Nat) (x : Elem) : State := { s with elems := s.elems.set e x }
def State.modElem (s : State) (e : Nat) (f : Elem → Elem) : State := { s with elems := s.elems.set e (f (s.elem e)) }
def State.region (s : State) (r : Nat) : Region := s.regions.get r
def State.setRegion (s : State) (r : Nat) (x : Region) : State := { s with regions := s.regions.set r x }
def State.modRegion (s : State) (r : Nat) (f : Region → Region) : State := { s with regions := s.regions.set r (f (s.region r)) }
def State.frame (s : State) (r f : Nat) : Frame := (s.region r).frames.get f
def State.modFrame (s : State) (r f : Nat) (g : Frame → Frame) : State :=
  s.modRegion r (fun x => { x with frames := x.frames.modify f g })
def State.die (s : State) (d : Nat) : Die := s.dies.get d
def State.modDie (s : State) (d : Nat) (f : Die → Die) : State := { s with dies := s.dies.set d (f (s.die d)) }
def State.part (s : State) (p : Nat) : Part := s.parts.get p
def State.modPart (s : State) (p : Nat) (f : Part → Part) : State := { s with parts := s.parts.set p (f (s.part p)) }
def State.vf (s : State) (v : Nat) : Vf := s.vfs.get v
def State.modVf (s : State) (v : Nat) (f : Vf → Vf) : State := { s with vfs := s.vfs.set v (f (s.vf v)) }
def State.modRoot (s : State) (f : Root → Root) : State := { s with panel := { s.panel with root := f s.panel.root } }
def State.modSlot (s : State) (e n : Nat) (f : SlotSt → SlotSt) : State :=
  s.modElem e (fun x => { x with slots := x.slots.modify n f })

/-- A free number, and the state with the draw counted (log 2: DESIGN CHOICE). -/
def State.drawn (s : State) : State := { s with draws := s.draws + 1 }

/-- The number for a new request, job or fault message (log 3: DESIGN CHOICE). -/
def State.fresh (s : State) : State := { s with nextId := s.nextId + 1 }

/-! Places (R13, R23, R38). -/

/-- Columns of logical dies of a form (R23, R272) (log 4: DESIGN CHOICE; log 92: DEDUCED). -/
def gridCols : Form → Nat
  | .module80 => 8
  | .package16 => 4
  | .ikbD c _ _ => c

/-- Rows of logical dies of a form (log 4: DESIGN CHOICE; log 92: DEDUCED). -/
def gridRows : Form → Nat
  | .module80 => 10
  | .package16 => 4
  | .ikbD _ r _ => r

/-- Fabric dies, and memory sites, of a form (log 4: DESIGN CHOICE). -/
def gridDies (f : Form) : Nat := gridCols f * gridRows f

/-- Port dies of a form (R24) (log 4: DESIGN CHOICE; log 92: DEDUCED). -/
def gridPorts : Form → Nat
  | .module80 => 4
  | .package16 => 1
  | .ikbD _ _ ps => ps.length

def State.cols (s : State) : Nat := gridCols s.panel.form
def State.ndies (s : State) : Nat := gridDies s.panel.form

/-- The physical die of a VDN, and the physical site of a VSN (R23, R407). -/
def State.physDie (s : State) (v : Nat) : Nat := match s.panel.vdnAt.get v with | 0 => v | n + 1 => n
def State.physSite (s : State) (v : Nat) : Nat := match s.panel.vsnAt.get v with | 0 => v | n + 1 => n

/-- The VDN of a physical die. -/
def State.vdnOf (s : State) (p : Nat) : Nat := ((List.range s.ndies).find? (fun v => s.physDie v == p)).getD p

/-- The region key of a die's region, and back (log 90: DEDUCED). -/
def rkOf (vdn reg : Nat) : Nat := 17 * vdn + reg
def rkDie (r : Nat) : Nat := r / 17
def rkReg (r : Nat) : Nat := r % 17

/-- Is a region key a steward region (R26)? -/
def isStw (r : Nat) : Bool := rkReg r == 16

/-- A region key that no region has: requests of no element hold it. -/
def farRegion : Nat := 17 * 127

/-- The region coordinates of a region key (R13, R221). -/
def State.gxOf (s : State) (r : Nat) : Nat := if isStw r then 0 else 4 * (rkDie r % s.cols) + rkReg r % 4
def State.gyOf (s : State) (r : Nat) : Nat := if isStw r then 0 else 4 * (rkDie r / s.cols) + rkReg r / 4

/-- The region key at region coordinates; none outside the grid. -/
def State.rkAt (s : State) (gx gy : Nat) : Option Nat :=
  if gx < 4 * s.cols && gy < 4 * gridRows s.panel.form then
    some (rkOf (gy / 4 * s.cols + gx / 4) (gy % 4 * 4 + gx % 4))
  else none

/-- The quad of a region within its die (R38). -/
def quadOf (r : Nat) : Nat := 2 * (rkReg r / 8) + rkReg r % 4 / 2

/-- The element key of a region's element index. -/
def ekOf (r idx : Nat) : Nat := 64 * r + idx
def ekRegion (e : Nat) : Nat := e / 64
def ekIdx (e : Nat) : Nat := e % 64
def ekX (e : Nat) : Nat := e % 8
def ekY (e : Nat) : Nat := e % 64 / 8
def ekDie (e : Nat) : Nat := rkDie (ekRegion e)

/-- The element that hop counts reach from an element (R77, R78); none outside the grid, or outside a steward region's 4 × 4. -/
def State.hop (s : State) (e : Nat) (dx dy : Int) : Option Nat :=
  let r := ekRegion e
  if isStw r then
    let x := (ekX e : Int) + dx
    let y := (ekY e : Int) + dy
    if 0 ≤ x && x < 4 && 0 ≤ y && y < 4 then some (ekOf r (8 * y.toNat + x.toNat)) else none
  else
    let x := ((8 * s.gxOf r + ekX e : Nat) : Int) + dx
    let y := ((8 * s.gyOf r + ekY e : Nat) : Int) + dy
    if x < 0 || y < 0 then none
    else (s.rkAt (x.toNat / 8) (y.toNat / 8)).map (fun q => ekOf q (8 * (y.toNat % 8) + x.toNat % 8))

/-! Target entries (R77). -/

def tValid (w : Lane) : Bool := w.getLsbD 31
def tPort (w : Lane) : Nat := (w.extractLsb' 24 4).toNat
def tTag (w : Lane) : BitVec 7 := w.extractLsb' 17 7
def tFld (w : Lane) : Nat := (w.extractLsb' 15 2).toNat
def tSlot (w : Lane) : Nat := (w.extractLsb' 10 5).toNat
def tDy (w : Lane) : Int := (w.extractLsb' 5 5).toInt
def tDx (w : Lane) : Int := (w.extractLsb' 0 5).toInt

/-- Where an entry of an element sends (R77, R174). -/
def State.destOf (s : State) (e : Nat) (w : Lane) : Option Dest :=
  match s.hop e (tDx w) (tDy w) with
  | none => none
  | some c =>
    if tFld w < 3 then some (.field c (tSlot w) (tFld w))
    else
      let p := tPort w
      if p < 4 then some (.chan c p)
      else if p < 8 then some (.queue (ekDie e) (p - 4) ((tTag w).toNat % 16))
      else if p == 8 then some (.node c)
      else if 12 ≤ p then some (.leaf (ekDie e) (p - 12) ((tTag w).toNat % 16))
      else none

/-- The element of a destination, for the dies its route crosses; an island is at its die. -/
def destDie : Dest → Nat
  | .field e _ _ => ekDie e
  | .chan e _ => ekDie e
  | .queue d _ _ => d
  | .node e => ekDie e
  | .leaf d _ _ => d

/-! Identities (R253). -/

/-- The key of a die's identity: physical fabric dies from 0, bridges from 100, port dies from 200. -/
def idFabric (p : Nat) : Nat := p
def idBridge (p : Nat) : Nat := 100 + p
def idPort (p : Nat) : Nat := 200 + p
def idOf : UnitId → Nat
  | .fabric n => idFabric n
  | .bridge n => idBridge n
  | .port n => idPort n

def State.ident (s : State) (k : Nat) : Identity := s.panel.ids.get k
def State.modIdent (s : State) (k : Nat) (f : Identity → Identity) : State :=
  { s with panel := { s.panel with ids := s.panel.ids.set k (f (s.ident k)) } }

/-- STATE of DAS: 0 DARK, 1 MEASURED, 2 ATTESTED, 3 ACTIVE, 4 QUARANTINED, 5 RESETTING (R253). -/
def dasState (x : Identity) : Nat := bitsOf x.das 61 3
def State.isActive (s : State) (k : Nat) : Bool := dasState (s.ident k) == 3

/-- Is the fabric die of a VDN ACTIVE? -/
def State.dieActive (s : State) (v : Nat) : Bool := s.isActive (idFabric (s.physDie v))

/-- The SVN and the stage images of the firmware of a die's kind (R247, R248). -/
def State.image (s : State) (k : Nat) : BitVec 8 × List Byte × List Byte := s.panel.root.images.getD (k / 100) (0, [], [])

/-- May a die boot: a verified firmware set whose SVN is no less than the fused minimum, and no thermal hold (R248, R254)? -/
def State.mayBoot (s : State) (k : Nat) : Bool :=
  s.panel.root.booted && bitsOf (s.ident k).das 32 8 ≤ (s.image k).1.toNat && !(s.ident k).tripped

/-! Partition registers (R220 to R234). -/

/-- PSTAT.STATE: 0 FREE, 1 IDLE, 2 RUNNING, 3 FROZEN, 4 SAVED, 5 SCRUBBING (R225). -/
def pState (p : Part) : Nat := bitsOf p.pstat 61 3
def pCause (p : Part) : Nat := bitsOf p.pstat 58 3
def pVf (p : Part) : Nat := bitsOf p.pdef 40 6
def pRect (p : Part) : Rect :=
  { gx := bitsOf p.pdef 17 5, gy := bitsOf p.pdef 22 6, w := bitsOf p.pdef 28 6, h := bitsOf p.pdef 34 6 }

/-- A partition in a given state. -/
def Part.toState (p : Part) (st : Nat) : Part := { p with pstat := putBits p.pstat 61 3 st }

/-- NLNCH of PSTAT kept at the number of resident launches (R225). -/
def Part.count (p : Part) : Part :=
  let n := (p.launches.filter (fun l => l.rect.isSome)).length
  { p with pstat := putBits p.pstat 32 8 (min n 255) }

/-- The regions of a rectangle, row by row from the south-west. -/
def State.rectRegions (s : State) (r : Rect) : List Nat :=
  (List.range r.h).flatMap (fun j => (List.range r.w).filterMap (fun i => s.rkAt (r.gx + i) (r.gy + j)))

/-- The dies of a rectangle, ascending. -/
def State.rectDies (s : State) (r : Rect) : List Nat :=
  let ds := (s.rectRegions r).map rkDie
  (List.range s.ndies).filter (fun d => ds.contains d)

/-- The home die of a partition: its die of lowest VDN (R42). -/
def State.homeDie (s : State) (pid : Nat) : Nat := (s.rectDies (pRect (s.part pid))).headD 0

/-- The partition that a region runs for: its launch's, as defined (R222). -/
def State.pidOf (s : State) (r : Nat) : Option Nat :=
  match (s.region r).pid with | 0 => none | n + 1 => some n

/-- May agents of a region move: its partition's freeze has not reached its die (R236). A steward region always may, and what belongs
to no region. -/
def State.moving (s : State) (r : Nat) : Bool :=
  match s.pidOf r with
  | none => isStw r || r == farRegion
  | some p => !(s.part p).frozen.contains (rkDie r)

/-- Activity of a partition on a die ends its quiet count there (R63). -/
def State.touch (s : State) (r : Nat) : State :=
  match s.pidOf r with
  | none => s
  | some p => if (s.part p).quiet.isEmpty then s
    else s.modPart p (fun x => { x with quiet := x.quiet.filter (fun d => d != rkDie r) })

/-! Memory (R127, R144): one space of keys. -/

/-- The key of a byte of a stack, of a window of a die, of a tile. -/
def stackKey (site off : Nat) : Nat := site * 2 ^ 40 + off
def windowKey (die off : Nat) : Nat := 2 ^ 60 + die * 2 ^ 32 + off
def tileKey (r tile off : Nat) : Nat := 2 ^ 61 + r * 2 ^ 24 + tile * 2 ^ 17 + off

/-- The canonical form of memory: addresses strictly rising, no byte equal to what an unlisted address reads as. -/
def Memory.wf (m : List Host.Cell) : Bool := PMap.wf m

/-- One byte. An address that nothing has written since the scrub reads zero (R275) (log 8: DEDUCED). -/
def memByte (m : List Host.Cell) (a : Nat) : Byte := PMap.get m a

/-- n bytes from an address. -/
def memBytes (m : List Host.Cell) (a n : Nat) : List Byte := (List.range n).map (fun i => memByte m (a + i))

/-- Memory with bytes written from an address. -/
def memPut (m : List Host.Cell) (a : Nat) : List Byte → List Host.Cell
  | [] => m
  | b :: bs => memPut (PMap.set m a b) (a + 1) bs

def State.write (s : State) (a : Nat) (bs : List Byte) : State := { s with mem := memPut s.mem a bs }

/-- The lanes in n words from a key, and lanes as bytes. -/
def memLanes (m : List Host.Cell) (a n : Nat) : List Lane :=
  (List.range n).map (fun i => BitVec.ofNat 32 (bytesVal (memBytes m (a + 4 * i) 4)))
def laneBytes (ls : List Lane) : List Byte := ls.flatMap (fun w => valBytes 4 w.toNat)

/-- Is any granule that n bytes from a key touch a sync word (R138)? -/
def State.marked (s : State) (a n : Nat) : Bool :=
  (List.range ((a % 16 + n + 15) / 16)).any (fun i => s.marks.get (a / 16 + i))

/-! Launches and work identifiers (R35 to R41). -/

/-- The launch of a region: its partition's, or the one its steward runs. -/
def State.launchOf (s : State) (r : Nat) : Option Launch :=
  if isStw r then ((s.die (rkDie r)).stw.head?).map (fun j => j.launch)
  else match s.pidOf r with
    | none => none
    | some p => (s.part p).launches.find? (fun l => l.lnch == (s.region r).lnch)

def State.modLaunch (s : State) (p lnch : Nat) (f : Launch → Launch) : State :=
  s.modPart p (fun x => { x with launches := x.launches.map (fun l => if l.lnch == lnch then f l else l) })

/-- Header doubleword n. -/
def Launch.word (l : Launch) (n : Nat) : Dword := l.hdr.getD n 0

/-- Width and tier of WID field k in LH1 (R36). -/
def widWidth (h1 : Dword) (k : Nat) : Nat := bitsOf h1 (10 * k + 3) 7
def widTier (h1 : Dword) (k : Nat) : Nat := bitsOf h1 (10 * k) 3

/-- The position of WID field k: the widths below it (R37). -/
def widPos (h1 : Dword) : Nat → Nat
  | 0 => 0
  | k + 1 => widPos h1 k + widWidth h1 k

/-- Is field k one that the placement index fills: used, at region, quad or die tier (R38)? -/
def widPlaced (h1 : Dword) (k : Nat) : Bool := widWidth h1 k != 0 && 1 ≤ widTier h1 k && widTier h1 k ≤ 3

/-- The width of the placement index (R38). -/
def widPlaceBits (h1 : Dword) : Nat :=
  ((List.range 6).map (fun k => if widPlaced h1 k then widWidth h1 k else 0)).foldl (· + ·) 0

/-- The WID of an item (R37, R38, R41): the placement index spread over its fields, WIDC for the wider tiers, zero at iteration
tier. -/
def widOf (l : Launch) (item : Nat) : Nat :=
  let h1 := l.word 1
  ((List.range 6).foldl (fun (acc : Nat × Nat) k =>
    let w := widWidth h1 k
    if widPlaced h1 k then (acc.1 + item / 2 ^ acc.2 % 2 ^ w * 2 ^ widPos h1 k, acc.2 + w)
    else if 4 ≤ widTier h1 k && widTier h1 k ≤ 5 then
      (acc.1 + (l.word 2).toNat / 2 ^ widPos h1 k % 2 ^ w * 2 ^ widPos h1 k, acc.2)
    else acc) (0, 0)).1

/-- The WID seen in a region. -/
def State.regionWid (s : State) (r : Nat) : Nat :=
  match s.launchOf r with
  | some l => widOf l (s.region r).item
  | none => 0

/-- The low 32 bits of WID field k (R74); zero for an unused field. -/
def State.widField (s : State) (r k : Nat) : Lane :=
  match s.launchOf r with
  | some l => BitVec.ofNat 32 (widOf l (s.region r).item / 2 ^ widPos (l.word 1) k % 2 ^ widWidth (l.word 1) k)
  | none => 0

/-- Deterministic flag, trap queue and fault policy of a header (R35). -/
def Launch.det (l : Launch) : Bool := (l.word 0).getLsbD 40
def Launch.abandons (l : Launch) : Bool := (l.word 0).getLsbD 36
def Launch.trapQ (l : Launch) : Nat := bitsOf (l.word 0) 5 4

/-! Taking a fault (R95, R241 to R244). -/

/-- The sum of a launch's commit counters (R242). -/
def State.launchCommits (s : State) (r : Nat) : Nat := match s.launchOf r with | some l => l.commits | none => 0

/-- The record of a fault in a region, with everything the machine knows of the place (R242). -/
def State.recordAt (s : State) (c : FCode) (r : Nat) (soff : Nat) (pl : Place) : Record :=
  let pid := (s.pidOf r).getD 255
  { code := c.num, pid := pid, vf := if isStw r then 0 else pVf (s.part pid),
    lnch := if isStw r then 0 else (s.region r).lnch, wid := s.regionWid r,
    place := { pl with gx := s.gxOf r, gy := s.gyOf r, vdn := rkDie r },
    soff := soff, cmt := (s.region r).commits.toNat,
    pcmt := s.launchCommits r % 2 ^ 32,
    pjob := (match s.launchOf r with | some l => l.jobs | none => 0) % 2 ^ 32 }

/-- The doublewords of a record (R242). -/
def Record.words (x : Record) : List Dword :=
  let p := x.place
  let b (c : Bool) (n : Nat) : Nat := if c then 2 ^ n else 0
  [ field x.code 56 8 + field x.vf 50 6 + field x.pid 42 8 + field x.src 40 2 + b x.evk 39 + b x.prec 38 + b x.vav 37
      + b x.held 36 + b x.coal 35 + b x.storm 34 + b x.abnd 33 + b x.tqf 32 + field x.lnch 0 32,
    x.wid,
    if x.evk then x.detail else
    field p.gx 59 5 + field p.gy 53 6 + field p.ex 50 3 + field p.ey 47 3 + field p.slot 42 5 + field p.frm 39 3
      + field p.vdn 32 7 + field p.eng 24 8 + field p.tpl 18 6 + field p.ql 14 4 + b p.qlv 13,
    field x.soff 32 32 + field x.cmt 0 32,
    x.va,
    field x.pcmt 32 32 + field x.pjob 0 32,
    if x.evk then 0 else x.detail,
    field x.count 32 32 + field x.seq 0 32 ].map (BitVec.ofNat 64)

/-- Freeze a RUNNING partition, with the cause and the code of the fault (R224, R225, R236, R241). The freeze reaches its dies one
by one, by FREEZE_ARRIVE. -/
def State.freezePart (s : State) (pid cause fcode : Nat) : State :=
  s.modPart pid (fun p =>
    if pState p == 2 then
      { p with pstat := putBits (putBits (putBits p.pstat 61 3 3) 58 3 cause) 48 8 fcode, frozen := [], quiet := [] }
    else p)

/-- A record sent to the steward of the die where the fault was raised (R244). -/
def State.report (s : State) (die : Nat) (x : Record) : State :=
  let m : FaultMsg := { id := s.nextId, die := die, record := x }
  ({ s with recs := s.recs ++ [m] } : State).fresh

/-- Fault storm (R246): a fault on a die in storm mode sets PSTAT.STORM when it freezes. -/
def State.stormMark (s : State) (die pid : Nat) : State :=
  if (s.die die).storm then s.modPart pid (fun p => { p with pstat := putBits p.pstat 0 1 1 }) else s

/-- The launch of a faulting region takes the policy of its header: held by its fault, or to be abandoned once the record has
entered the ring (R35, R244). -/
def State.policy (s : State) (pid lnch : Nat) (c : FCode) : State :=
  s.modLaunch pid lnch (fun l => if l.abandons then { l with abandon := true } else { l with fault := some c.num })

/-- A completion entry (R270). -/
def completionEntry (hdr : List Dword) (status fcode pid vf : Nat) (phase : Bool) (lnch sseq pcmt pjob : Nat) : List Dword :=
  [ BitVec.ofNat 64 (field (bitsOf (hdr.getD 7 0) 48 16) 48 16 + field status 40 8 + field fcode 32 8 + field pid 24 8
      + field vf 18 6 + (if phase then 1 else 0)),
    BitVec.ofNat 64 (field lnch 32 32 + field sseq 0 32), BitVec.ofNat 64 (field pcmt 32 32 + field pjob 0 32), 0 ]

/-- Bytes of doublewords, least significant byte first. -/
def dwordBytes (ws : List Dword) : List Byte := ws.flatMap (fun w => valBytes 8 w.toNat)

/-- The bytes of a text of ASCII letters. -/
def asciiBytes (t : String) : List Byte := t.toList.map (fun c => BitVec.ofNat 8 c.toNat)

/-- The bytes of a word, the least significant first. -/
def wordBytes {w : Nat} (x : BitVec w) : List Byte := valBytes (w / 8) x.toNat

/-- Bytes encrypted, or decrypted, by the key stream of AES-256-GCM (R256, R264). -/
def gcmCrypt (key : BitVec 256) (nonce : BitVec 96) (bs : List Byte) : List Byte :=
  (List.range bs.length).map (fun i => bs.getD i 0 ^^^ Config.gcmByte key nonce i)

/-- A message out of the panel. -/
def State.emit (s : State) (m : HostMsg) : State := { s with panel := { s.panel with hostOut := s.panel.hostOut ++ [m] } }

/-- The mirror of a home port die: the lowest-numbered other ACTIVE port die (R271). -/
def State.mirrorOf (s : State) (home : Nat) : Option Nat :=
  (List.range (gridPorts s.panel.form)).find? (fun q => q != home && s.isActive (idPort q))

/-- Every VF's mirror chosen anew (R271): each copy is whole, since a steward keeps a record until both copies hold it (log 91: DEDUCED). -/
def State.remirror (s : State) : State :=
  { s with vfs := (s.vfs.map (fun x => (x.1, { x.2 with mirror := s.mirrorOf x.2.home }))).filter (fun x => x.2 != default) }

/-- Is the management queue pair of a port die open: one of the part's, not lost, and, with no valid configuration record, port die 0
alone (R249, R267)? (log 91: DEDUCED) -/
def State.mgmtOpen (s : State) (p : Nat) : Bool :=
  p < gridPorts s.panel.form && !(s.panel.ports.get p).lost && (s.panel.root.recordOk || p == 0)

/-- A fault-storm alert on every open management queue pair: OP 0x80, and in the body the die, and the VF and code of the first class
that could not be held (R246, R267). The body has no layout in the spec (log 89: DESIGN CHOICE). -/
def State.alert (s : State) (die vf code : Nat) : State :=
  ((List.range (gridPorts s.panel.form)).filter s.mgmtOpen).foldl (fun s p =>
    s.emit (.mgmt p (mgmtMsg 0x80 0 0 (valBytes 1 die ++ valBytes 1 vf ++ valBytes 1 code)))) s

/-- A region with nothing in it but what its die gives it: what a scrub or the end of a launch leaves (R233, R269) (log 103: DEDUCED). -/
def Region.cleared (x : Region) : Region := { ({} : Region) with pid := x.pid, tlb := x.tlb, stretch := x.stretch }

/-- The elements of a region set to reset (R233, R237, R269). -/
def State.clearElems (s : State) (r : Nat) : State :=
  { s with elems := s.elems.filter (fun x => ekRegion x.1 != r), nodes := s.nodes.filter (fun x => ekRegion x.1 != r),
           net := s.net.filter (fun f => f.rk != r), creds := s.creds.filter (fun c => ekRegion c.1 != r),
           bnds := s.bnds.filter (fun b => b.2.2.rk != r), reqs := s.reqs.filter (fun q => q.ret.rk != r),
           tileQ := s.tileQ.filter (fun q => q.1 / 8 != r) }

/-- The key of a QB or DB descriptor of a region's die (R130). -/
def qbKey (vdn q idx : Nat) : Nat := (4 * vdn + q) * 256 + idx
def dbKey (vdn idx : Nat) : Nat := 2 ^ 20 + vdn * 1024 + idx

/-- The descriptor that a binding of a region names; none for a tile binding. -/
def descKeyOf (r : Nat) (b : Binding) : Option Nat :=
  if b.lvl == 1 then some (qbKey (rkDie r) (quadOf r) b.idx)
  else if b.lvl == 2 then some (dbKey (rkDie r) b.idx)
  else none

/-- Descriptors that no frame binds and whose every sub-buffer is EMPTY are freed (R130). -/
def State.freeDescs (s : State) : State :=
  let bound (k : Nat) : Bool := s.regions.any (fun r => r.2.frames.any (fun f =>
    f.2.st != .free && f.2.bnds.any (fun b => b.2.shape.size != 0 && descKeyOf r.1 b.2 == some k)))
  { s with descs := s.descs.filter (fun d => bound d.1 || d.2.ring.subs.any (fun b => b.2.st != .empty) || d.2.xq.isSome) }

/-- What the engines of a die hold for a region given up: copy jobs with their words, templates and their queues, merge sessions,
exchange queues (R175, R195, R212, R269). -/
def State.clearEngines (s : State) (r : Nat) : State :=
  let gone := (s.jobs.filter (fun j => j.tpl.rk == r)).map (fun j => j.id)
  let mine (t : Option Template) : Bool := match t with | some t => t.rk == r | none => false
  let island (i : Nat × Island) : Nat × Island := (i.1, { i.2 with
    tpls := i.2.tpls.filter (fun t => !(mine t.2))
    queues := (i.2.queues.map (fun q => (q.1, if q.2.rk == r && q.2.tpl != 0 then {} else q.2))).filter (fun q => q.2 != default) })
  ({ s with
      jobs := s.jobs.filter (fun j => j.tpl.rk != r), words := s.words.filter (fun w => !(gone.contains w.job))
      descs := s.descs.map (fun d => (d.1, { d.2 with
        xq := match d.2.xq with | some x => if x.rk == r then none else some x | none => none })) } : State).modDie (rkDie r) (fun d => { d with
    islands := d.islands.map island, merges := d.merges.filter (fun m => !(m.2.opened && m.2.rk == r)) })

/-- A steward launch ends: its region, its bindings and what its engines hold are cleared, and its answer sent (R269). -/
def State.endSteward (s : State) (d status fcode : Nat) (rec : Option Record) : State :=
  match (s.die d).stw with
  | [] => s
  | j :: rest =>
    let s := (((s.clearElems (rkOf d 16)).clearEngines (rkOf d 16)).modRegion (rkOf d 16) Region.cleared).freeDescs
    let s := s.modDie d (fun x => { x with stw := rest })
    let entry := completionEntry j.launch.hdr status fcode 255 0 false 0 0 (j.launch.commits % 2 ^ 32) (j.launch.jobs % 2 ^ 32)
    let body := dwordBytes entry ++ (match rec with | some x => dwordBytes x.words | none => [])
    s.emit (.mgmt j.port (mgmtMsg 0x01 0 j.tag body))

/-- A record of the class "home or link" has SRC 3; what the home found names it, except where the record names an engine (R241, R242)
(log 130: DEDUCED). -/
def Record.byClass (x : Record) : Record :=
  if x.code == FCode.link.num then { x with src := 3 }
  else if x.code == FCode.ecc.num || x.code == FCode.syncOver.num || x.code == FCode.spillEx.num then
    { x with src := 3, place := { x.place with eng := if x.place.eng == 0 then 0x40 else x.place.eng } }
  else x

/-- A fault raised in a region (R241): a steward launch ends FAULTED at once (R269); else the record is sent to the steward, the
partition freezes with CAUSE 2, and the launch takes its policy. -/
def State.raiseAt (s : State) (c : FCode) (r : Nat) (x : Record) : State :=
  let x := x.byClass
  if isStw r then s.endSteward (rkDie r) 0x07 c.num (some { x with lnch := 0, wid := 0 })
  else match s.pidOf r with
    | none => s.report (rkDie r) x
    | some pid =>
      let s := s.report (rkDie r) x
      let s := s.stormMark (rkDie r) pid
      (s.policy pid (s.region r).lnch c).freezePart pid 2 c.num

/-- The record of a fault of an element's slot. -/
def State.slotRecord (s : State) (c : FCode) (e n : Nat) : Record :=
  let r := ekRegion e
  let frm := ((s.elem e).slots.get n).frm - 1
  s.recordAt c r (s.frame r frm).soff { ex := ekX e, ey := ekY e, slot := n, frm := frm }

/-- A runtime fault of a firing (R95): the element holds still, the fault is raised. -/
def State.raiseElem (s : State) (c : FCode) (e : Nat) (x : Record) : State :=
  let s' := s.raiseAt c (ekRegion e) x
  if isStw (ekRegion e) then s' else s'.modElem e (fun el => { el with hold := .fault })

/-- A fault of a firing with no address. -/
def State.raiseSlot (s : State) (c : FCode) (e n : Nat) : State := s.raiseElem c e (s.slotRecord c e n)

/-- A fault of a firing's access, with the faulting address (R152). -/
def State.raiseAccess (s : State) (c : FCode) (e n va : Nat) : State :=
  s.raiseElem c e { s.slotRecord c e n with vav := true, va := va }

/-- TRAP (R244, R405): a record for the launch's trap queue; only the element holds. In a steward launch it ends the launch. -/
def State.raiseTrap (s : State) (e n detail : Nat) : State :=
  let x := { s.slotRecord .trap e n with detail := detail }
  if isStw (ekRegion e) then s.raiseAt .trap (ekRegion e) x
  else (s.modElem e (fun el => { el with hold := .trap s.nextId none })).report (ekDie e) x

/-- Thaw a FROZEN partition (R224): RUNNING when a launch is resident, else IDLE; every element that a fault held runs again. -/
def State.thawPart (s : State) (pid : Nat) : State :=
  let p := s.part pid
  let busy := p.launches.any (fun l => l.rect.isSome)
  let s := s.modPart pid (fun p =>
    { p with
      frozen := []
      pstat := putBits (putBits p.pstat 0 1 0) 61 3 (if busy then 2 else 1)
      launches := p.launches.map (fun l => { l with fault := none }) })
  { s with elems := s.elems.map (fun x =>
      if s.pidOf (ekRegion x.1) == some pid && x.2.hold == .fault then (x.1, { x.2 with hold := .run }) else x) }

/-- Thaw one trapped element (R244, R402). -/
def State.thawElem (s : State) (e : Nat) : State := s.modElem e (fun el => { el with hold := .run })

/-! Packets. -/

/-- A packet with the TAG of the entry it is sent through (R85). -/
def tagged (w : Lane) (p : Packet) : Packet := { p with tag := tTag w }

/-- The unfinished posted writes among a list (R158): those a release still covers. -/
def State.live (s : State) (ids : List Nat) : List Nat :=
  ids.filter (fun i => s.reqs.any (fun q => q.id == i && (q.phase == .rwb || q.phase == .qeq || q.phase == .deq
    || q.phase == .xlat || q.phase == .home || q.phase == .wait || q.phase == .remote))
    || s.tileQ.any (fun t => t.2.any (fun q => q.id == i)))

/-- The writes among a list whose answers have not come (R168). -/
def State.unanswered (s : State) (ids : List Nat) : List Nat :=
  ids.filter (fun i => s.reqs.any (fun q => q.id == i) || s.tileQ.any (fun t => t.2.any (fun q => q.id == i)))

/-- How far a posted write has come, as the widest tier at which it is performed (R155); a write still at the requester is
performed nowhere. -/
def performedTier (q : Req) : Nat :=
  match q.phase with
  | .xlat => 0
  | .rwb => 1
  | .qeq => 2
  | .deq => 3
  | .home => 0
  | .wait => 0
  | .remote => 3
  | .resp => 5

/-- Is every write of a list performed at a tier? A SCAT's words are performed when the bank applies them (R162). -/
def State.performed (s : State) (tier : Nat) (ids : List Nat) : Bool :=
  s.reqs.all (fun q => !(ids.contains q.id) || tier ≤ performedTier q)
    && s.tileQ.all (fun t => t.2.all (fun q => !(ids.contains q.id)))

/-- The site that holds the bridge of a logical link: to the east of (c, r), or to its north (R21). -/
def State.bridgeEast (s : State) (c r : Nat) : Nat := s.cols * r + (2 * c + r % 2 + 1) / 2
def State.bridgeNorth (s : State) (c r : Nat) : Nat := s.cols * (r + 1) + (2 * c + r % 2) / 2

/-- The name of a router port or bridge channel (R375): KIND, SITE, REG, EDGE (0 west, 1 east, 2 south, 3 north), CH. -/
def portBits (kind site reg edge ch : Nat) : Nat := kind * 2 ^ 14 + site * 2 ^ 7 + reg * 8 + edge * 2 + ch

/-- The VSN that stands at a physical site. -/
def State.vsnOf (s : State) (p : Nat) : Nat := ((List.range s.ndies).find? (fun v => s.physSite v == p)).getD p

/-- The two bridge channels that pair the logical link to the east of a physical die, or to its north (R21) (log 46: DEDUCED). -/
def State.linkWords (s : State) (p : Nat) (north : Bool) : List Nat :=
  let c := p % s.cols
  let r := p / s.cols
  if north then
    let site := s.vsnOf (s.bridgeNorth c r)
    [portBits 1 site 0 2 0, portBits 1 site 0 (if r % 2 == 0 then 1 else 0) 1]
  else
    let site := s.vsnOf (s.bridgeEast c r)
    [portBits 1 site 0 0 0, portBits 1 site 0 1 0]

/-- The regions that a packet leaves on its way, with the edges by which it does: along x, then along y (R80). -/
def State.exits (s : State) (a b : Nat) : List (Nat × Nat) :=
  let x0 := s.gxOf a
  let y0 := s.gyOf a
  let x1 := s.gxOf b
  let y1 := s.gyOf b
  let out (x y edge : Nat) : List (Nat × Nat) := match s.rkAt x y with | some q => [(q, edge)] | none => []
  (List.range (x1 - x0)).flatMap (fun i => out (x0 + i) y0 1) ++ (List.range (x0 - x1)).flatMap (fun i => out (x0 - i) y0 0)
    ++ (List.range (y1 - y0)).flatMap (fun i => out x1 (y0 + i) 3) ++ (List.range (y0 - y1)).flatMap (fun i => out x1 (y0 - i) 2)

/-- The route words that a packet meets where it leaves a region by an edge: that port's, the facing port's, and at a die edge those
of the bridge's channels (R222, R375). -/
def State.exitWords (s : State) (q edge : Nat) : List Nat :=
  let gx := s.gxOf q
  let gy := s.gyOf q
  let next := match edge with | 0 => s.rkAt (gx - 1) gy | 1 => s.rkAt (gx + 1) gy | 2 => s.rkAt gx (gy - 1) | _ => s.rkAt gx (gy + 1)
  let here := portBits 0 (rkDie q) (rkReg q) edge 0
  match next with
  | none => [here]
  | some n =>
    let there := portBits 0 (rkDie n) (rkReg n) (if edge % 2 == 0 then edge + 1 else edge - 1) 0
    let links := if rkDie n == rkDie q then []
      else s.linkWords (s.physDie (if edge == 1 || edge == 3 then rkDie q else rkDie n)) (2 ≤ edge)
    here :: there :: links

/-- Does a route word in force stop a partition's packets: BLK, or another PID (R375)? -/
def wordStops (w : BitVec 32) (pid : Option Nat) : Bool :=
  w.getLsbD 31 && (w.getLsbD 30 || pid != some (w.extractLsb' 22 8).toNat)

/-- Does a route word on the way stop a packet between two elements (R222)? (log 46: DEDUCED) -/
def State.routeStops (s : State) (e c : Nat) : Bool :=
  let a := ekRegion e
  !(s.panel.routes.isEmpty) && !(isStw a) && (s.exits a (ekRegion c)).any (fun x => (s.exitWords x.1 x.2).any (fun k =>
    wordStops (s.panel.routes.get k) (s.pidOf a)))

/-! Routes over the logical links (R21, R25). -/

/-- The physical dies and bridges passed from one physical die to another: along c, then along r (R25) (log 104: DEDUCED). -/
def State.routeIds (s : State) (src dst : Nat) : List Nat :=
  let w := s.cols
  let c0 := src % w
  let r0 := src / w
  let c1 := dst % w
  let r1 := dst / w
  let xs := List.range (max c0 c1 - min c0 c1)
  let ys := List.range (max r0 r1 - min r0 r1)
  [idFabric src]
    ++ xs.map (fun i => idBridge (s.bridgeEast (min c0 c1 + i) r0))
    ++ xs.map (fun i => idFabric (w * r0 + (if c0 < c1 then c0 + 1 + i else c0 - 1 - i)))
    ++ ys.map (fun i => idBridge (s.bridgeNorth c1 (min r0 r1 + i)))
    ++ ys.map (fun i => idFabric (w * (if r0 < r1 then r0 + 1 + i else r0 - 1 - i) + c1))

/-- The entry die of a physical stack (R25): the die to its west, or at x = 1 for a stack at x = 0 (log 104: DEDUCED). -/
def State.entryDie (s : State) (site : Nat) : Nat :=
  let y := site / s.cols
  let x := 2 * (site % s.cols) + (y + 1) % 2
  if x == 0 then s.cols * y else s.cols * y + (x - 1) / 2

/-- The physical fabric dies that a port die is attached to (R24) (log 92: DEDUCED). -/
def portDies : Form → Nat → List Nat
  | .module80, p => match p with | 0 => [16, 32] | 1 => [48, 64] | 2 => [15, 31] | _ => [47, 63]
  | .package16, _ => [0, 8]
  | .ikbD _ _ ps, p => ps.getD p []

/-- The channel, at a die of row r, of the logical link to the south (R21): the east edge's channel 1 in an even row, the west edge's
in an odd one. A channel is numbered twice its edge and one more for channel 1 (R253). -/
def southLink (r : Nat) : Nat := if r % 2 == 0 then 3 else 1

/-- The channels of fabric dies that a route from one physical die to another crosses: both ends of each logical link (R21, R25). -/
def State.hopChans (s : State) (src dst : Nat) : List (Nat × Nat) :=
  let w := s.cols
  let c0 := src % w
  let r0 := src / w
  let c1 := dst % w
  let r1 := dst / w
  (List.range (max c0 c1 - min c0 c1)).flatMap (fun i => [(w * r0 + min c0 c1 + i, 2), (w * r0 + min c0 c1 + i + 1, 0)])
    ++ (List.range (max r0 r1 - min r0 r1)).flatMap (fun i =>
      [(w * (min r0 r1 + i) + c1, 6), (w * (min r0 r1 + i + 1) + c1, southLink (min r0 r1 + i + 1))])

/-- The last step to a physical stack: the entry die's east edge, channel 1, or its west edge, channel 0, for a stack at x = 0 (R25). -/
def State.lastChan (s : State) (site : Nat) : Nat × Nat :=
  (s.entryDie site, if site % s.cols == 0 && site / s.cols % 2 == 1 then 0 else 3)

/-- Does a channel of a fabric die carry data (R253 KEYED)? -/
def State.carries (s : State) (c : Nat × Nat) : Bool := (s.ident (idFabric c.1)).das.getLsbD (8 + c.2)

/-- Is the way between two physical dies open: every die and bridge on it ACTIVE, every channel carrying data (R25, R28, R255)? -/
def State.pathOpen (s : State) (src dst : Nat) : Bool :=
  src == dst || ((s.routeIds src dst).all (fun k => s.isActive k) && (s.hopChans src dst).all s.carries)

/-- Does a port die's attachment to a physical die carry data: one of its two channels (R24)? (log 112: DESIGN CHOICE) -/
def State.attachOpen (s : State) (p : Nat) : Bool :=
  let e := if p % s.cols == 0 && p / s.cols % 2 == 0 then 0 else 1
  s.carries (p, 2 * e) || s.carries (p, 2 * e + 1)

/-- The attached die by which a port die's traffic enters and leaves: the first (R24, R25) (log 111: DESIGN CHOICE). -/
def State.portEntry (s : State) (q : Nat) : Nat := (portDies s.panel.form q).headD 0

/-- Is the way of event class from a physical fabric die to a port die open: by the route that R25 gives memory class to a die to which
the port die is attached, every die and bridge ACTIVE, every channel carrying data (R24, R27, R28)? (log 112: DESIGN CHOICE) -/
def State.portOpen (s : State) (src q : Nat) : Bool :=
  s.isActive (idFabric src) && s.isActive (idPort q)
    && (portDies s.panel.form q).any (fun p => s.isActive (idFabric p) && s.pathOpen src p && s.attachOpen p)

/-- The element that a destination's packets go to over the operand network; none for an island. -/
def destElem : Dest → Option Nat
  | .field e _ _ => some e
  | .chan e _ => some e
  | .node e => some e
  | _ => none

/-- What stops a packet that leaves an element: a die that is not ACTIVE (R58), a route word on the way (R222)
(log 46: DEDUCED; log 71: DEDUCED). -/
def State.sendStop (s : State) (e : Nat) (d : Dest) : Option FCode :=
  if destDie d != ekDie e && !s.dieActive (destDie d) then some .quarantine
  else if (match destElem d with | some c => s.routeStops e c | none => false) then some .bounds
  else none

/-- A packet put into the network through a target entry (R76, R80). A packet for a die that is not ACTIVE is discarded and
F_QUARANTINE is raised against the producer (R58); one that a route word stops is discarded with F_BOUNDS (R222). -/
def State.sendEntry (s : State) (e n frm : Nat) (t : Nat) (p : Packet) : State :=
  let w := (s.elem e).t.get t
  match s.destOf e w with
  | none => s
  | some d =>
    match s.sendStop e d with
    | some c => s.raiseSlot c e n
    | none =>
      let f : Flit := { pkt := tagged w p, src := some (e, t), slot := n, rk := ekRegion e, frm := frm, dst := d }
      { s.modElem e (fun el => { el with spent := if tFld w < 3 then t :: el.spent.erase t else el.spent }) with
        net := s.net ++ [f] }

/-- An output channel with a packet put in: at the end, or in a place of its own behind those kept for results still to come (R90). -/
def OutCh.put (o : OutCh) (p : Packet) (n : Nat) : OutCh :=
  if o.tix.isEmpty then { o with q := o.q ++ [(p, n)] }
  else { o with rsv := o.rsv + 1, tix := o.tix ++ [o.no], early := o.early ++ [(o.no, p, n)], no := o.no + 1 }

/-- An output channel whose oldest places, of a list, are taken by the packets that have come for them. -/
def OutCh.settle : List Nat → OutCh → OutCh
  | [], o => o
  | k :: ks, o =>
    match o.early.find? (fun x => x.1 == k) with
    | some (_, p, n) =>
      OutCh.settle ks { o with q := o.q ++ [(p, n)], rsv := o.rsv - 1, tix := ks, early := o.early.filter (fun x => x.1 != k) }
    | none => o

/-- An output channel with a place kept (R314), with a packet for a place, and with a place given back. -/
def OutCh.keep (o : OutCh) : OutCh := { o with rsv := o.rsv + 1, tix := o.tix ++ [o.no], no := o.no + 1 }
def OutCh.fill (o : OutCh) (k : Nat) (p : Packet) (n : Nat) : OutCh := OutCh.settle o.tix { o with early := o.early ++ [(k, p, n)] }
def OutCh.drop (o : OutCh) (k : Nat) : OutCh :=
  let ks := o.tix.erase k
  OutCh.settle ks { o with rsv := o.rsv - 1, tix := ks }

/-- An output channel as the firing with a place sees it, with the places before its own, and the channel that its firing leaves, with the
places behind (R90). -/
def OutCh.upTo (o : OutCh) (k : Nat) : OutCh :=
  let ks := o.tix.takeWhile (· != k)
  { o with tix := ks, rsv := ks.length, early := o.early.filter (fun x => ks.contains x.1), no := k }
def OutCh.rejoin (n o : OutCh) (k : Nat) : OutCh :=
  let ks := (o.tix.dropWhile (· != k)).drop 1
  let tix := n.tix ++ ks
  OutCh.settle tix { n with tix := tix, rsv := tix.length, early := n.early ++ o.early.filter (fun x => ks.contains x.1), no := o.no }

/-- The output channel that DT names, if any (R76). -/
def dtOut (dt : BitVec 4) : Option Nat := if 4 ≤ dt.toNat && dt.toNat < 8 then some (dt.toNat - 4) else none

def State.modOut (s : State) (e c : Nat) (f : OutCh → OutCh) : State :=
  s.modElem e (fun el => { el with outs := el.outs.modify c f })

/-- A result delivered to the destination of DT (R76): a data register, an output channel, or a target entry. -/
def State.toDt (s : State) (e n frm : Nat) (dt : BitVec 4) (p : Packet) : State :=
  let d := dt.toNat
  if d < 4 then s.modElem e (fun el => { el with d := el.d.set d (some { p with cov := [] }) })
  else if d < 8 then s.modOut e (d - 4) (fun o => o.put p n)
  else s.sendEntry e n frm (d - 8) p

/-- A result through TT, where TT names an entry. -/
def State.toTt (s : State) (e n frm : Nat) (tt : BitVec 4) (p : Packet) : State :=
  if tt.toNat < 8 then s.sendEntry e n frm tt.toNat p else s

/-- A result sent to DT and TT (R76). Its release covers what the element's does (R162). -/
def State.deliver (s : State) (e n frm : Nat) (dt tt : BitVec 4) (p : Packet) : State :=
  let p := { p with cov := s.live (s.elem e).cov }
  (s.toDt e n frm dt p).toTt e n frm tt p

/-- The entries that DT and TT name (R72, R76). -/
def entriesOf (dt tt : BitVec 4) : List Nat :=
  (if 8 ≤ dt.toNat then [dt.toNat - 8] else []) ++ (if tt.toNat < 8 then [tt.toNat] else [])

/-- The entries that the packets of a firing's result leave through (R76). -/
def Act.entries (o : Slot) (a : Act) : List Nat :=
  match a.via, a.out with
  | some j, some _ => [o.dt.toNat - 8 + j]
  | none, some _ => entriesOf o.dt o.tt
  | _, none => if a.queue.isEmpty then [] else entriesOf o.dt 8

/-- What stops a packet that would leave an element through one of some entries (R58, R222) (log 126: DEDUCED). -/
def State.outStop (s : State) (e : Nat) (ts : List Nat) : Option FCode :=
  ts.findSome? (fun t => (s.destOf e ((s.elem e).t.get t)).bind (s.sendStop e))

/-- Credits and channel space spent for a result that comes later (R314). -/
def State.reserve (s : State) (e : Nat) (dt tt : BitVec 4) : State :=
  s.modElem e (fun el =>
    { el with
      spent := (entriesOf dt tt).filter (fun t => tFld (el.t.get t) < 3) ++ el.spent
      outs := match dtOut dt with | some c => el.outs.modify c OutCh.keep | none => el.outs })

/-- The credits that `reserve` spent, given back. -/
def State.freeEntries (s : State) (t : Ret) : State :=
  s.modElem t.e (fun el => { el with spent := (entriesOf t.dt t.tt).foldl (fun l x => l.erase x) el.spent })

/-- What `reserve` spent, given back (R152, R314). -/
def State.release (s : State) (t : Ret) : State :=
  match dtOut t.dt with
  | some c => (s.freeEntries t).modOut t.e c (fun o => o.drop t.ord)
  | none => s.freeEntries t

/-- A packet sent to where a firing's result goes, in the place kept for it (R90, R314). -/
def State.fulfil (s : State) (t : Ret) (p : Packet) : State :=
  let s := s.freeEntries t
  (match dtOut t.dt with
    | some c => s.modOut t.e c (fun o => o.fill t.ord p t.slot)
    | none => s.toDt t.e t.slot t.frm t.dt p).toTt t.e t.slot t.frm t.tt p

/-- The result of a response, in the place kept for it (R314) (log 53: DEDUCED). -/
def State.answer (s : State) (t : Ret) (p : Packet) : State := s.fulfil t { p with cov := s.live (s.elem t.e).cov }

/-! What a firing reads. -/

/-- The next state of a firing (R75). -/
def nextSt (o : Slot) (st : BitVec 6) : BitVec 6 :=
  match o.nsm.toNat with
  | 0 => o.ns
  | 1 => (st &&& ~~~o.gm) ||| (o.ns &&& o.gm)
  | _ => st

/-- The operand that a packet held somewhere is. -/
def heldOp : Option Held → Operand
  | some h => .pkt h.pkt
  | none => .const 0

/-- A source selector (R71, R74) (log 24: DEDUCED). -/
def State.source (s : State) (e n : Nat) (f : Fn) (sel : BitVec 4) : Operand :=
  let el := s.elem e
  let sl := el.slots.get n
  match sel.toNat with
  | 0 | 1 | 2 | 3 => match el.d.get sel.toNat with | some p => .pkt p | none => .clear
  | 4 | 5 | 6 | 7 => heldOp ((el.ins.get (sel.toNat - 4)).q.head?)
  | 8 => heldOp sl.l
  | 9 => heldOp sl.r
  | 10 => heldOp sl.p
  | 11 => .const (el.k.get ((fnBits f).toNat / 16))
  | 12 => .const (el.st.setWidth 32)
  | 13 => .const (s.widField (ekRegion e) ((fnBits f).toNat / 16))
  | 14 => .const el.es
  | _ => .const 0

/-- The anchor of the matrix node that an element belongs to (R184). -/
def State.nodeAt (s : State) (e : Nat) : Option Nat :=
  (s.nodes.find? (fun x => ekRegion x.1 == ekRegion e && ekX x.1 ≤ ekX e && ekX e < ekX x.1 + x.2.size
    && ekY x.1 ≤ ekY e && ekY e < ekY x.1 + x.2.size)).map (fun x => x.1)

/-- The frame of a slot position. -/
def State.slotFrame (s : State) (e n : Nat) : Nat := ((s.elem e).slots.get n).frm - 1

/-- What a firing sees. -/
def State.envOf (s : State) (e n : Nat) (o : Slot) (f : Fn) : Env :=
  let el := s.elem e
  let sl := el.slots.get n
  let fr := s.frame (ekRegion e) (sl.frm - 1)
  { a := s.source e n f o.sa, b := s.source e n f o.sb, p := sl.p.map (fun h => h.pkt),
    ftz := fr.flags.ftz, inf8 := fr.flags.inf8, rnd := fr.flags.rnd, fcw := el.fcw, node := (s.nodeAt e).isSome,
    accs := el.acc, k := el.k, d := el.d, ctr := sl.ctr, ptr := sl.ptr, lut := fr.lut }

/-! The trigger effects of a firing (R75, R76, R89). -/

/-- The channels of a mask. -/
def maskList (m : BitVec 4) : List Nat := (List.range 4).filter (fun i => m.getLsbD i)

/-- The packets a firing takes in: heads of its channels and its awaited fields. -/
def takenBy (el : Elem) (n : Nat) (chans : BitVec 4) : List Held :=
  let sl := el.slots.get n
  (maskList chans).filterMap (fun c => (el.ins.get c).q.head?)
    ++ (if sl.aw.getLsbD 0 then sl.l.toList else []) ++ (if sl.aw.getLsbD 1 then sl.r.toList else [])
    ++ (if sl.aw.getLsbD 2 then sl.p.toList else [])

/-- An element after the trigger effects of a firing of slot n that dequeues some channels: the next state, the dequeues, the
emptied fields, the writes it now sees through what it consumed (R158). -/
def triggerElem (el : Elem) (n : Nat) (o : Slot) (chans : BitVec 4) : Elem :=
  let sl := el.slots.get n
  { el with
    st := nextSt o el.st
    ins := (maskList chans).foldl (fun m c => m.modify c (fun x => { x with q := x.q.drop 1 })) el.ins
    slots := el.slots.set n { sl with
      l := if sl.aw.getLsbD 0 then none else sl.l
      r := if sl.aw.getLsbD 1 then none else sl.r
      p := if sl.aw.getLsbD 2 then none else sl.p
      aged := false }
    cov := (el.cov ++ (takenBy el n chans).flatMap (fun h => h.pkt.cov)).eraseDups
    lastSel := n }

/-- The trigger effects on the machine: besides the element's, the credits of the emptied fields start back (R76), and a consumed
token, being an acquire, empties the region's prefetch buffer (R156) (log 54: DEDUCED). -/
def State.trigger (s : State) (e n : Nat) (o : Slot) (chans : BitVec 4) : State :=
  let taken := takenBy (s.elem e) n chans
  let s := { s.setElem e (triggerElem (s.elem e) n o chans) with
    creds := s.creds ++ taken.filterMap (fun h : Held => h.src) }
  let s := s.touch (ekRegion e)
  if taken.isEmpty then s
  else s.modRegion (ekRegion e) (fun x => { x with prefetch := [] })

/-! Completing a firing (R89 stage W). -/

/-- What a firing that completes in its element does to it (R89): flags, accumulators, a data register, the slot's counter, and
bits of ST (R398), whose change the trigger stage sees later (R91). -/
def finishElem (el : Elem) (n : Nat) (a : Act) : Elem :=
  { el with
    es := el.es ||| a.flags
    st := (el.st &&& ~~~a.stMask) ||| (a.stVal &&& a.stMask)
    late := el.late ^^^ ((el.st ^^^ a.stVal) &&& a.stMask)
    acc := a.acc.foldl (fun m x => m.set x.1 x.2) el.acc
    d := match a.dreg with | some (i, p) => el.d.set i (some p) | none => el.d
    slots := el.slots.modify n (fun sl => { sl with ctr := a.ctr.getD sl.ctr, ptr := a.ptr.getD sl.ptr }) }

/-- The packets of a firing sent: through one entry, or one result through DT and TT, or a result through each (R76). -/
def State.send (s : State) (e n frm : Nat) (o : Slot) (a : Act) : State :=
  let cov := s.live (s.elem e).cov
  let s := a.queue.foldl (fun s p => s.toDt e n frm o.dt { p with cov := cov }) s
  match a.via, a.out with
  | some j, some p => s.sendEntry e n frm (o.dt.toNat - 8 + j) { p with cov := cov }
  | none, some p =>
    match a.second with
    | some q => (s.toDt e n frm o.dt { p with cov := cov }).toTt e n frm o.tt { q with cov := cov }
    | none => s.deliver e n frm o.dt o.tt p
  | _, none => s

/-- A firing completed (R89). -/
def State.complete (s : State) (e n : Nat) (o : Slot) (a : Act) : State :=
  (s.modElem e (fun el => finishElem el n a)).send e n (s.slotFrame e n) o a

/-- The answer's receiver: the firing in progress, with the place that its result will be kept. -/
def State.retOf (s : State) (e n : Nat) (o : Slot) (hdr : Packet) : Ret :=
  { e := e, slot := n, rk := ekRegion e, frm := s.slotFrame e n, dt := o.dt, tt := o.tt, hdr := hdr,
    ord := match dtOut o.dt with | some c => ((s.elem e).outs.get c).no | none => 0 }

/-! Firing a slot. -/

/-- A firing of slot `s.cur`: what it computes from its sources decides; a fault leaves no effect but the held element and the
fault (R95); else the trigger effects are made and then the rest (log 35: DEDUCED). -/
def fireWith (o : Slot) (f : Fn) (g : State → Nat → Nat → Env → Except FCode (State → State)) (s : State) :
    Host.Outcome State Fault Refusal :=
  match g s s.cur.1 s.cur.2 (s.envOf s.cur.1 s.cur.2 o f) with
  | .error c => .next (s.raiseSlot c s.cur.1 s.cur.2)
  | .ok k => .next (k (s.trigger s.cur.1 s.cur.2 o o.icn))

/-- What a firing does whose packets leave at stage W through some entries: it faults, with no effect of its own, where the way of one
is stopped (R58, R95, R222) (log 126: DEDUCED). -/
def State.leaving (s : State) (e : Nat) (ts : List Nat) (k : State → State) : Except FCode (State → State) :=
  match s.outStop e ts with
  | some c => .error c
  | none => .ok k

/-- A firing that completes in its element. -/
def fire (o : Slot) (f : Fn) (act : Fn → Env → Except FCode Act) (s : State) : Host.Outcome State Fault Refusal :=
  fireWith o f (fun s e n env => do
    let a ← act f env
    s.leaving e (a.entries o) (fun s' => s'.complete e n o a)) s

end Sys2Proof.Machine
end

