-- ==== Sys2Proof/Machine/Image.lean ====
section
/-! DEFINITION. Block images (R288 to R296) and initial-token images (R298): their parsing, with the checks that a header and its
records meet taken alone (checks 1 and 2 of R51). -/

namespace Sys2Proof.Machine

/-- The sum of fields of a word as they stand, with KIND or OP kept: equal to the word when every other bit is zero. -/
def onlyFields (w : Dword) (top : Nat) (fs : List (Nat × Nat)) : Bool :=
  w.toNat == fs.foldl (fun a x => a + bitsOf w x.1 x.2 * 2 ^ x.1) (bitsOf w top (64 - top) * 2 ^ top)

/-- One header entry (R291). -/
inductive Entry where
  | fcw (e : Nat) (w : BitVec 32)
  | kcon (e n : Nat) (v : Lane)
  | tent (e n : Nat) (v : Lane)
  | chmap (e n t : Nat)
  | stst (e : Nat) (st : BitVec 6)
  | loop (k c : Nat) (stride : BitVec 32)
  | itgt (t : Target)
  | bnda (b : Nat) (w : Dword)
  | bndb (b : Nat) (w : Dword)
  | bndc (b : Nat) (w : Dword)
  | init (t : Target) (p : Packet)
  | place (ps : List (Nat × Nat))
  | lut (img : LutImage)
  | data (kind idx : Nat) (ws : List Dword)
  deriving DecidableEq, Repr

/-! The single checks. -/

/-- Is an FCW legal (R97, R98)? -/
def fcwLegal (w : BitVec 32) : Bool :=
  let x := w.toNat
  let mode := x / 2 ^ 26 % 4
  let dotl := x / 2 ^ 23 % 8
  let sgn := x / 2 ^ 21 % 4
  let lanes := x / 2 ^ 11 % 2 ^ 10
  let awh := x / 2 ^ 7 % 16
  let bwh := x / 2 ^ 3 % 16
  x == 0 ||
  (x / 2 ^ 28 == 0 && x % 8 == 0 && mode != 3 && dotl ≤ 5 && 1 ≤ lanes && lanes ≤ 576
    && lanes * (awh + 1) * (bwh + 1) ≤ 576
    && (mode == 0 || (lanes ≤ 144 && sgn == 0 && dotl == (if 11 ≤ awh || 11 ≤ bwh then 2 else 5))))

/-- The header of a packet in an image (R83), with its lanes still to come; none where R83 or R84 forbids it. -/
def imagePk (h : Dword) : Option (Nat × Packet) :=
  let p : Packet := { kind := h.extractLsb' 62 2, seq := h.extractLsb' 46 16, tag := h.extractLsb' 39 7, eof := h.extractLsb' 37 2,
                      sce := h.extractLsb' 29 8, sc := h.getLsbD 28, fpx := h.extractLsb' 25 3, fmt := h.extractLsb' 21 4 }
  if bitsOf h 0 18 == 0 && (tyOfFmt p.fmt p.fpx).isSome then some (bitsOf h 18 3 + 1, p) else none

/-- The lanes of a packet in an image; none where the unused half of the last doubleword is not zero (R291). -/
def imageLanes (n : Nat) (ws : List Dword) : Option (List Lane) :=
  let ls := ws.flatMap (fun w => [w.extractLsb' 0 32, w.extractLsb' 32 32])
  if (ls.drop n).all (fun l => l == 0) then some (ls.take n) else none

/-- An INIT entry's target. -/
def entryTarget (w : Dword) : Target := { eidx := bitsOf w 54 6, slot := bitsOf w 49 5, fld := bitsOf w 47 2 }

/-- A packet and the doublewords it takes, from its header on. -/
def imagePacket (ws : List Dword) : Option (Packet × Nat) :=
  match ws with
  | [] => none
  | h :: rest =>
    match imagePk h with
    | none => none
    | some (n, p) =>
      let k := (n + 1) / 2
      if rest.length < k then none
      else (imageLanes n (rest.take k)).map (fun ls => ({ p with lanes := ls }, k + 1))

/-- The placements of a PLACE entry (R293). -/
def placesOf (w : Dword) : Option (List (Nat × Nat)) :=
  let cnt := bitsOf w 57 3
  let all := [46, 35, 24, 13, 2].map (fun lo => (bitsOf w (lo + 5) 6, bitsOf w lo 5))
  if 1 ≤ cnt && cnt ≤ 5 && (all.drop cnt).all (fun p => p == (0, 0))
      && onlyFields w 57 [(46, 11), (35, 11), (24, 11), (13, 11), (2, 11)] then some (all.take cnt)
  else none

/-- The image of the LUT island; a select that breaks R193 or R293 makes it illegal. -/
def lutOf (n : Nat) (ws : List Dword) : Option LutImage :=
  let cells := (ws.take n).map (fun w =>
    (w.extractLsb' 48 16, [bitsOf w 0 12, bitsOf w 12 12, bitsOf w 24 12, bitsOf w 36 12]))
  let outs := (ws.drop n).flatMap (fun w => [bitsOf w 0 12, bitsOf w 16 12, bitsOf w 32 12, bitsOf w 48 12])
  let cellsOk := (List.range n).all (fun i => (((cells.getD i (0, [])).2).all (fun x => x < 64 + i)))
  if cellsOk && outs.all (fun x => x < 64 + n)
      && (ws.drop n).all (fun w => bitsOf w 12 4 == 0 && bitsOf w 28 4 == 0 && bitsOf w 44 4 == 0 && bitsOf w 60 4 == 0) then
    some { cells := cells, outs := outs }
  else none

/-- Bits of a record's doubleword. -/
def recBits (ws : List Dword) (n lo w : Nat) : Nat := bitsOf (ws.getD n 0) lo w

/-- Is a copy template record free of reserved bits and undefined codes (R301)? -/
def templateLegal (ws : List Dword) : Bool :=
  let dims := recBits ws 0 60 3
  let nbr := recBits ws 0 55 3 + 1
  let text (k : Nat) : Nat := if k == 0 then recBits ws 4 32 32 else if k == 1 then recBits ws 4 0 32
    else if k == 2 then recBits ws 5 32 32 else if k == 3 then recBits ws 5 0 32 else recBits ws 6 32 32
  let tlen (k : Nat) : Nat := if k < 4 then recBits ws 7 (48 - 16 * k) 16 else recBits ws 8 48 16
  1 ≤ dims && dims ≤ 5 && recBits ws 0 0 41 == 0 && recBits ws 2 32 32 == 0 && recBits ws 6 0 32 == 0 && recBits ws 8 0 48 == 0
    && (List.range 5).all (fun k => k < dims || (text k == 0 && tlen k == 0 && (k == 0 || (ws.getD (8 + k) 0) == 0)))
    && (List.range 8).all (fun k => if k < nbr then recBits ws (13 + k) 62 2 != 3 && recBits ws (13 + k) 26 20 == 0
        else (ws.getD (13 + k) 0) == 0)
    && (ws.getD 21 0) == 0 && (ws.getD 22 0) == 0 && (ws.getD 23 0) == 0

/-- Is a job card record legal (R302)? -/
def cardLegal (ws : List Dword) : Bool :=
  (List.range 4).all (fun f =>
    let v := recBits ws (2 * f + 1) 63 1
    let space := recBits ws (2 * f + 1) 60 2
    let idx := recBits ws (2 * f + 1) 50 10
    let len := recBits ws (2 * f + 1) 0 41
    if v == 0 then (ws.getD (2 * f) 0) == 0 && (ws.getD (2 * f + 1) 0) == 0
    else recBits ws (2 * f + 1) 41 9 == 0 && 1 ≤ len && len ≤ 2 ^ 40
      && (if space == 0 then idx == 0 else if space == 1 then idx < 8 else if space == 2 then idx < 256 else true))

/-! Entries. -/

/-- Does a word name an element of the footprint? -/
def inFoot (foot : BitVec 64) (e : Nat) : Bool := foot.getLsbD e

/-- The fields of the first word of each kind whose form is fixed (R291, R292). -/
def kindFields : Nat → List (Nat × Nat)
  | 1 => [(54, 6), (0, 32)]
  | 2 => [(54, 6), (50, 4), (0, 32)]
  | 3 => [(54, 6), (51, 3), (0, 32)]
  | 4 => [(54, 6), (52, 2), (49, 3)]
  | 5 => [(54, 6), (48, 6)]
  | 6 => [(58, 2), (34, 24), (0, 32)]
  | 7 => [(54, 6), (49, 5), (47, 2)]
  | 8 => [(57, 3), (55, 2), (45, 10), (43, 2), (40, 3), (36, 4), (33, 3), (13, 20)]
  | 9 => [(57, 3), (37, 20), (36, 1), (31, 5), (24, 7), (9, 15)]
  | 10 => [(57, 3), (41, 16), (35, 6), (30, 5), (28, 2)]
  | 11 => [(54, 6), (49, 5), (47, 2)]
  | 12 => [(57, 3), (46, 11), (35, 11), (24, 11), (13, 11), (2, 11)]
  | 13 => [(48, 12)]
  | 14 => [(58, 2), (52, 6)]
  | _ => []

/-- The kinds whose entries name an element by EIDX. -/
def kindNames (k : Nat) : Bool := k ≤ 5 || k == 7 || k == 11

/-- An entry, its key, and the raw doublewords it takes (R291 to R293, R295); none where a check fails. -/
def parseEntry (foot : BitVec 64) (ix : Nat) (w : Dword) (rest : List Dword) : Option (Entry × Nat × Nat) :=
  let kind := bitsOf w 60 4
  let e := bitsOf w 54 6
  let t := entryTarget w
  let tkey := (e * 32 + t.slot) * 4 + t.fld
  let b := bitsOf w 57 3
  if !(onlyFields w 60 (kindFields kind)) || (kindNames kind && !inFoot foot e) then none
  else match kind with
    | 1 => if fcwLegal (w.extractLsb' 0 32) then some (.fcw e (w.extractLsb' 0 32), e, 0) else none
    | 2 => some (.kcon e (bitsOf w 50 4) (w.extractLsb' 0 32), e * 16 + bitsOf w 50 4, 0)
    | 3 => some (.tent e (bitsOf w 51 3) (w.extractLsb' 0 32), e * 8 + bitsOf w 51 3, 0)
    | 4 => some (.chmap e (bitsOf w 52 2) (bitsOf w 49 3), e * 4 + bitsOf w 52 2, 0)
    | 5 => some (.stst e (w.extractLsb' 48 6), e, 0)
    | 6 => if bitsOf w 34 24 == 0 then none else some (.loop (bitsOf w 58 2) (bitsOf w 34 24) (w.extractLsb' 0 32), bitsOf w 58 2, 0)
    | 7 => if t.fld == 3 then none else some (.itgt t, tkey, 0)
    | 8 =>
      if bitsOf w 55 2 == 3 || bitsOf w 43 2 == 3 || (tyOfFmt (w.extractLsb' 36 4) (w.extractLsb' 33 3)).isNone then none
      else some (.bnda b w, b, 0)
    | 9 => if bitsOf w 36 1 == 0 && bitsOf w 9 27 != 0 then none else some (.bndb b w, b, 0)
    | 10 => if bitsOf w 28 2 == 3 || !(inFoot foot (bitsOf w 35 6)) then none else some (.bndc b w, b, 0)
    | 11 =>
      if t.fld == 3 then none
      else (imagePacket rest).map (fun x => (.init t x.1, tkey, x.2))
    | 12 =>
      match placesOf w with
      | some ps => if ps.all (fun p => inFoot foot p.1) then some (.place ps, ix, 0) else none
      | none => none
    | 13 =>
      let n := bitsOf w 48 12
      if n == 0 || 2048 < n || rest.length < n + 16 then none
      else (lutOf n (rest.take (n + 16))).map (fun i => (.lut i, 0, n + 16))
    | 14 =>
      let rk := bitsOf w 58 2
      let n := if rk == 1 then 24 else 8
      if rk == 0 || rk == 3 || rest.length < n then none
      else
        let ws := rest.take n
        if (if rk == 1 then templateLegal ws else cardLegal ws) then some (.data rk (bitsOf w 52 6) ws, bitsOf w 52 6, n) else none
    | _ => none

/-- The entries of a header in ascending order of kind and key, the parse ending exactly with the words (R295). -/
def parseEntries (foot : BitVec 64) : Nat → Nat → Nat → List Dword → Option (List Entry)
  | _, _, _, [] => some []
  | 0, _, _, _ :: _ => none
  | fuel + 1, ix, last, w :: rest =>
    match parseEntry foot ix w rest with
    | none => none
    | some (x, key, n) =>
      let at' := bitsOf w 60 4 * 2 ^ 20 + key
      if at' ≤ last then none else (parseEntries foot fuel (ix + 1) at' (rest.drop n)).map (fun xs => x :: xs)

/-! The header. -/

/-- A parsed block header. -/
structure Header where
  hlen : Nat := 5
  nslot : Nat := 1
  nsucc : Nat := 0
  flags : BlockFlags := {}
  foot : BitVec 64 := 0
  succ : List Int := []
  entries : List Entry := []
  deriving DecidableEq, Repr

/-- The bytes of a header that CHECK covers, and the CRC-16 of R294. -/
def crcStep (c : Nat) (b : Byte) : Nat :=
  (List.range 8).foldl (fun c _ => if c / 2 ^ 15 % 2 == 1 then Nat.xor (c * 2 % 2 ^ 16) 0x1021 else c * 2 % 2 ^ 16)
    (Nat.xor c (b.toNat * 256))
def crc16 (bs : List Byte) : Nat := bs.foldl crcStep 0xFFFF

/-- Check 1 of R51 (R294). -/
def headerSync (ws : List Dword) : Bool :=
  let n := ws.length
  let last := ws.getD (n - 1) 0
  bitsOf (ws.getD 0 0) 48 16 == 0x5A3C && bitsOf last 60 4 == 15 && bitsOf last 0 16 == crc16 (dwordBytes (ws.take (n - 1)))

/-- HLEN and NSLOT of BH0. -/
def hlenOf (w : Dword) : Nat := bitsOf w 36 12
def nslotOf (w : Dword) : Nat := bitsOf w 28 8

/-- The rounding mode of RND (R289). -/
def rndOf (n : Nat) : Option Rnd :=
  match n with
  | 0 => some .rne | 1 => some .rtz | 2 => some .rup | 3 => some .rdn | 4 => some .rna | _ => none

/-- A header parsed from its doublewords, with the parts of check 2 that R289 to R295 state; `det` is the launch's flag (R35). -/
def parseHeader (det : Bool) (ws : List Dword) : Option Header :=
  let w0 := ws.getD 0 0
  let n := ws.length
  let last := ws.getD (n - 1) 0
  let nsucc := bitsOf w0 17 3
  let offs : List Nat := [recBits ws 2 32 32, recBits ws 2 0 32, recBits ws 3 32 32, recBits ws 3 0 32]
  let foot := ws.getD 1 0
  match rndOf (bitsOf w0 10 3) with
  | none => none
  | some rnd =>
    if nslotOf w0 == 0 || 128 < nslotOf w0 || bitsOf w0 20 8 == 0 || 4 < nsucc || foot == 0
        || !((offs.drop nsucc).all (fun x => x == 0)) || !(onlyFields last 60 [(0, 16)]) then none
    else
      (parseEntries foot n 0 0 ((ws.take (n - 1)).drop 4)).map (fun es =>
        { hlen := n, nslot := nslotOf w0, nsucc := nsucc, foot := foot,
          succ := (offs.take nsucc).map (fun x => sval 32 x), entries := es,
          flags := { cln := w0.getLsbD 16, dtm := w0.getLsbD 15 || det, ftz := w0.getLsbD 14, inf8 := w0.getLsbD 13, rnd := rnd,
                     drip := bitsOf w0 8 2, stmask := w0.extractLsb' 0 8, exitc := bitsOf w0 20 8 } })

/-! What a header's entries give. -/

def Header.fcws (h : Header) : List (Nat × BitVec 32) := h.entries.filterMap (fun x => match x with | .fcw e w => some (e, w) | _ => none)
def Header.kcons (h : Header) : List (Nat × Nat × Lane) :=
  h.entries.filterMap (fun x => match x with | .kcon e n v => some (e, n, v) | _ => none)
def Header.tents (h : Header) : List (Nat × Nat × Lane) :=
  h.entries.filterMap (fun x => match x with | .tent e n v => some (e, n, v) | _ => none)
def Header.chmaps (h : Header) : List (Nat × Nat × Nat) :=
  h.entries.filterMap (fun x => match x with | .chmap e n t => some (e, n, t) | _ => none)
def Header.ststs (h : Header) : List (Nat × BitVec 6) := h.entries.filterMap (fun x => match x with | .stst e v => some (e, v) | _ => none)
def Header.loops (h : Header) : List (Nat × BitVec 32) :=
  h.entries.filterMap (fun x => match x with | .loop _ c d => some (c, d) | _ => none)
def Header.loopNumbers (h : Header) : List Nat := h.entries.filterMap (fun x => match x with | .loop k _ _ => some k | _ => none)
def Header.itgts (h : Header) : List Target := h.entries.filterMap (fun x => match x with | .itgt t => some t | _ => none)
def Header.inits (h : Header) : List (Target × Packet) :=
  h.entries.filterMap (fun x => match x with | .init t p => some (t, p) | _ => none)
def Header.places (h : Header) : List (Nat × Nat) := h.entries.flatMap (fun x => match x with | .place ps => ps | _ => [])
def Header.lut (h : Header) : Option LutImage := h.entries.findSome? (fun x => match x with | .lut i => some i | _ => none)
def Header.datas (h : Header) : List (Nat × List Dword) :=
  h.entries.filterMap (fun x => match x with | .data k i ws => some (64 * k + i, ws) | _ => none)
def Header.bndas (h : Header) : List (Nat × Dword) := h.entries.filterMap (fun x => match x with | .bnda b w => some (b, w) | _ => none)
def Header.bndbs (h : Header) : List (Nat × Dword) := h.entries.filterMap (fun x => match x with | .bndb b w => some (b, w) | _ => none)
def Header.bndcs (h : Header) : List (Nat × Dword) := h.entries.filterMap (fun x => match x with | .bndc b w => some (b, w) | _ => none)

/-- The value listed under a number, if any. -/
def assoc {α : Type} (xs : List (Nat × α)) (k : Nat) : Option α := (xs.find? (fun x => x.1 == k)).map (fun x => x.2)

/-- The word of target entry n of element index e; zero, and so not valid, where the block gives none. -/
def Header.tent (h : Header) (e n : Nat) : Lane := ((h.tents.find? (fun x => x.1 == e && x.2.1 == n)).map (fun x => x.2.2)).getD 0

/-- A binding of the header (R292). -/
def Header.binding (h : Header) (b : Nat) : Option Binding :=
  match assoc h.bndas b, assoc h.bndbs b with
  | some x, some y =>
    let c := (assoc h.bndcs b).getD 0
    some { lvl := bitsOf x 55 2, idx := bitsOf x 45 10,
           shape := { base := 64 * bitsOf x 13 20, size := 64 * (bitsOf y 37 20 + 1), mode := bitsOf x 43 2, depth := bitsOf x 40 3 + 1,
                      fmt := x.extractLsb' 36 4, fpx := x.extractLsb' 33 3 },
           tag := if bitsOf y 36 1 == 1 then
               some { ctr := bitsOf y 31 5, tag := bitsOf y 24 7, wpf := bitsOf y 9 15 + 1, nfill := bitsOf c 41 16,
                      teidx := bitsOf c 35 6, tslot := bitsOf c 30 5, tfld := bitsOf c 28 2 }
             else none }
  | _, _ => none

/-- The bindings of the header, by number. -/
def Header.bindings (h : Header) : List (Nat × Binding) := (List.range 8).filterMap (fun b => (h.binding b).map (fun x => (b, x)))

/-- The conditions on a header's entries taken together (R289, R291, R292). -/
def Header.whole (h : Header) : Bool :=
  let as := h.bndas.map (fun x => x.1)
  h.loopNumbers == List.range h.loops.length
    && (h.itgts.isEmpty || !h.loops.isEmpty)
    && h.bndbs.map (fun x => x.1) == as
    && (List.range 8).all (fun b =>
        let tcv := match assoc h.bndbs b with | some w => bitsOf w 36 1 == 1 | none => false
        (assoc h.bndcs b).isSome == tcv)
    && (List.range 8).all (fun b => !(h.flags.stmask.getLsbD b) || as.contains b)
    && h.places.length == h.nslot
    && h.chmaps.all (fun x => let t := h.tent x.1 x.2.2; tValid t && tFld t == 3)

/-! Initial-token images (R298). -/

/-- The tokens of an initial-token image for the block at an offset of a footprint region; none where such a record is illegal
(R83, R298) (log 141: DESIGN CHOICE). -/
def tokenRecords (foot : BitVec 64) (rx ry boff : Nat) : Nat → List Dword → Option (List (Target × Packet))
  | 0, _ => some []
  | _ + 1, [] => some []
  | _ + 1, [_] => some []
  | n + 1, r :: w :: rest =>
    let k := (bitsOf (rest.headD 0) 18 3 + 2) / 2 + 1
    match tokenRecords foot rx ry boff n (rest.drop k) with
    | none => none
    | some xs =>
      let t := entryTarget w
      if bitsOf r 59 5 == rx && bitsOf r 53 6 == ry && bitsOf r 21 32 == boff then
        match imagePacket rest with
        | none => none
        | some (p, _) =>
          if bitsOf w 60 4 != 11 || !(onlyFields w 60 (kindFields 11)) || t.fld == 3 || !(inFoot foot t.eidx) || bitsOf r 0 21 != 0 then none
          else some ((t, p) :: xs)
      else some xs

end Sys2Proof.Machine
end

