-- ==== Sys2Proof/Machine/IntegerAct.lean ====
section
/-! DEFINITION. What the integer and bit instructions compute (R312, R316, R318, R326, R332, R357 to R359, R379, R386, R391). -/

namespace Sys2Proof.Machine

/-- The value of index i of a column list. -/
def col (vs : List Nat) (i : Nat) : Nat := vs.getD i 0

/-- A result that wraps (R312). -/
def wrapRes (t : Ty) (x : Int) : Nat × BitVec 32 := (wrapTo (tyWidth t) x, 0)

/-- A result that saturates and says so in SAT (R312). -/
def satRes (t : Ty) (x : Int) : Nat × BitVec 32 :=
  let c := clampTo (tyWidth t) (tyIsSigned t) x
  (wrapTo (tyWidth t) c.1, flagIf c.2 esSAT)

/-- A result that saturates under .sat and wraps otherwise. -/
def satOrWrap (sat : Bool) (t : Ty) (x : Int) : Nat × BitVec 32 := if sat then satRes t x else wrapRes t x

/-- All ones in w bits when a condition holds (R318, R341). -/
def ones (w : Nat) (c : Bool) : Nat := if c then 2 ^ w - 1 else 0

/-- A two-source integer operation (R318, R359, R386). -/
def intTwo (f : Fn) (e : Env) (g : Ty → Nat → Nat → Nat × BitVec 32) : Except FCode Act :=
  valuewise .int f e [e.a, e.b] (fun t vs => g t (col vs 0) (col vs 1))

/-- A one-source integer operation (R316, R359). -/
def intOne (set : TySet) (f : Fn) (e : Env) (g : Ty → Nat → Nat × BitVec 32) : Except FCode Act :=
  valuewise set f e [e.a] (fun t vs => g t (col vs 0))

def addAct (f : Fn) (e : Env) : Except FCode Act := intTwo f e (fun t a b => wrapRes t (ival t a + ival t b))
def addsAct (f : Fn) (e : Env) : Except FCode Act := intTwo f e (fun t a b => satRes t (ival t a + ival t b))
def subAct (f : Fn) (e : Env) : Except FCode Act := intTwo f e (fun t a b => wrapRes t (ival t a - ival t b))
def subsAct (f : Fn) (e : Env) : Except FCode Act := intTwo f e (fun t a b => satRes t (ival t a - ival t b))
def andAct (f : Fn) (e : Env) : Except FCode Act := intTwo f e (fun _ a b => (a &&& b, 0))
def andnAct (f : Fn) (e : Env) : Except FCode Act := intTwo f e (fun t a b => (a &&& (2 ^ tyWidth t - 1 - b), 0))
def orAct (f : Fn) (e : Env) : Except FCode Act := intTwo f e (fun _ a b => (a ||| b, 0))
def xorAct (f : Fn) (e : Env) : Except FCode Act := intTwo f e (fun _ a b => (a ^^^ b, 0))
def maxAct (f : Fn) (e : Env) : Except FCode Act := intTwo f e (fun t a b => (if ival t a < ival t b then b else a, 0))
def minAct (f : Fn) (e : Env) : Except FCode Act := intTwo f e (fun t a b => (if ival t b < ival t a then b else a, 0))

/-- SHL: a × 2^n, zero for n ≥ w (R386). -/
def shlAct (f : Fn) (e : Env) : Except FCode Act :=
  intTwo f e (fun t a n => (if tyWidth t ≤ n then 0 else a * 2 ^ n % 2 ^ tyWidth t, 0))
/-- SHR: zeros fill from the top (R386). -/
def shrAct (f : Fn) (e : Env) : Except FCode Act :=
  intTwo f e (fun t a n => (if tyWidth t ≤ n then 0 else a / 2 ^ n, 0))
/-- SAR: sign bits fill from the top; signed types only (R386) (log 31: DEDUCED). -/
def sarAct (f : Fn) (e : Env) : Except FCode Act :=
  valuewise .signed f e [e.a, e.b]
    (fun t vs => wrapRes t ((ival t (col vs 0)).fdiv (2 ^ min (col vs 1) (tyWidth t) : Nat)))
/-- ROTL: bit k moves to bit (k + n) mod w, n = b mod w (R359). -/
def rotlAct (f : Fn) (e : Env) : Except FCode Act :=
  intTwo f e (fun t a b =>
    let w := tyWidth t
    let n := b % w
    (a * 2 ^ n % 2 ^ w + a / 2 ^ (w - n), 0))

/-- The condition of CMP (R318). -/
def cmpHolds (cc : Nat) (a b : Int) : Bool :=
  match cc with
  | 0 => a == b
  | 1 => a != b
  | 2 => decide (a < b)
  | 3 => decide (a ≤ b)
  | 4 => decide (b < a)
  | _ => decide (b ≤ a)

def cmpAct (f : Fn) (e : Env) : Except FCode Act :=
  intTwo f e (fun t a b => (ones (tyWidth t) (cmpHolds (fnSub f) (ival t a) (ival t b)), 0))

/-- NEG: the negated values; signed types only (log 31: DEDUCED). -/
def negAct (f : Fn) (e : Env) : Except FCode Act :=
  intOne .signed f e (fun t a => satOrWrap (fnSub f == 1) t (-(ival t a)))
def absAct (f : Fn) (e : Env) : Except FCode Act :=
  intOne .signed f e (fun t a => satOrWrap (fnSub f == 1) t ((ival t a).natAbs : Int))
def notAct (f : Fn) (e : Env) : Except FCode Act := intOne .int f e (fun t a => (2 ^ tyWidth t - 1 - a, 0))
def popcAct (f : Fn) (e : Env) : Except FCode Act := intOne .int f e (fun t a => (popBits (tyWidth t) a, 0))
def clzAct (f : Fn) (e : Env) : Except FCode Act :=
  intOne .int f e (fun t a => (if a == 0 then tyWidth t else tyWidth t - 1 - ilog2 a, 0))
/-- CTZ: a AND −a is the lowest set bit (R316). -/
def ctzAct (f : Fn) (e : Env) : Except FCode Act :=
  intOne .int f e (fun t a => (if a == 0 then tyWidth t else ilog2 (a &&& (2 ^ tyWidth t - a)), 0))
def brevAct (f : Fn) (e : Env) : Except FCode Act := intOne .int f e (fun t a => (revBits (tyWidth t) a, 0))

def clampAct (f : Fn) (e : Env) : Except FCode Act :=
  valuewise .int f e [e.a, e.b, thirdOp e] (fun t vs =>
    let a := ival t (col vs 0)
    let b := ival t (col vs 1)
    let p := ival t (col vs 2)
    wrapRes t (min (max a b) p))

/-- The packet checks of a value-wise source set beside a control operand: lengths, formats and scale tags of all of them in
the order of R87, R313, then the control operand's undefined bits. -/
def gatherCtl (set : TySet) (f : Fn) (e : Env) (srcs : List Operand) (c : Operand) (mask : Nat) :
    Except FCode (Ty × Nat × List (List Nat) × Nat) :=
  do
    let r ← both (gather set f e srcs) (controlAs (readTy f ((srcTy f e.a e.b).getD .n32) c) mask c)
    pure (r.1.1, r.1.2.1, r.1.2.2, r.2)

/-- BFX: bits [s+n−1:s], extended as the type's sign (R326). -/
def bfxAct (f : Fn) (e : Env) : Except FCode Act := do
  let (t, n, cols, v) ← gatherCtl .int f e [e.a] e.b 0x1FFF
  let s := v % 64
  let k := v / 64
  if k == 0 || 64 < k || tyWidth t < s + k then .error .bounds
  else
    let r := eachVal (fun vs =>
      let x := col vs 0 / 2 ^ s % 2 ^ k
      (if tyIsSigned t then wrapTo (tyWidth t) (sval k x) else x, 0)) cols
    pure { out := some (resPk e.a t (packLanes t n r.1)) }

/-- BFI: b with bits [s+n−1:s] replaced by the low bits of a (R326). -/
def bfiAct (f : Fn) (e : Env) : Except FCode Act := do
  let (t, n, cols, v) ← gatherCtl .int f e [e.a, e.b] (thirdOp e) 0x1FFF
  let s := v % 64
  let k := v / 64
  if k == 0 || 64 < k || tyWidth t < s + k then .error .bounds
  else
    let r := eachVal (fun vs =>
      let b := col vs 1
      (b - (b / 2 ^ s % 2 ^ k) * 2 ^ s + (col vs 0 % 2 ^ k) * 2 ^ s, 0)) cols
    pure { out := some (resPk e.a t (packLanes t n r.1)) }

/-! Multiplication (R357, R358). -/

/-- A multiplying value-wise instruction: the checks of R87, the FCW check under .any among the formats (R100). -/
def mulWise (f : Fn) (e : Env) (srcs : List Operand) (g : Ty → List Nat → Nat × BitVec 32) : Except FCode Act :=
  valuewiseIf (mulOk f e false) .int f e srcs g

def mulAct (f : Fn) (e : Env) : Except FCode Act :=
  mulWise f e [e.a, e.b] (fun t vs => satOrWrap (fnSub f == 1) t (ival t (col vs 0) * ival t (col vs 1)))
/-- MULH: bits [2w−1:w] of the exact product (R357). -/
def mulhAct (f : Fn) (e : Env) : Except FCode Act :=
  mulWise f e [e.a, e.b] (fun t vs =>
    (wrapTo (2 * tyWidth t) (ival t (col vs 0) * ival t (col vs 1)) / 2 ^ tyWidth t, 0))
def madAct (f : Fn) (e : Env) : Except FCode Act :=
  mulWise f e [e.a, e.b, thirdOp e] (fun t vs =>
    satOrWrap (fnSub f == 1) t (ival t (col vs 0) * ival t (col vs 1) + ival t (col vs 2)))

/-- The double-width type of MULW and MADW (R357). -/
def doubleTy : Ty → Ty
  | .s8 => .s16 | .n8 => .n16 | .s16 => .s32 | .n16 => .n32 | .s32 => .s64 | .n32 => .n64
  | t => t

/-- The lanes of the double-width result of a and b (R358): a length like those of R87, tested before the formats. -/
def wideLanes (f : Fn) (e : Env) : Nat :=
  let t := (srcTy f e.a e.b).getD .n32
  2 * max (srcFor f t e.a).lanes.length (srcFor f t e.b).lanes.length

/-- The packet checks of MULW and MADW on a and b (R87, R358). -/
def gatherWide (f : Fn) (e : Env) : Except FCode (Ty × Nat × List (List Nat)) := do
  let r ← both (gatherIf (mulOk f e false) .intNo64 f e [e.a, e.b])
    (if 8 < wideLanes f e then .error .pkLen else .ok ())
  pure r.1

/-- MULW: the exact product in the double-width type; more than 8 lanes faults (R357, R358). -/
def mulwAct (f : Fn) (e : Env) : Except FCode Act := do
  let (t, n, cols) ← gatherWide f e
  let d := doubleTy t
  let r := eachVal (fun vs => (wrapTo (tyWidth d) (ival t (col vs 0) * ival t (col vs 1)), 0)) cols
  pure { out := some (resPk e.a d (packLanes d (2 * n) r.1)) }

/-- The packet checks of MADW's addend: the result's length or one value's length, and the double-width type (R358). -/
def addendPk (f : Fn) (e : Env) : Except FCode (List Nat) :=
  let d := doubleTy ((srcTy f e.a e.b).getD .n32)
  let p := srcPk d (thirdOp e)
  let n := wideLanes f e
  if !(p.lanes.length == n || p.lanes.length == (if tyIs64 d then 2 else 1)) || !ownLenOk p then .error .pkLen
  else if !hasTy d p then .error .fmt
  else if p.sc then .error .scaleTag
  else .ok (spread d n p.lanes)

/-- MADW: as MULW with an addend of the double-width type (R358). -/
def madwAct (f : Fn) (e : Env) : Except FCode Act := do
  let r ← both (gatherWide f e) (addendPk f e)
  let t := r.1.1
  let d := doubleTy t
  let v := eachVal (fun vs =>
    (wrapTo (tyWidth d) (ival t (col vs 0) * ival t (col vs 1) + ival d (col vs 2)), 0)) (r.1.2.2 ++ [r.2])
  pure { out := some (resPk e.a d (packLanes d (wideLanes f e) v.1)) }

/-! Division and selection. -/

/-- QDIV: the quotient truncated toward zero through DT, the remainder through TT; a zero divisor faults before any result;
the most negative value by −1 gives itself, remainder 0, and SAT (R379). -/
def qdivAct (f : Fn) (e : Env) : Except FCode Act := do
  let (t, n, cols) ← gather .int f e [e.a, e.b]
  if (cols.getD 1 []).any (fun b => b == 0) then .error .divZero
  else
    let w := tyWidth t
    let q := eachVal (fun vs => satRes t ((ival t (col vs 0)).tdiv (ival t (col vs 1)))) cols
    let r := eachVal (fun vs => (wrapTo w ((ival t (col vs 0)).tmod (ival t (col vs 1))), 0)) cols
    let quo : List Nat := if tyIsSigned t then
        (eachVal (fun vs =>
          if ival t (col vs 0) == intLo w true && ival t (col vs 1) == -1 then (col vs 0, 0)
          else (wrapTo w ((ival t (col vs 0)).tdiv (ival t (col vs 1))), 0)) cols).1
      else q.1
    pure { out := some (resPk e.a t (packLanes t n quo)), second := some (resPk e.a t (packLanes t n r.1)), flags := q.2 }

/-- SEL: the values of a where p has a bit set, those of b otherwise, copied raw. The scale tags of a and b must agree; p may
have any FMT of the type's width (R391). -/
def selAct (f : Fn) (e : Env) : Except FCode Act :=
  let ty := srcTy f e.a e.b
  let t := ty.getD .n32
  let a := srcFor f t e.a
  let b := srcFor f t e.b
  let p := match e.p with
    | some p => p
    | none => srcPk t (.const 0)
  let unit := if tyIs64 t then 2 else 1
  if !(ownLenOk a && ownLenOk b && ownLenOk p) then .error .pkLen
  else match lengthRule unit [a.lanes.length, b.lanes.length, p.lanes.length] with
    | none => .error .pkLen
    | some n =>
      if ty.isNone || tyIsMx6 t || t == .any || !hasTy t a || !hasTy t b then .error .fmt
      else match tyOfFmt p.fmt p.fpx with
        | none => .error .fmt
        | some pt =>
          if tyWidth pt != tyWidth t then .error .fmt
          else if a.sc != b.sc || (a.sc && a.sce != b.sce) then .error .scaleTag
          else
            let r := eachVal (fun vs => (if col vs 2 != 0 then col vs 0 else col vs 1, 0))
              [spread t n a.lanes, spread t n b.lanes, spread t n p.lanes]
            .ok { out := some (resPk e.a t (packLanes t n r.1)) }

end Sys2Proof.Machine
end

