-- ==== Sys2Proof/Machine/Bindings.lean ====
section
/-! DEFINITION. Bindings, shared descriptors and the sub-buffer state machine (R129 to R136). -/

namespace Sys2Proof.Machine

/-- Binding b of a frame. -/
def State.bnd (s : State) (r f b : Nat) : Binding := (s.frame r f).bnds.get b

def State.modBnd (s : State) (r f b : Nat) (g : Binding → Binding) : State :=
  s.modFrame r f (fun x => { x with bnds := x.bnds.modify b g })

/-- The ring of a binding: its own, or its descriptor's (R130). -/
def State.ringOf (s : State) (r f b : Nat) : Ring :=
  match descKeyOf r (s.bnd r f b) with
  | some k => (s.descs.get k).ring
  | none => (s.bnd r f b).ring

/-- The ring of a binding changed. -/
def State.setRing (s : State) (r f b : Nat) (x : Ring) : State :=
  match descKeyOf r (s.bnd r f b) with
  | some k => { s with descs := s.descs.modify k (fun d => { d with ring := x }) }
  | none => s.modBnd r f b (fun y => { y with ring := x })

/-- The bytes of one sub-buffer (R129). -/
def Shape.sub (h : Shape) : Nat := if h.depth == 0 then h.size else h.size / h.depth

/-- The key of a QB's and of a DB's byte (R144). -/
def State.qbByte (s : State) (vdn q off : Nat) : Nat := windowKey (s.physDie vdn) (0x4000000 + q * 0x800000 + off)
def State.dbByte (s : State) (vdn off : Nat) : Nat := windowKey (s.physDie vdn) off

/-- The key of the first byte of a descriptor's range. -/
def State.descBase (s : State) (k : Nat) (h : Shape) : Nat :=
  if k < 2 ^ 20 then s.qbByte (k / 1024) (k / 256 % 4) h.base else s.dbByte ((k - 2 ^ 20) / 1024) h.base

/-- The key of the first byte of a binding's range. -/
def State.bndBase (s : State) (r : Nat) (b : Binding) : Nat :=
  match descKeyOf r b with
  | some k => s.descBase k b.shape
  | none => tileKey r b.idx b.shape.base

/-- Sub-buffer i of a ring. -/
def Ring.sub (x : Ring) (i : Nat) : SubBuf := x.subs.get i

def Ring.put (x : Ring) (i : Nat) (v : SubBuf) : Ring := { x with subs := x.subs.set i v }

/-- The sub-buffers at the producer and at the consumer pointer. -/
def Ring.atProd (x : Ring) : SubBuf := x.sub x.prod
def Ring.atCons (x : Ring) : SubBuf := x.sub x.cons

/-- The sub-buffer at the producer pointer becomes FULL with its fill mark, and the pointer moves on (R132). -/
def Ring.fill (x : Ring) (depth mark : Nat) : Ring :=
  { x.put x.prod { st := .full, mark := mark } with prod := (x.prod + 1) % max depth 1, pcur := 0 }

/-- The sub-buffer at the consumer pointer becomes EMPTY, and the pointer moves on (R132). -/
def Ring.drain (x : Ring) (depth : Nat) : Ring :=
  { x.put x.cons {} with cons := (x.cons + 1) % max depth 1, ccur := 0 }

/-- A write up to an end in the producer sub-buffer: EMPTY becomes FILLING, the highest end is kept (R132). -/
def Ring.wrote (x : Ring) (stop : Nat) : Ring :=
  x.put x.prod { st := .filling, mark := max x.atProd.mark stop }

/-- Is the state one in which a stream write waits, and a random write faults (R132)? -/
def notWritable (b : BufSt) : Bool := b == .full || b == .draining

/-- Is the state one in which a stream read waits, and a random read faults (R132)? -/
def notReadable (b : BufSt) : Bool := b == .empty || b == .filling

/-- A stream read of n words, after which the state is DRAINING, or EMPTY at the fill mark (R132, R135). -/
def Ring.streamRead (x : Ring) (depth n : Nat) : Ring :=
  let stop := x.ccur + 4 * n
  if stop == x.atCons.mark then x.drain depth
  else { x.put x.cons { x.atCons with st := .draining } with ccur := stop }

/-- A commit of a store-masked binding: FILLING becomes FULL (R54, R132). -/
def Ring.commit (x : Ring) (depth : Nat) : Ring :=
  if x.atProd.st == .filling then x.fill depth x.atProd.mark else x

/-- The memory controllers' fate of an access to QB or DB words that belong to a sync word (R138). -/
def State.bufMarked (s : State) (b : Binding) (a n : Nat) : Bool :=
  b.lvl != 0 && s.marked a n

end Sys2Proof.Machine
end

