-- ==== Sys2Proof/Machine/Trigger.lean ====
section
/-! DEFINITION. The trigger stage (R72, R92): which slots are ready, which of them is selected, and when a selected firing holds at
stage F (R90, R168). -/

namespace Sys2Proof.Machine

/-- A slot's word, taken apart; none for a vacant or unreadable one. -/
def SlotSt.parts (x : SlotSt) : Option (SlotOp × Slot × Fn) := (decodeSlotParts x.word).toOption

/-- Guard (R72 condition 3). -/
def guardHolds (o : Slot) (st : BitVec 6) : Bool := (st &&& o.gm) == (o.gv &&& o.gm)

/-- The free entries that a firing needs in an output channel (R72 condition 5): PKMRG needs two in its own (R374). -/
def outNeed (op : SlotOp) (o : Slot) (c : Nat) : Nat := if op == .pkmrg && o.dt.toNat == 4 + c then 2 else 1

/-- Has an output channel as many free entries as a firing needs (R72 condition 5, R81)? -/
def outFree (el : Elem) (op : SlotOp) (o : Slot) (c : Nat) : Bool :=
  let x := el.outs.get c
  x.q.length + x.rsv + outNeed op o c ≤ 4

/-- The channel whose turn it is in a MRG.rr (R360): the slot's pointer, set to the lowest channel of the mask at firing. -/
def mrgTurn (sl : SlotSt) (f : Fn) : Nat :=
  let mask := BitVec.ofNat 4 (fnIm f % 16)
  if mask.getLsbD sl.ptr then sl.ptr else (maskList mask).headD 0

/-- The channel that MRG would dequeue (R360); none when it is not ready. -/
def mrgChannel (el : Elem) (n : Nat) (f : Fn) : Option Nat :=
  let sl := el.slots.get n
  let mask := BitVec.ofNat 4 (fnIm f % 16)
  if fnIm f / 16 % 2 == 0 then
    (maskList mask).find? (fun c => match (el.ins.get c).q.head? with | some h => h.pkt.seq == sl.ctr | none => false)
  else
    let c := mrgTurn sl f
    if (el.ins.get c).q.isEmpty then none else some c

/-- The channel that a deadlock report names for a MRG that is not ready (R65, R361): the one whose turn it is under .rr, the
lowest empty one under .seq; none where each holds a packet of another number. -/
def mrgLacks (el : Elem) (n : Nat) (f : Fn) : Option Nat :=
  if fnIm f / 16 % 2 == 0 then (maskList (BitVec.ofNat 4 (fnIm f % 16))).find? (fun c => (el.ins.get c).q.isEmpty)
  else some (mrgTurn (el.slots.get n) f)

/-- What an element's firings that have not passed stage F have taken: the accesses that a fence holds, and those to be squashed. -/
def Elem.inF (el : Elem) : List Parked := el.parked ++ el.ghosts

/-- Has one of them taken the token of a slot's field, so that the field is not free for another (R89); how many have taken a packet of an
input channel? (log 120: DEDUCED) -/
def Elem.claims (el : Elem) (n fld : Nat) : Bool :=
  el.inF.any (fun x => x.slot == n && (if fld == 0 then x.l else if fld == 1 then x.r else x.p).isSome)
def Elem.claimed (el : Elem) (c : Nat) : Nat := (el.inF.filter (fun x => x.chans.any (fun h => h.1 == c))).length

/-- Channels hold what the slot takes (R72 condition 4, R360). -/
def channelsReady (el : Elem) (n : Nat) (op : SlotOp) (o : Slot) (f : Fn) : Bool :=
  if op == .mrg then (mrgChannel el n f).isSome
  else (maskList o.icn).all (fun c => !(el.ins.get c).q.isEmpty)

/-- The channels that a firing dequeues (R72, R89, R360). -/
def takes (el : Elem) (n : Nat) (op : SlotOp) (o : Slot) (f : Fn) : BitVec 4 :=
  if op == .mrg then (match mrgChannel el n f with | some c => 1#4 <<< c | none => 0) else o.icn

/-- Awaited fields are full (R72 condition 6, R73). -/
def fieldsReady (sl : SlotSt) (o : Slot) : Bool :=
  !o.awt || ((!sl.aw.getLsbD 0 || sl.l.isSome) && (!sl.aw.getLsbD 1 || sl.r.isSome) && (!sl.aw.getLsbD 2 || sl.p.isSome))

/-- The entries whose credits a slot needs (R72 condition 7, R393, R396) (log 32: DEDUCED). -/
def neededEntries (sl : SlotSt) (op : SlotOp) (o : Slot) (f : Fn) : List Nat :=
  match op with
  | .splt => [o.dt.toNat - 8 + sl.ptr]
  | .steer => (List.range (fnIm f % 4 + 1)).map (fun i => o.dt.toNat - 8 + i)
  | _ => entriesOf o.dt o.tt

/-- Credits are held (R72 condition 7). -/
def creditsHeld (el : Elem) (sl : SlotSt) (op : SlotOp) (o : Slot) (f : Fn) : Bool :=
  (neededEntries sl op o f).all (fun t => !el.spent.contains t)

/-- A stream LDB or STB is not made to wait by its sub-buffer (R72 condition 8). -/
def State.streamReady (s : State) (r frm : Nat) (op : SlotOp) (f : Fn) : Bool :=
  let b := fnIm f % 8
  if (s.bnd r frm b).shape.mode != 0 then true
  else match op with
    | .ldb => !notReadable (s.ringOf r frm b).atCons.st
    | .stb => !notWritable (s.ringOf r frm b).atProd.st
    | _ => true

/-- Does a request act on a versioned word (R160)? -/
def isVersioned : ReqOp → Bool
  | .ldv _ | .stv _ | .rclm _ => true
  | _ => false

/-- No versioned request of the slot still waits (R72 condition 9). -/
def State.versionReady (s : State) (e n : Nat) : Bool :=
  s.reqs.all (fun q => !(q.ret.e == e && q.ret.slot == n && isVersioned q.op && q.phase == .wait))

/-- The operations that FNC and ATG.acq hold (R168, R345) (log 36: DEDUCED). -/
def isAccess : SlotOp → Bool
  | .ldb | .stb | .ldv | .stv | .rclm | .gath | .scat | .atb | .atg | .ldg | .stg | .pfg | .sya | .syadd | .tmov
  | .cpfire | .mxtok | .mxcfg | .mxdrn | .mgopen | .mgclose | .mgsplAllow | .mgsplForbid | .mgsplForce | .mgsplXqreg
  | .mgsplXqdel | .mgstIsland | .mgstQueue => true
  | _ => false

/-- Is a fence's wait over (R168)? (log 49: DEDUCED) -/
def State.fenceDone (s : State) (x : Fence) : Bool :=
  s.reqs.all (fun q => !x.reqs.contains q.id) && s.tileQ.all (fun t => t.2.all (fun q => !x.reqs.contains q.id))
    && s.jobs.all (fun j => !x.reqs.contains j.id)
    && s.performed (max 1 x.tier) x.writes && (x.tier < 4 || s.reqs.all (fun q => !x.writes.contains q.id))

/-- Every fence of an element is done, as far as an operation minds (log 36: DEDUCED). -/
def State.fencesOpen (s : State) (e : Nat) (op : SlotOp) : Bool :=
  !isAccess op || (s.elem e).fences.all (fun x => s.fenceDone x)

/-- Does a selected operation hold at stage F: an access behind an open fence or behind another that holds, an FNC behind one that
holds (R168, R345)? -/
def State.holdsAtF (s : State) (e : Nat) (op : SlotOp) : Bool :=
  !(s.fencesOpen e op) || ((isAccess op || op == .fnc) && !(s.elem e).parked.isEmpty)

/-- The nine conditions of R72. -/
def State.ready (s : State) (e n : Nat) : Bool :=
  let el := s.elem e
  let sl := el.slots.get n
  let r := ekRegion e
  let fr := s.frame r (sl.frm - 1)
  match sl.parts with
  | none => false
  | some (op, o, f) =>
    sl.frm != 0 && (fr.st == .firing || fr.st == .draining) && guardHolds o el.st && channelsReady el n op o f
      && (maskList o.ocs).all (outFree el op o) && fieldsReady sl o && creditsHeld el sl op o f
      && s.streamReady r (sl.frm - 1) op f && s.versionReady e n

/-- A slot's effective priority (R92). -/
def effPri (sl : SlotSt) (o : Slot) : Nat := if sl.aged then 3 else o.pri.toNat

/-- The slots of an element in the order that ties are settled: from the one after the last selected (R92). -/
def tieOrder (last : Nat) : List Nat := (List.range 32).map (fun i => (last + 1 + i) % 32)

/-- The better of two ready slots, the first where they tie. -/
def better (x y : Nat × Nat) : Nat × Nat := if x.2 < y.2 then y else x

/-- The slot that the trigger stage selects (R92). -/
def State.select (s : State) (e : Nat) : Option Nat :=
  let el := s.elem e
  let cs := (tieOrder el.lastSel).filterMap (fun n =>
    if s.ready e n then
      match (el.slots.get n).parts with
      | some (_, o, _) => some (n, effPri (el.slots.get n) o)
      | none => none
    else none)
  match cs with
  | [] => none
  | c :: rest => some (rest.foldl better c).1

/-- The data registers of an element that await a response (R90, R314). -/
def State.pendingD (s : State) (e : Nat) : List Nat :=
  let one (t : Ret) : List Nat := if t.e == e && t.dt.toNat < 4 then [t.dt.toNat] else []
  ((s.elem e).parked.filter (fun x => x.dt.toNat < 4)).map (fun x => x.dt.toNat) ++ s.reqs.flatMap (fun q => one q.ret) ++ s.tileQ.flatMap (fun t => t.2.flatMap (fun q => one q.ret))
    ++ s.jobs.flatMap (fun j => match j.ret with | some t => one t | none => [])
    ++ s.bnds.flatMap (fun b => one b.2.2)
    ++ s.nodes.flatMap (fun x => (match x.2.result with | some (t, _) => one t | none => [])
        ++ x.2.cmds.flatMap (fun c => match c with | .drain _ _ _ _ _ _ _ t => one t | .tok _ => []))
    ++ s.descs.flatMap (fun d => match d.2.xq with
        | some x => x.closing.flatMap one | none => [])
    ++ s.dies.flatMap (fun d => d.2.merges.flatMap (fun m => m.2.closing.flatMap one)
        ++ d.2.islands.flatMap (fun i => i.2.tpls.flatMap (fun t => match t.2 with
            | some t => (match t.closing with | some q => one q | none => []) | none => [])))

/-- Does a slot read or write a data register that awaits a response (R90)? -/
def stalls (pend : List Nat) (op : SlotOp) (o : Slot) : Bool :=
  (o.sa.toNat < 4 && pend.contains o.sa.toNat) || (o.sb.toNat < 4 && pend.contains o.sb.toNat)
    || (o.dt.toNat < 4 && !(op == .exit || op == .nop || op == .stset || op == .stxor || op == .fnc || op == .pfg || op == .trap
          || op == .brk) && pend.contains o.dt.toNat)

end Sys2Proof.Machine
end

