-- ==== Sys2Proof/Machine/Memory.lean ====
section
/-! DEFINITION. Addresses and translation (R143 to R152), the route of an access and the states of the dies on it (R25, R145), and
what a read finds at the posting points and the home (R155). -/

namespace Sys2Proof.Machine

/-- The rights an access needs (R147). -/
structure Rights where
  rd : Bool := false
  wr : Bool := false
  am : Bool := false
  deriving DecidableEq, Repr, Inhabited

def needRead : Rights := { rd := true }
def needWrite : Rights := { wr := true }
def needAtomic : Rights := { rd := true, wr := true, am := true }
/-- SYA and SYADD need W and A (R400). -/
def needSync : Rights := { wr := true, am := true }

def rightsOk (need have_ : Rights) : Bool :=
  (!need.rd || have_.rd) && (!need.wr || have_.wr) && (!need.am || have_.am)

/-- The rights that a request needs at both stages (R354, R397, R400). -/
def reqNeed : ReqOp → Rights
  | .load _ => needRead
  | .store | .put => needWrite
  | .atomic _ _ _ _ _ _ => needAtomic
  | .sya _ _ _ => needSync
  | .syadd _ => needSync
  | .sywch _ => needRead
  | _ => {}

/-! Guest-physical addresses (R144). -/

def gpaPanel (g : Nat) : Nat := g / 2 ^ 46 % 2 ^ 10
def gpaKind (g : Nat) : Nat := g / 2 ^ 44 % 4
def gpaSite (g : Nat) : Nat := g / 2 ^ 37 % 2 ^ 7
def gpaOff (g : Nat) : Nat := g % 2 ^ 37

/-- The bytes of a site's space: a stack of 48 GiB, or a die's window. -/
def siteSpace (kind : Nat) : Nat := if kind == 0 then 48 * 2 ^ 30 else 0x6000000

/-- Does a GPA of this panel name a place (R144)? (log 51: DEDUCED) -/
def State.gpaOk (s : State) (g : Nat) : Bool :=
  gpaKind g < 2 && gpaSite g < s.ndies && gpaOff g < siteSpace (gpaKind g)

/-- Is a GPA on another panel (R144, R267)? -/
def State.isRemote (s : State) (g : Nat) : Bool := gpaPanel g != s.panel.root.panelNo.toNat

/-- The place number of a GPA's site in tables: physical stacks from 0, physical dies from 100. -/
def State.siteNo (s : State) (g : Nat) : Nat := if gpaKind g == 0 then s.physSite (gpaSite g) else 100 + s.physDie (gpaSite g)

/-- The key of a byte at a site. -/
def siteKey (site off : Nat) : Nat := if site < 100 then stackKey site off else windowKey (site - 100) off

/-! The states of the dies on a route (R25, R145). -/

/-- The port die by which requests for a GPA leave: the hash of R265, GPA bits modulo the number of port dies (log 111: DESIGN CHOICE). -/
def State.portFor (s : State) (g : Nat) : Nat := gpaOff g / 4096 % gridPorts s.panel.form

/-- Every die and bridge that an access from a physical die to a GPA passes on this panel (R145)
(log 104: DEDUCED; log 111: DESIGN CHOICE). -/
def State.passed (s : State) (src g : Nat) : List Nat :=
  if s.isRemote g then
    let p := s.portFor g
    idPort p :: s.routeIds src (s.portEntry p)
  else if gpaKind g == 1 then s.routeIds src (s.physDie (gpaSite g))
  else idBridge (s.physSite (gpaSite g)) :: s.routeIds src (s.entryDie (s.physSite (gpaSite g)))

/-- Are they all ACTIVE (R145 check 3)? An address that names no site of this panel has no route: its fault is F_XLAT (R144)
(log 51: DEDUCED). -/
def State.routeOk (s : State) (src g : Nat) : Bool :=
  (!(s.isRemote g) && (2 ≤ gpaKind g || s.ndies ≤ gpaSite g)) || (s.passed src g).all (fun k => s.isActive k)

/-- Does every channel on the route carry data (R20, R25)? A request that meets one that does not is met with F_LINK
(log 112: DESIGN CHOICE). -/
def State.lineOk (s : State) (src g : Nat) : Bool :=
  if s.isRemote g then s.attachOpen (s.portEntry (s.portFor g)) && (s.hopChans src (s.portEntry (s.portFor g))).all s.carries
  else if 2 ≤ gpaKind g || s.ndies ≤ gpaSite g then true
  else if gpaKind g == 1 then (s.hopChans src (s.physDie (gpaSite g))).all s.carries
  else (s.hopChans src (s.entryDie (s.physSite (gpaSite g)))).all s.carries && s.carries (s.lastChan (s.physSite (gpaSite g)))

/-! Stage 2 (R149). -/

/-- Rights in a stage-2 entry, and its frame. -/
def s2Rights (w : BitVec 32) : Rights := { rd := w.getLsbD 29, wr := w.getLsbD 30, am := w.getLsbD 28 }
def s2Frame (w : BitVec 32) : Nat := (w.extractLsb' 0 17).toNat

/-- The VFT entry of a VF at a site (R231). -/
def State.vftAt (s : State) (site vf : Nat) : Dword × Dword := s.panel.vft.get (64 * site + vf)

/-- The place of a cached stage-2 result. -/
def s2Key (vf site gran : Nat) : Nat := (vf * 256 + site) * 2 ^ 15 + gran

/-- The stage-2 entry of a granule: in the table at the site, or an older one still cached (R150). -/
def State.s2Entry (s : State) (vf site gran : Nat) : BitVec 32 :=
  let base := bitsOf (s.vftAt site vf).1 12 25 * 4096
  let now := BitVec.ofNat 32 (bytesVal (memBytes s.mem (siteKey site (base + 4 * gran)) 4))
  let old := s.panel.s2cache.get (s2Key vf site gran)
  if old != 0 && Config.choice s.draws then old else now

/-- The site that a forwarding entry names: one of the kind of the old site (R371). -/
def State.newSite (s : State) (site v : Nat) : Nat := if site < 100 then s.physSite v else 100 + s.physDie v

/-- A site and frame as page forwarding redirects them (R240). -/
def State.forwarded (s : State) (site lfn : Nat) : Nat × Nat :=
  match s.panel.pgfw.get (site * 2 ^ 20 + lfn) with
  | .moved v l => (s.newSite site v, l)
  | _ => (site, lfn)

/-- Stage 2 at the destination: the key of the byte, or the fault (R149)
(log 16: DESIGN CHOICE; log 52: DESIGN CHOICE; log 142: DESIGN CHOICE). -/
def State.stage2 (s : State) (vf g : Nat) (need : Rights) : Except FCode Nat :=
  if !s.gpaOk g then .error .xlat
  else
    let site := s.siteNo g
    let vft := s.vftAt site vf
    let gran := gpaOff g / 2 ^ 21
    if !(vft.1.getLsbD 63) then .error .perm
    else if bitsOf vft.2 49 15 ≤ gran then .error .xlat
    else
      let w := s.s2Entry vf site gran
      if !(w.getLsbD 31) || (w.extractLsb' 17 11) != 0 || siteSpace (gpaKind g) / 2 ^ 21 ≤ s2Frame w then .error .xlat
      else if !(rightsOk need (s2Rights w)) then .error .perm
      else
        let p := s.forwarded site (s2Frame w)
        .ok (siteKey p.1 (p.2 * 2 ^ 21 + gpaOff g % 2 ^ 21))

/-- An agent's identity for translation: a partition, or none for a steward launch, whose addresses are GPAs that no stage
translates (R434). -/
abbrev Who := Option Nat

/-- The key of a GPA's byte for an agent. -/
def State.place2 (s : State) (w : Who) (g : Nat) (need : Rights) : Except FCode Nat :=
  match w with
  | some pid => s.stage2 (pVf (s.part pid)) g need
  | none =>
    if !s.gpaOk g then .error .xlat
    else
      let p := s.forwarded (s.siteNo g) (gpaOff g / 2 ^ 21)
      .ok (siteKey p.1 (p.2 * 2 ^ 21 + gpaOff g % 2 ^ 21))

/-- Has any of n bytes from a key an uncorrectable error (R145 check 5, R279)? (log 100: DESIGN CHOICE) -/
def State.eccBad (s : State) (a n : Nat) : Bool := (List.range ((a % 8 + n + 7) / 8)).any (fun i => s.ecc.get (a / 8 + i))

/-! Stage 1 (R146 to R148). -/

/-- The key of a stream to a panel (log 58: DESIGN CHOICE). -/
def streamKey (panel stream : Nat) : Nat := 16 * panel + stream

/-- Page sizes: the level and the number of leaves of a group, by SIZE (R148). -/
def pageLevel : Nat → Option (Nat × Nat)
  | 0 => some (0, 1) | 1 => some (0, 4) | 2 => some (0, 16) | 3 => some (0, 64) | 4 => some (0, 256)
  | 5 => some (1, 2) | 6 => some (1, 8) | 7 => some (1, 32) | 8 => some (1, 128) | 9 => some (2, 1)
  | _ => none

/-- The bytes that one entry of a level covers. -/
def levelReach (l : Nat) : Nat := 2 ^ (12 + 9 * l)

/-- Is another panel reachable: a session is open, and no stream of the pair has failed (R265, R267)? (log 51: DEDUCED) -/
def State.reachable (s : State) (panel : Nat) : Bool :=
  (s.panel.root.sessions.get panel).isOpen
    && (List.range 16).all (fun i => !(s.panel.root.streams.get (streamKey panel i)).down)

/-- A table entry read by the walker: a read at its GPA, checked by stage 2 at its own destination; any failure is F_XLAT (R151). An
entry on another panel is what that panel answers (log 21: DESIGN CHOICE). -/
def State.tableWord (s : State) (pid src g : Nat) : Option Dword :=
  if !(s.routeOk src g && s.lineOk src g) then none
  else if s.isRemote g then
    if s.reachable (gpaPanel g) then
      some (BitVec.ofNat 64 (bytesVal ((List.range 8).map (fun i => Config.remoteByte s.draws (g + i)))))
    else none
  else match s.stage2 (pVf (s.part pid)) g needRead with
    | .error _ => none
    | .ok a => if s.eccBad a 8 then none else some (BitVec.ofNat 64 (bytesVal (memBytes s.mem a 8)))

/-- The parts of an entry (R147). -/
def s1Addr (w : Dword) : Nat := bitsOf w 12 44 * 4096
def s1Size (w : Dword) : Nat := bitsOf w 8 4
def s1Rights (w : Dword) : Rights := { rd := w.getLsbD 2, wr := w.getLsbD 3, am := w.getLsbD 4 }

/-- Is a leaf's group whole: every leaf of it agrees (R148)? -/
def State.groupOk (s : State) (pid src node ix n : Nat) (w : Dword) : Bool :=
  (List.range n).all (fun i =>
    match s.tableWord pid src (node + 8 * (ix / n * n + i)) with
    | some v => v == w
    | none => false)

/-- The walk of a virtual address from a node at a level (R146 to R148). -/
def State.walk (s : State) (pid src va : Nat) : Nat → Nat → Option TlbEnt
  | l, node =>
    let ix := va / levelReach l % 512
    match s.tableWord pid src (node + 8 * ix) with
    | none => none
    | some w =>
      if !(w.getLsbD 0) || bitsOf w 56 8 != 0 || bitsOf w 5 3 != 0 then none
      else if w.getLsbD 1 then
        match pageLevel (s1Size w) with
        | none => none
        | some (pl, n) =>
          let size := levelReach l * n
          if pl != l || 2 < l || s1Addr w % size != 0 || !(s.groupOk pid src node ix n w) then none
          else some { pid := pid, va := va / size * size, size := size, gpa := s1Addr w,
                      rd := (s1Rights w).rd, wr := (s1Rights w).wr, am := (s1Rights w).am }
      else
        match l with
        | 0 => none
        | k + 1 => if s1Size w != 0 then none else s.walk pid src va k (s1Addr w)

/-- The page of a virtual address by the tables (R146). -/
def State.lookup (s : State) (pid src va : Nat) : Option TlbEnt :=
  let p := s.part pid
  if p.ps1r.getLsbD 0 then s.walk pid src va 4 (bitsOf p.ps1r 12 44 * 4096) else none

/-- An entry of a region's TLB for an address, where one is still there (R150) (log 16: DESIGN CHOICE; log 52: DESIGN CHOICE). -/
def State.tlbHit (s : State) (r pid va : Nat) : Option TlbEnt :=
  match (s.region r).tlb.find? (fun t => t.pid == pid && t.va ≤ va && va < t.va + t.size) with
  | some t => if Config.choice s.draws then some t else none
  | none => none

/-- Stage 1 for an agent of a region (R145 check 2): the GPA, and the page used. A steward launch reads VA [55:0] as a GPA. -/
def State.stage1 (s : State) (r : Nat) (w : Who) (va : Nat) (need : Rights) : Except FCode (Nat × Option TlbEnt) :=
  match w with
  | none => .ok (va % 2 ^ 56, none)
  | some pid =>
    match (match s.tlbHit r pid va with | some t => some t | none => s.lookup pid (s.physDie (rkDie r)) va) with
    | none => .error .xlat
    | some t =>
      if rightsOk need { rd := t.rd, wr := t.wr, am := t.am } then .ok (t.gpa + (va - t.va), some t) else .error .perm

/-- The first two checks of an address (R143, R145 check 1): bits above 56, then alignment. -/
def addrCheck (va align : Nat) : Except FCode Unit :=
  if 2 ^ 57 ≤ va then .error .nonCanon else if va % align != 0 then .error .align else .ok ()

/-- The agent of a region for translation. -/
def State.who (s : State) (r : Nat) : Who := if isStw r then none else some ((s.pidOf r).getD 0)

/-! What a read finds (R155). -/

/-- Is a request a posted write? -/
def isStore : ReqOp → Bool
  | .store => true
  | .put => true
  | _ => false

/-- Does a request name its word by its key: a write of STB, an access to a versioned word? -/
def hasWord : ReqOp → Bool
  | .put | .ldv _ | .stv _ | .rclm _ => true
  | _ => false

/-- Is a request posted and not yet at its home? -/
def posted (q : Req) : Bool := isStore q.op && (q.phase == .rwb || q.phase == .qeq || q.phase == .deq)

/-- Is a posted write at a posting point that the agents of a region share; with no region, that the engines of a die do (R155)? -/
def sharedPoint (die : Nat) (r : Option Nat) (q : Req) : Bool :=
  rkDie q.ret.rk == die && (q.phase == .deq
    || (match r with
        | some r => (q.phase == .qeq && quadOf q.ret.rk == quadOf r) || (q.phase == .rwb && q.ret.rk == r)
        | none => false))

/-- The key at which a request acts: its word's, or that of its GPA at its home on this panel. -/
def State.landKey (s : State) (q : Req) : Option Nat :=
  if hasWord q.op then some q.word
  else if s.isRemote q.gpa then none
  else (s.place2 (s.who q.ret.rk) q.gpa (reqNeed q.op)).toOption

/-- The posted writes to this panel that an agent finds, with their keys, in the order of the list. Two GPAs may name one place, and a
frame may move while a write is on its way (R240): keys tell. -/
def State.nearWrites (s : State) (die : Nat) (r : Option Nat) : List (Req × Nat) :=
  (s.reqs.filter (fun q => posted q && sharedPoint die r q)).filterMap (fun q => (s.landKey q).map (fun k => (q, k)))

/-- Do two ranges of addresses meet? -/
def rangesMeet (a n b m : Nat) : Bool := a < b + m && b < a + n

/-- Does a posted write that an agent finds touch n bytes from a key? -/
def State.nearPosted (s : State) (die : Nat) (r : Option Nat) (a n : Nat) : Bool :=
  (s.nearWrites die r).any (fun x => rangesMeet x.2 x.1.size a n)

/-- The newest byte for a key among posted writes at one posting point. -/
def newestAt (ws : List (Req × Nat)) (p : Phase) (a : Nat) : Option Byte :=
  ws.foldl (fun b x => if x.1.phase == p && x.2 ≤ a && a < x.2 + x.1.size then x.1.data[a - x.2]? else b) none

/-- A byte of this panel as an agent reads it: from the posting points, the narrowest first, and then the home (R155). -/
def nearByte (m : List Host.Cell) (ws : List (Req × Nat)) (a : Nat) : Byte :=
  (((newestAt ws .rwb a).or (newestAt ws .qeq a)).or (newestAt ws .deq a)).getD (memByte m a)

/-- n bytes of this panel as an agent of a region, or an engine of a die, reads them. -/
def State.nearBytes (s : State) (die : Nat) (r : Option Nat) (a n : Nat) : List Byte :=
  let ws := s.nearWrites die r
  (List.range n).map (fun i => nearByte s.mem ws (a + i))

/-- The requests of agents with the same view of GPAs as a region's (the same VF). -/
def State.sameView (s : State) (r : Nat) (q : Req) : Bool :=
  isStw q.ret.rk == isStw r && (isStw r || pVf (s.part ((s.pidOf q.ret.rk).getD 0)) == pVf (s.part ((s.pidOf r).getD 0)))

/-- The posted writes to other panels that an agent of a region, or an engine of its die, finds, with their GPAs. -/
def State.farWrites (s : State) (r : Nat) (engine : Bool) : List (Req × Nat) :=
  (s.reqs.filter (fun q => posted q && !(hasWord q.op) && s.isRemote q.gpa && s.sameView r q
    && sharedPoint (rkDie r) (if engine then none else some r) q)).map (fun q => (q, q.gpa))

/-- A byte of another panel as an agent reads it: from the posting points, and then as that panel answers. -/
def State.farByte (s : State) (ws : List (Req × Nat)) (g : Nat) : Byte :=
  (((newestAt ws .rwb g).or (newestAt ws .qeq g)).or (newestAt ws .deq g)).getD (Config.remoteByte s.draws g)

/-- n bytes as an agent of a region reads them (R155) (log 21: DESIGN CHOICE). -/
def State.bytesFor (s : State) (r g key n : Nat) : List Byte :=
  if 2 ^ 63 ≤ key then (List.range n).map (fun i => s.farByte (s.farWrites r false) (g + i)) else s.nearBytes (rkDie r) (some r) key n

/-- The stream that carries requests for a GPA to its panel (R265): a fixed hash of the panel and GPA [55:12] (log 58: DESIGN CHOICE). -/
def trlsStream (g : Nat) : Nat := g / 4096 % 16

/-- The key that stands for a byte of another panel's memory. -/
def remoteKey (g : Nat) : Nat := 2 ^ 63 + g

/-- A whole access that an agent of a region makes at once, with every check of R145 in order: the GPA and the key (log 51: DEDUCED). -/
def State.access (s : State) (r : Nat) (va n : Nat) (need : Rights) : Except FCode (Nat × Nat) := do
  addrCheck va n
  let (g, _) ← s.stage1 r (s.who r) va need
  if s.isRemote g && !(s.reachable (gpaPanel g)) then .error .link
  else if !(s.routeOk (s.physDie (rkDie r)) g) then .error .quarantine
  else if !(s.lineOk (s.physDie (rkDie r)) g) then .error .link
  else if s.isRemote g then .ok (g, remoteKey g)
  else
    let a ← s.place2 (s.who r) g need
    if s.eccBad a n then .error .ecc else .ok (g, a)

/-- n bytes read at once at a virtual address (n a power of two, aligned). -/
def State.readNow (s : State) (r va n : Nat) : Except FCode (List Byte) := do
  let (g, a) ← s.access r va n needRead
  .ok (s.bytesFor r g a n)

/-- One doubleword read at once, as the sequencer reads its stream and headers. -/
def State.readDword (s : State) (r va : Nat) : Except FCode Dword := do
  let bs ← s.readNow r va 8
  .ok (BitVec.ofNat 64 (bytesVal bs))

/-- n doublewords from a virtual address. -/
def State.readDwords (s : State) (r va : Nat) : Nat → Except FCode (List Dword)
  | 0 => .ok []
  | n + 1 => do
    let w ← s.readDword r va
    let ws ← s.readDwords r (va + 8) n
    .ok (w :: ws)

/-! Posting points (R155) and order (R157). -/

/-- Do two requests touch a common byte: by their GPAs, where they have one, or where they land (R157)? -/
def State.touches (s : State) (p q : Req) : Bool :=
  (!(hasWord p.op) && !(hasWord q.op) && s.sameView p.ret.rk q && rangesMeet p.gpa p.size q.gpa q.size)
    || (match s.landKey p, s.landKey q with
        | some a, some b => rangesMeet a p.size b q.size
        | _, _ => false)

/-- The request with a number. -/
def State.reqAt (s : State) (i : Nat) : Option Req := s.reqs.find? (fun q => q.id == i)

/-- The requests older than one, in the order of the list. -/
def State.before (s : State) (i : Nat) : List Req := s.reqs.takeWhile (fun q => q.id != i)

/-- A request changed, and put behind the others: it has come to a new place. -/
def State.moveReq (s : State) (i : Nat) (q : Req) : State := { s with reqs := s.reqs.filter (fun x => x.id != i) ++ [q] }

/-- A request changed where it stands. -/
def State.setReq (s : State) (i : Nat) (q : Req) : State := { s with reqs := s.reqs.map (fun x => if x.id == i then q else x) }

/-- A request taken away. -/
def State.dropReq (s : State) (i : Nat) : State := { s with reqs := s.reqs.filter (fun x => x.id != i) }

/-- A line that lies at a key, or at a GPA, updated by bytes written at a key, or a GPA (log 54: DEDUCED). -/
def PLine.put (l : PLine) (k a : Nat) (bs : List Byte) : PLine :=
  { l with bytes := (List.range l.bytes.length).map (fun i =>
      if a ≤ k + i && k + i < a + bs.length then bs.getD (k + i - a) 0 else l.bytes.getD i 0) }

/-- A region's prefetch lines updated by a write that its agents make at a home of this panel (R156) (log 54: DEDUCED). -/
def State.putLines (s : State) (r a : Nat) (bs : List Byte) : State :=
  if (s.region r).prefetch.isEmpty then s
  else s.modRegion r (fun x => { x with prefetch := x.prefetch.map (fun l =>
    if s.isRemote l.gpa then l
    else match s.place2 (s.who r) l.gpa needRead with
      | .ok k => l.put k a bs
      | .error _ => l) })

/-- A region's prefetch lines of another panel's memory after a write to it. -/
def Region.putFar (x : Region) (g : Nat) (bs : List Byte) : Region := { x with prefetch := x.prefetch.map (fun l => l.put l.gpa g bs) }

/-- The same for a write that has reached the RWB (R156); of another panel's memory a GPA names the line. -/
def State.postLines (s : State) (q : Req) : State :=
  match s.landKey q with
  | some a => s.putLines q.ret.rk a q.data
  | none =>
    if (s.region q.ret.rk).prefetch.isEmpty then s
    else s.modRegion q.ret.rk (fun x => x.putFar q.gpa q.data)

/-- A region's prefetch buffer emptied: by an acquire, or an FNC (R156). -/
def State.dropLines (s : State) (r : Nat) : State := s.modRegion r (fun x => { x with prefetch := [] })

/-- The key of a request's bytes at their home, by checks 3 to 5 of R145. -/
def State.homeKey (s : State) (q : Req) : Except FCode Nat :=
  let r := q.ret.rk
  if hasWord q.op then .ok q.word
  else if !(s.routeOk (s.physDie (rkDie r)) q.gpa) then .error .quarantine
  else if !(s.lineOk (s.physDie (rkDie r)) q.gpa) then .error .link
  else match s.place2 (s.who r) q.gpa (reqNeed q.op) with
    | .error c => .error c
    | .ok a => if s.eccBad a q.size then .error .ecc else .ok a

/-! Accesses to QB and DB by bindings (R155, R157). -/

/-- n lanes of a QB or DB as an agent of a region reads them. -/
def State.bufLanes (s : State) (r a n : Nat) : List Lane :=
  (List.range n).map (fun i => BitVec.ofNat 32 (bytesVal (s.nearBytes (rkDie r) (some r) (a + 4 * i) 4)))

/-- Is a write of STB to n bytes from a key still at a posting point that an agent does not share? An access by the sub-buffer waits
until it is found there or at the home: the accesses to one sub-buffer are ordered by its state machine (R157) (log 123: DEDUCED). -/
def State.bufHidden (s : State) (die : Nat) (r : Option Nat) (a n : Nat) : Bool :=
  s.reqs.any (fun q => q.op == .put && posted q && !(sharedPoint die r q) && rangesMeet q.word q.size a n)

/-- Does a posted write to n bytes from a key hold back an engine's write at the controller? -/
def State.bufBlocked (s : State) (die a n : Nat) : Bool := s.nearPosted die none a n || s.bufHidden die none a n

/-- Is an access older than one by a binding, of one element and to n bytes from a key, still on its way: not translated, or not yet at
its home (R157)? -/
def State.openAt (s : State) (e a n : Nat) : Bool :=
  s.reqs.any (fun q => q.who == .firing && q.ret.e == e && (match q.op with | .sywch _ => false | _ => true)
    && (q.phase == .xlat || ((q.phase == .home || q.phase == .wait)
      && (match s.landKey q with | some k => rangesMeet k q.size a n | none => false))))

/-- The GPA of a word of a QB or DB, of DETAIL of F_ECC (R242) and of a posted write; zero for tile memory, which has none (R144). -/
def State.windowGpa (s : State) (a : Nat) : Nat :=
  if a < 2 ^ 60 || 2 ^ 61 ≤ a then 0
  else s.panel.root.panelNo.toNat * 2 ^ 46 + 2 ^ 44 + s.vdnOf ((a - 2 ^ 60) / 2 ^ 32) * 2 ^ 37 + (a - 2 ^ 60) % 2 ^ 32

/-- The GPA of the first word with an uncorrectable error among n bytes of a QB or DB from a key (R242). -/
def State.eccGpa (s : State) (a n : Nat) : Nat :=
  match (List.range ((a % 8 + n + 7) / 8)).find? (fun i => s.ecc.get (a / 8 + i)) with
  | some i => s.windowGpa (8 * (a / 8 + i))
  | none => 0

/-! What a release passes on with a value (R158): kept for each 4 bytes. -/

/-- The writes that the writes to n bytes from a key released. -/
def State.covAt (s : State) (a n : Nat) : List Nat :=
  ((List.range ((a % 4 + n + 3) / 4)).flatMap (fun i => s.relCov.get (a / 4 * 4 + 4 * i))).eraseDups

/-- A value read by an element: an FNC after it acquires what the value's write released (R158, R169). -/
def State.saw (s : State) (e : Nat) (ids : List Nat) : State :=
  match s.live ids with
  | [] => s
  | xs => s.modElem e (fun el => { el with seen := (el.seen ++ xs).eraseDups })

/-- A write to n bytes from a key releases some writes. -/
def State.setCov (s : State) (a n : Nat) (ids : List Nat) : State :=
  { s with relCov := (List.range ((a % 4 + n + 3) / 4)).foldl (fun m i => PMap.set m (a / 4 * 4 + 4 * i) ids) s.relCov }

end Sys2Proof.Machine
end

