-- ==== Sys2Proof/Machine/Token.lean ====
section
/-! DEFINITION. Matrix control tokens: the formats of R186, the rules on their fields (R185, R187, R364). -/

namespace Sys2Proof.Machine

/-- A format of a matrix operand (R186): a type of R84, or an integer of 4 or 2 bits. -/
inductive MFmt where
  | ty (t : Ty)
  | small (bits : Nat) (signed : Bool)
  deriving DecidableEq, Repr

/-- The format of a code (R186). -/
def mfmtOf (c : Nat) : Option MFmt :=
  match c with
  | 0x00 => some (.ty .f32) | 0x01 => some (.ty .h16) | 0x02 => some (.ty .bf16)
  | 0x11 => some (.ty .mx6e2) | 0x12 => some (.ty .mx6e3) | 0x13 => some (.ty .mx4) | 0x14 => some (.ty .mxi8)
  | 0x15 => some (.ty .s8) | 0x16 => some (.ty .n8) | 0x17 => some (.ty .s16) | 0x18 => some (.ty .n16)
  | 0x19 => some (.small 4 true) | 0x1A => some (.small 4 false)
  | 0x1B => some (.small 2 true) | 0x1C => some (.small 2 false)
  | 0x1D => some (.ty .s32) | 0x1E => some (.ty .n32)
  | c =>
    if 3 ≤ c && c ≤ 9 then some (.ty (.b8 (Fin.ofNat 7 (c - 3))))
    else if 0x0A ≤ c && c ≤ 0x10 then some (.ty (.b8n (Fin.ofNat 7 (c - 0x0A))))
    else none

/-- Bits of a stored value. -/
def MFmt.bits : MFmt → Nat
  | .ty t => tyWidth t
  | .small b _ => b

/-- The multiplier width (R99). -/
def MFmt.width : MFmt → Nat
  | .ty t => mulWidth t
  | .small b _ => b

/-- Is it a signed integer? -/
def MFmt.signed : MFmt → Bool
  | .ty t => tyIsSigned t
  | .small _ s => s

/-- Its integer value. -/
def MFmt.int : MFmt → Nat → Int
  | .ty t, x => ival t x
  | .small b s, x => if s then sval b (x % 2 ^ b) else ((x % 2 ^ b : Nat) : Int)

/-- Its value as a number, after FTZ has acted (R114). -/
def MFmt.val (ftz inf8 : Bool) : MFmt → Nat → FVal
  | .ty t, x => fval t ftz inf8 x
  | f, x => ofInt (f.int x) 0 false

/-- The type that decides the size of a K-block (R117). -/
def MFmt.ktype : MFmt → Ty
  | .ty t => t
  | .small _ _ => .n8

/-- Is a format in an opcode's set (R187)? -/
def mfmtAllowed (opc c : Nat) : Bool :=
  match opc with
  | 1 => c ≤ 0x10
  | 2 => c ≤ 0x14
  | 3 => 3 ≤ c && c ≤ 0x14
  | 4 => 0x15 ≤ c && c ≤ 0x1E
  | 6 => c == 0 || c == 0x1D || c == 0x1E
  | _ => false

/-- The zero rules and the KB rule of R187, with TR and NMS (R185). -/
def tokShape (opc : Nat) (t : MTok) : Bool :=
  (opc == 2 || (!t.tr && t.nms == 0))
    && (match opc with
        | 5 => t.kb == 0 && t.fa == 0 && t.fb == 0 && !t.acc
        | 6 => t.kb == 0 && t.fb == 0
        | _ => t.kb != 0)

/-- The formats of a token lie in its opcode's set. -/
def tokFmts (opc : Nat) (t : MTok) : Bool :=
  match opc with
  | 5 => true
  | 6 => mfmtAllowed 6 t.fa.toNat
  | _ => mfmtAllowed opc t.fa.toNat && mfmtAllowed opc t.fb.toNat

/-- What the arm-time check asks of an MXTOK template (R364) (log 33: DEDUCED). -/
def templateTokOk (w : Dword) : Bool :=
  let opc := (w.extractLsb' 58 6).toNat
  let t := tokFields w
  (w.extractLsb' 0 15) == 0 && 1 ≤ opc && opc ≤ 6 && tokShape opc t && tokFmts opc t

/-- The formats of a drain (R190). -/
def drainTy (c : Nat) : Option Ty :=
  if c ≤ 0x10 || (0x15 ≤ c && c ≤ 0x18) || c == 0x1D || c == 0x1E then
    match mfmtOf c with
    | some (.ty t) => some t
    | _ => none
  else none

end Sys2Proof.Machine
end

