-- ==== Sys2Proof/Machine/Arm.lean ====
section
/-! DEFINITION. Arming a block (R51 to R55, R59, R70, R73, R76, R81, R82, R93, R129, R130, R163, R223): the checks of R51 in their
order, the resources for which arming waits, and what an armed frame holds. -/

namespace Sys2Proof.Machine

/-- A slot word of the block with its place. -/
structure Plan where
  e : Nat
  n : Nat
  word : Dword
  op : SlotOp
  o : Slot
  f : Fn

/-- The words of a block with their placements. -/
def placed (h : Header) (words : List Dword) : List ((Nat × Nat) × Dword) := h.places.zip words

/-- The words that are instructions. -/
def plansOf (h : Header) (words : List Dword) : List Plan :=
  (placed h words).filterMap (fun x => match decodeSlotParts x.2 with
    | .ok (op, o, f) => some { e := x.1.1, n := x.1.2, word := x.2, op := op, o := o, f := f }
    | .error _ => none)

/-! Check 2. -/

/-- Is a word one that check 2 passes: an instruction, a vacant word, or one of the firmware class, which check 3 meets (R287)? -/
def wordDefined (w : Dword) : Bool :=
  match decodeSlotParts w with
  | .ok _ => true
  | .error .vacant => true
  | .error .firmwareClass => true
  | .error _ => false

/-- No position is named twice, but by vacant words (R293). -/
def placesOk (h : Header) (words : List Dword) : Bool :=
  let ps := ((placed h words).filter (fun x => x.2 != 0)).map (fun x => x.1)
  ps.eraseDups.length == ps.length

/-- A target entry's own rules (R76, R77, R174, R196). -/
def tentLegal (bound : Bool) (w : Lane) : Bool :=
  w.extractLsb' 28 3 == 0 &&
  (!tValid w ||
    (if tFld w < 3 then tPort w == 0
     else tSlot w == 0 && bound &&
      (tPort w < 4 || tPort w == 8
        || ((tPort w < 8 || 12 ≤ tPort w) && tDx w == 0 && tDy w == 0 && (tTag w).toNat < 16))))

/-- Is entry n of an element bound to an output channel (R81)? -/
def Header.isBound (h : Header) (e n : Nat) : Bool := h.chmaps.any (fun x => x.1 == e && x.2.2 == n)

/-- The entry that an output channel is bound to. -/
def Header.boundTo (h : Header) (e c : Nat) : Option Nat := (h.chmaps.find? (fun x => x.1 == e && x.2.1 == c)).map (fun x => x.2.2)

/-- Has an operation no result? -/
def sendsNothing (op : SlotOp) : Bool := (opRow op).dst == .nothing

/-- The entries that a slot names by DT and TT (log 43: DEDUCED). -/
def namedEntries (p : Plan) : List Nat :=
  if sendsNothing p.op then []
  else if (opRow p.op).dst == .entries then (List.range (fnIm p.f % 4 + 1)).map (fun i => p.o.dt.toNat - 8 + i)
  else entriesOf p.o.dt p.o.tt

/-- The output channel that a slot's DT names (log 43: DEDUCED). -/
def namedOut (p : Plan) : Option Nat :=
  if sendsNothing p.op || p.o.dt.toNat < 4 || 8 ≤ p.o.dt.toNat then none else some (p.o.dt.toNat - 4)

/-- The destinations of a slot are valid entries bound to no channel, and a bound output channel (R76, R81) (log 43: DEDUCED). -/
def destsOk (h : Header) (p : Plan) : Bool :=
  (namedEntries p).all (fun t => tValid (h.tent p.e t) && !(h.isBound p.e t))
    && (match namedOut p with | some c => (h.boundTo p.e c).isSome | none => true)

/-- The binding that a slot names exists and is of the kind its entry asks (R131, R188, R322, R327, R328, R347, R353, R355, R387,
R395, R404). -/
def bindingOk (h : Header) (p : Plan) : Bool :=
  let b := h.binding (fnIm p.f % 8)
  let has (t : Binding → Bool) : Bool := match b with | some x => t x | none => false
  match p.op with
  | .ldb => has (fun x => x.shape.mode != 2 &&
      (let n := fnIm p.f / 8 % 8 + 1
       if x.shape.fmt == 6 || x.shape.fmt == 7 then n % 2 == 0 else if x.shape.fmt == 13 then n == 3 || n == 6 else true))
  | .stb => has (fun x => x.shape.mode == 1 || (x.shape.mode == 0 && p.o.sb == 15))
  | .ldv | .stv | .rclm => has (fun x => x.shape.mode == 2)
  | .gath | .scat | .atb => has (fun x => x.shape.mode == 1 && x.lvl == 0)
  | .bfst | .bfsetEmpty => has (fun x => x.shape.mode != 2)
  | .bfsetFull => has (fun x => x.shape.mode != 2 && x.tag.isNone)
  | .tmov => has (fun x => x.shape.mode != 2 && x.tag.isNone) &&
      (match h.binding (fnIm p.f / 8 % 8) with | some x => x.shape.mode != 2 | none => false)
  | _ => true

/-- The record that a slot names is one of the block's (R333, R348). -/
def recordOk (h : Header) (p : Plan) : Bool :=
  match p.op with
  | .cparm => (assoc h.datas (64 + fnIm p.f % 64)).isSome
  | .jcard => (assoc h.datas (128 + fnIm p.f % 64)).isSome
  | _ => true

/-- The multiplying instructions (R100). -/
def isMultiply : SlotOp → Bool
  | .mul | .mulh | .mulw | .mad | .madw | .fmul | .fma | .fnma | .dot => true
  | _ => false

/-- The FCW that a block declares serves its multiplying instructions (R98, R100, R296) (log 38: DEDUCED; log 39: DEDUCED). -/
def fcwOk (h : Header) (p : Plan) : Bool :=
  if !(isMultiply p.op) then true
  else match assoc h.fcws p.e with
    | none => false
    | some w =>
      if p.f matches .tr .any _ | .ty .any _ then w != 0
      else match srcTy p.f (.const 0) (.const 0) with
        | some t => fcwServes w t (p.op == .dot)
        | none => false

/-- The elements of the square of an MXCFG slot (R184); none where it leaves the region. -/
def squareOf (e size : Nat) : Option (List Nat) :=
  if e % 8 + size ≤ 8 && e / 8 + size ≤ 8 then
    some ((List.range size).flatMap (fun j => (List.range size).map (fun i => e + 8 * j + i)))
  else none

/-- The squares of the MXCFG slots of the frames in flight on a region: armed, firing or draining (R184). -/
def State.squares (s : State) (r : Nat) : List (List Nat) :=
  (List.range 64).flatMap (fun e => (s.elem (ekOf r e)).slots.filterMap (fun x =>
    match x.2.parts with
    | some (.mxcfg, _, f) =>
      if x.2.frm == 0 || (s.frame r (x.2.frm - 1)).st == .committed then none else squareOf e (2 ^ (fnIm f % 4))
    | _ => none))

/-- A route or notify entry of a node (R184). -/
def routeLegal (w : Lane) : Bool := w.extractLsb' 28 3 == 0 && (!tValid w || (tFld w == 3 && tentLegal true w))

/-- The constant Kn of an element as a block finds it: the header's, else what an earlier block has left there (R70) (log 132: DEDUCED). -/
def State.kAt (s : State) (r : Nat) (h : Header) (e n : Nat) : Lane :=
  match h.kcons.find? (fun x => x.1 == e && x.2.1 == n) with
  | some x => x.2.2
  | none => (s.elem (ekOf r e)).k.get n

/-- MXCFG's conditions at arm (R184, R188, R362); a node multiplies, so the block declares the FCW of each of its elements (R100, R296)
(log 38: DEDUCED). -/
def State.mxcfgOk (s : State) (r : Nat) (h : Header) (ps : List Plan) (p : Plan) : Bool :=
  if p.op != .mxcfg then true
  else
    let k := s.kAt r h p.e
    let k10 := (k 10).toNat
    let bnd (n : Nat) : Bool := match h.binding n with | some x => x.shape.mode != 2 | none => false
    let fcw (e : Nat) : BitVec 32 := (assoc h.fcws e).getD 0
    match squareOf p.e (2 ^ (fnIm p.f % 4)) with
    | none => false
    | some sq =>
      let others := (ps.filter (fun q => q.op == .mxcfg && (q.e, q.n) != (p.e, p.n))).filterMap
        (fun q => squareOf q.e (2 ^ (fnIm q.f % 4)))
      sq.all (inFoot h.foot) && (others ++ s.squares r).all (fun t => t.all (fun e => !sq.contains e))
        && fcw p.e != 0 && sq.all (fun e => fcw e == fcw p.e)
        && k10 / 2 ^ 14 == 0 && bnd (k10 % 8) && bnd (k10 / 8 % 8)
        && (if k10 / 64 % 2 == 1 then bnd (k10 / 128 % 8) && bnd (k10 / 1024 % 8) else k10 / 128 % 64 == 0)
        && [12, 13, 14, 15].all (fun n => routeLegal (k n)) && (k10 / 2 ^ 13 % 2 == 0 || routeLegal (k 11))

/-- The template of MXTOK keeps the rules of R364. -/
def State.mxtokOk (s : State) (r : Nat) (h : Header) (p : Plan) : Bool :=
  if p.op != .mxtok then true
  else
    let k := s.kAt r h p.e
    let q := fnIm p.f / 32
    templateTokOk (k (2 * q) ++ k (2 * q + 1) : BitVec 64)

/-- Selector 13 names no iteration-tier field (R41). -/
def widOk (h1 : Dword) (p : Plan) : Bool :=
  match p.f with
  | .sh n _ => !(p.o.sa == 13 || p.o.sb == 13) || widWidth h1 n.toNat == 0 || widTier h1 n.toNat != 0
  | _ => true

/-- The data registers that a slot reads, and writes. -/
def dReads (op : SlotOp) (o : Slot) (f : Fn) : List Nat :=
  [o.sa.toNat, o.sb.toNat].filter (fun x => x < 4) ++ (if op == .pkmrg then [fnIm f % 4] else [])
def dWrites (op : SlotOp) (o : Slot) (f : Fn) : List Nat :=
  (if sendsNothing op then [] else [o.dt.toNat].filter (fun x => x < 4)) ++ (if op == .pkmrg then [fnIm f % 4] else [])

/-- The instructions of older frames still in flight on an element. -/
def State.olderParts (s : State) (e : Nat) : List (SlotOp × Slot × Fn) :=
  (s.elem e).slots.filterMap (fun x => if x.2.frm == 0 then none else x.2.parts)

/-- No other slot of a PKMRG's element, of its block or of an older frame, reads or writes its Dn, nor a slot that of an older frame's
PKMRG (R374) (log 32: DEDUCED). -/
def State.pkmrgOk (s : State) (r : Nat) (ps : List Plan) (p : Plan) : Bool :=
  let uses (x : SlotOp × Slot × Fn) (d : Nat) : Bool := (dReads x.1 x.2.1 x.2.2 ++ dWrites x.1 x.2.1 x.2.2).contains d
  let old := s.olderParts (ekOf r p.e)
  (p.op != .pkmrg || ((ps.filter (fun q => q.e == p.e && q.n != p.n)).map (fun q => (q.op, q.o, q.f)) ++ old).all (fun x =>
    !(uses x (fnIm p.f % 4))))
  && old.all (fun x => x.1 != .pkmrg || !(uses (p.op, p.o, p.f) (fnIm x.2.2 % 4)))

/-- What check 2 asks of one instruction with its header. -/
def State.planDefined (s : State) (r : Nat) (h1 : Dword) (h : Header) (ps : List Plan) (p : Plan) : Bool :=
  destsOk h p && bindingOk h p && recordOk h p && fcwOk h p && s.mxcfgOk r h ps p && s.mxtokOk r h p && widOk h1 p && s.pkmrgOk r ps p
    && (p.op != .exit || fnIm p.f < max h.nsucc 1) && (p.op != .lutx || h.lut.isSome)

/-- Two frames in flight name one tag counter or one TAG in one tile; a commit releases its frame's counters (R136). Two bindings of
one block that do so fault alike (log 108: DESIGN CHOICE). -/
def State.tagClash (s : State) (r : Nat) (h : Header) : Bool :=
  let mine := h.bindings.filterMap (fun x => x.2.tag.map (fun t => (x.2.idx, t)))
  let held := ((s.region r).frames.filter (fun x => x.2.st != .committed)).flatMap (fun x =>
    x.2.bnds.filterMap (fun y => y.2.tag.map (fun t => (y.2.idx, t))))
  let clash (x y : Nat × TagUse) : Bool := x.1 == y.1 && (x.2.ctr == y.2.ctr || x.2.tag == y.2.tag)
  mine.any (fun x => held.any (clash x)) || (List.range mine.length).any (fun i =>
    (mine.drop (i + 1)).any (clash (mine.getD i (0, {}))))

/-- Check 2 of R51. -/
def State.check2 (s : State) (r : Nat) (h1 : Dword) (h : Header) (words : List Dword) : Bool :=
  let ps := plansOf h words
  h.whole && words.all wordDefined && placesOk h words
    && h.tents.all (fun x => tentLegal (h.isBound x.1 x.2.1) x.2.2)
    && ps.all (s.planDefined r h1 h ps) && !(s.tagClash r h)

/-! Checks 3 and 4. -/

/-- Check 3: no opcode above the privilege of the region (R15, R287). -/
def check3 (stw : Bool) (words : List Dword) : Bool :=
  words.all (fun w => match decodeSlotParts w with
    | .ok (op, _, _) => (opRow op).opc < 0xE0 || stw
    | .error .firmwareClass => false
    | .error _ => true)

/-- The instructions a DETERM block refuses (R94, R172, R215, R328, R370, R385). -/
def isTimed (op : SlotOp) (f : Fn) : Bool :=
  0xE0 ≤ (opRow op).opc || op == .bfst || op == .mgstIsland || op == .mgstQueue || op == .mgsplXqreg
    || ((op == .atb || op == .atg) && 6 ≤ fnIm f / 16)

/-- Does a slot write ST (R93)? -/
def writesSt (op : SlotOp) (o : Slot) : Bool := o.nsm.toNat < 2 || op == .stset || op == .stxor

/-- A pair of slots of one element that R93 forbids. -/
def badPair (x y : SlotOp × Slot × Fn) : Bool :=
  let a := x.2.1
  let b := y.2.1
  ((a.gv ^^^ b.gv) &&& a.gm &&& b.gm) == 0 &&
  ((writesSt x.1 a && writesSt y.1 b)
    || (dWrites x.1 a x.2.2).any (fun d => (dReads y.1 b y.2.2).contains d || (dWrites y.1 b y.2.2).contains d)
    || (dWrites y.1 b y.2.2).any (fun d => (dReads x.1 a x.2.2).contains d))

/-- R93 over a block and the older frames. -/
def State.pairsOk (s : State) (r : Nat) (ps : List Plan) : Bool :=
  (List.range ps.length).all (fun i =>
    match ps[i]? with
    | none => true
    | some p =>
      let x := (p.op, p.o, p.f)
      ((ps.drop (i + 1)).filter (fun q => q.e == p.e)).all (fun q => !(badPair x (q.op, q.o, q.f)))
        && (s.olderParts (ekOf r p.e)).all (fun y => !(badPair x y)))

/-- May a CLONABLE block hold a slot (R61)? -/
def clonable (h : Header) (p : Plan) : Bool :=
  let mode (b : Nat) : Nat := match h.binding b with | some x => x.shape.mode | none => 0
  (dReads p.op p.o p.f).isEmpty && (dWrites p.op p.o p.f).isEmpty && p.o.nsm == 2 && p.o.sa != 14 && p.o.sb != 14
    && (match p.op with
        | .stset | .stxor | .abrd | .abwr | .dot | .mxcfg | .mxdrn | .stv | .rclm | .scat | .atb | .sya | .syadd | .sywch
        | .seqtCnt | .mrg | .splt => false
        | .stb => mode (fnIm p.f % 8) != 1
        | .tmov => mode (fnIm p.f % 8) != 1
        | _ => true)

/-- Check 4 of R51. -/
def State.check4 (s : State) (r : Nat) (h : Header) (ps : List Plan) : Bool :=
  (!h.flags.dtm || (ps.all (fun p => !(isTimed p.op p.f)) && s.pairsOk r ps)) && (!h.flags.cln || ps.all (clonable h))

/-! Check 5: scope (R163, R164). -/

/-- The tier of the narrowest unit that holds two regions. -/
def scopeOf (a b : Nat) : Nat :=
  if a == b then 1 else if rkDie a == rkDie b then (if quadOf a == quadOf b && !(isStw a) then 2 else 3) else 4

/-- Does an entry lead to a copy or merge island (R164)? -/
def toIsland (w : Lane) : Bool := tFld w == 3 && ((4 ≤ tPort w && tPort w < 8) || 12 ≤ tPort w)

/-- The entries that a slot's packets leave by. -/
def sendEntries (h : Header) (p : Plan) : List Nat :=
  namedEntries p ++ (match namedOut p with | some c => (h.boundTo p.e c).toList | none => [])

/-- The scope of an entry of an element of a region (R163): that of a region where it leads to an island, or nowhere. -/
def State.entryScope (s : State) (r e : Nat) (w : Lane) : Nat :=
  if toIsland w then 1
  else match s.hop (ekOf r e) (tDx w) (tDy w) with
    | none => 1
    | some c => scopeOf r (ekRegion c)

/-- The routes of an MXCFG slot and its notify entry, where its tokens ask for one (R184). -/
def State.nodeEntries (s : State) (r : Nat) (h : Header) (p : Plan) : List Lane :=
  if p.op != .mxcfg then []
  else
    let k := s.kAt r h p.e
    ([12, 13, 14, 15] ++ (if (k 10).getLsbD 13 then [11] else [])).map k |>.filter tValid

/-- Check 5 of R51. A node's packets leave by no BND, so its routes and its notify entry stay within the region (R163). -/
def State.check5 (s : State) (r : Nat) (h : Header) (ps : List Plan) : Bool :=
  ps.all (fun p =>
    (sendEntries h p).all (fun t =>
      let sc := s.entryScope r p.e (h.tent p.e t)
      sc ≤ 1 || (p.op == .bnd && sc ≤ fnIm p.f % 8))
    && (s.nodeEntries r h p).all (fun w => s.entryScope r p.e w ≤ 1))

/-! Check 6: bounds. -/

/-- Is a region one of the footprint of another's launch, and not dark (R79)? -/
def State.inLaunch (s : State) (r q : Nat) : Bool :=
  if isStw r then q == r
  else
    let a := s.region r
    let b := s.region q
    a.pid == b.pid && a.lnch == b.lnch && a.fslot == b.fslot && !b.dark && !(isStw q)

/-- The die edges that a hop crosses: 4 × region and direction, 0 east, 1 west, 2 north, 3 south, first along x, then along y (R80,
R59). -/
def State.crossings (s : State) (a b : Nat) : List Nat :=
  let x0 := s.gxOf a
  let y0 := s.gyOf a
  let x1 := s.gxOf b
  let y1 := s.gyOf b
  let out (x y dir : Nat) : List Nat := match s.rkAt x y with | some q => [4 * q + dir] | none => []
  (List.range (x1 - x0)).flatMap (fun i => if (x0 + i) % 4 == 3 then out (x0 + i) y0 0 else [])
    ++ (List.range (x0 - x1)).flatMap (fun i => if (x0 - i) % 4 == 0 then out (x0 - i) y0 1 else [])
    ++ (List.range (y1 - y0)).flatMap (fun i => if (y0 + i) % 4 == 3 then out x1 (y0 + i) 2 else [])
    ++ (List.range (y0 - y1)).flatMap (fun i => if (y0 - i) % 4 == 0 then out x1 (y0 - i) 3 else [])

/-- The boundary channels of a block, by edge and direction (R58, R59). -/
def State.boundary (s : State) (r : Nat) (h : Header) : PMap Nat :=
  if isStw r then []
  else (h.tents.flatMap (fun x =>
    if !(tValid x.2.2) || toIsland x.2.2 then []
    else match s.hop (ekOf r x.1) (tDx x.2.2) (tDy x.2.2) with
      | some e => s.crossings r (ekRegion e)
      | none => [])).foldl (fun m k => PMap.modify m k (· + 1)) []

/-- The bytes of a level (R127). -/
def levelBytes (lvl : Nat) : Nat := if lvl == 0 then 2 ^ 17 else if lvl == 1 then 2 ^ 23 else 2 ^ 26

/-- Does a partition hold the quad of a region, or its die (R223)? A steward region lies in no quad. -/
def State.holdsUnit (s : State) (r lvl : Nat) : Bool :=
  if lvl == 0 || isStw r then lvl != 1
  else
    let w := if lvl == 1 then 2 else 4
    let x := s.gxOf r / w * w
    let y := s.gyOf r / w * w
    let q := pRect (s.part ((s.pidOf r).getD 0))
    q.gx ≤ x && x + w ≤ q.gx + q.w && q.gy ≤ y && y + w ≤ q.gy + q.h

/-- The key of a binding's descriptor and its bytes overlap another live descriptor of the same buffer (R130). -/
def State.descClash (s : State) (k : Nat) (h : Shape) : Bool :=
  s.descs.any (fun x => x.1 != k && (x.1 < 2 ^ 20) == (k < 2 ^ 20)
    && (if k < 2 ^ 20 then x.1 / 256 == k / 256 else (x.1 - 2 ^ 20) / 1024 == (k - 2 ^ 20) / 1024)
    && (match x.2.shape with | some y => y.base < h.base + h.size && h.base < y.base + y.size | none => false))

/-- A binding's limits (R129, R130, R223). -/
def State.bindingFits (s : State) (r : Nat) (b : Binding) : Bool :=
  let h := b.shape
  b.idx < (if b.lvl == 0 then 8 else if b.lvl == 1 then 256 else 1024)
    && h.base + h.size ≤ levelBytes b.lvl && h.size % (64 * h.depth) == 0 && (h.mode != 2 || h.depth == 1)
    && (match b.tag with | some t => b.lvl == 0 && 4 * h.depth * t.wpf ≤ h.size && t.nfill != 0 | none => true)
    && s.holdsUnit r b.lvl
    && (match descKeyOf r b with
        | none => true
        | some k => match (s.descs.get k).shape with
          | some y => y == h && (s.descs.get k).pid == (s.pidOf r).getD 255
          | none => !(s.descClash k h))

/-- Two bindings of one block agree: those that name one descriptor give identical values, and the descriptors that they name overlap
in no byte (R130). -/
def bindingsAgree (r : Nat) (x y : Binding) : Bool :=
  match descKeyOf r x, descKeyOf r y with
  | some k, some l =>
    if k == l then x.shape == y.shape
    else x.lvl != y.lvl || x.shape.base + x.shape.size ≤ y.shape.base || y.shape.base + y.shape.size ≤ x.shape.base
  | _, _ => true

/-- The widths of the WID's iteration-tier fields, from field 0 (R56). -/
def iterWidths (h1 : Dword) : List Nat :=
  ((List.range 6).takeWhile (fun k => widWidth h1 k != 0 && widTier h1 k == 0)).map (widWidth h1)

/-- Check 6 of R51 (log 46: DEDUCED; log 90: DEDUCED). -/
def State.check6 (s : State) (r : Nat) (h1 : Dword) (h : Header) : Bool :=
  (h.loops.zip (iterWidths h1)).all (fun x => x.1.1 ≤ 2 ^ x.2)
    && (!(isStw r) || (List.range 64).all (fun e => !(inFoot h.foot e) || (e % 8 < 4 && e / 8 < 4)))
    && h.tents.all (fun x => !(tValid x.2.2) || toIsland x.2.2 ||
        (match s.hop (ekOf r x.1) (tDx x.2.2) (tDy x.2.2) with | some e => s.inLaunch r (ekRegion e) | none => false))
    && (s.boundary r h).all (fun x => x.2 ≤ 8)
    && h.bindings.all (fun x => s.bindingFits r x.2 && h.bindings.all (fun y => bindingsAgree r x.2 y.2))

/-! Check 7: consumers and feeders (R73, R81, R82). -/

/-- What feeds a field: a target entry or a tag counter, an iteration token, an initial token. -/
inductive Feeder where
  | entry | iter | first
  deriving DecidableEq, Repr

/-- The fields of the region that a block feeds, with their feeders (log 43: DEDUCED). -/
def State.feeders (s : State) (r : Nat) (h : Header) (extra : List (Target × Packet)) : List (Target × Feeder) :=
  h.tents.filterMap (fun x =>
    if !(tValid x.2.2) || tFld x.2.2 == 3 then none
    else match s.hop (ekOf r x.1) (tDx x.2.2) (tDy x.2.2) with
      | some e => if ekRegion e == r then some ({ eidx := ekIdx e, slot := tSlot x.2.2, fld := tFld x.2.2 }, .entry) else none
      | none => none)
    ++ h.bindings.filterMap (fun x => x.2.tag.map (fun t => ({ eidx := t.teidx, slot := t.tslot, fld := t.tfld }, .entry)))
    ++ h.itgts.map (fun t => (t, .iter)) ++ (h.inits ++ extra).map (fun x => (x.1, .first))

/-- Are the feeders of one field within R82? -/
def feedersOk (fs : List Feeder) : Bool :=
  (fs.filter (· == .entry)).length ≤ 1 && (fs.filter (· == .first)).length ≤ 1 && (!fs.contains .iter || fs.length == 1)

/-- The fields that a slot's sources name (R73): bit 0 L, 1 R, 2 P. -/
def namedFields (p : Plan) : BitVec 3 :=
  let one (x : BitVec 4) : BitVec 3 := if x == 8 then 1 else if x == 9 then 2 else if x == 10 then 4 else 0
  one p.o.sa ||| one p.o.sb ||| (if usesP p.op p.f then 4 else 0)

/-- The awaited fields of a slot (R73). -/
def awaited (fs : List (Target × Feeder)) (p : Plan) : BitVec 3 :=
  fs.foldl (fun m x => if x.1.eidx == p.e && x.1.slot == p.n then m ||| (1#3 <<< x.1.fld) else m) (namedFields p)

/-- The consumer channels that a block's output channels feed, as 4 × element key + channel. -/
def State.fedChannels (s : State) (r : Nat) (h : Header) : List Nat :=
  h.chmaps.filterMap (fun x =>
    let w := h.tent x.1 x.2.2
    if 4 ≤ tPort w then none else (s.hop (ekOf r x.1) (tDx w) (tDy w)).map (fun e => 4 * e + tPort w))

/-- The merge leaves that a block's output channels feed: quadrant and leaf (R196). -/
def Header.fedLeaves (h : Header) : List (Nat × Nat) :=
  h.chmaps.filterMap (fun x =>
    let w := h.tent x.1 x.2.2
    if tFld w == 3 && 12 ≤ tPort w then some (tPort w, (tTag w).toNat) else none)

/-- Check 7 of R51, but for the feeder marks that stand. -/
def State.check7 (s : State) (r : Nat) (h : Header) (ps : List Plan) (extra : List (Target × Packet)) : Bool :=
  let fs := s.feeders r h extra
  let chans := s.fedChannels r h
  let readers := ps.flatMap (fun p => (maskList p.o.icn).map (fun c => 4 * ekOf r p.e + c))
  fs.all (fun x => ps.any (fun p => p.e == x.1.eidx && p.n == x.1.slot)
      && feedersOk ((fs.filter (fun y => y.1 == x.1)).map (fun y => y.2)))
    && ps.all (fun p =>
        let aw := awaited fs p
        p.o.awt == (aw != 0) && !(forbidsP p.op p.f && aw.getLsbD 2))
    && chans.eraseDups.length == chans.length && readers.eraseDups.length == readers.length
    && chans.all (fun c => ekRegion (c / 4) != r || readers.contains c)
    && h.fedLeaves.eraseDups.length == h.fedLeaves.length

/-- A consumer channel that already carries a feeder mark (R82). -/
def State.markedChannel (s : State) (c : Nat) : Bool := ((s.elem (c / 4)).ins.get (c % 4)).mark

/-! Resources for which arming waits. -/

/-- Is a T, K, channel, FCW, LUT, tile range, boundary channel or the clock such that arming waits before it writes any slot word (R59,
R70, R130, R193, R274)? (log 44: DEDUCED) -/
def State.headerWaits (s : State) (r : Nat) (h : Header) (words : List Dword) : Bool :=
  let ps := plansOf h words
  let el (e : Nat) : Elem := s.elem (ekOf r e)
  let frames := (s.region r).frames.filter (fun x => x.2.st != .free)
  h.tents.any (fun x => (el x.1).tOwn.get x.2.1 != 0)
    || h.kcons.any (fun x => (el x.1).kOwn.get x.2.1 != 0)
    || h.chmaps.any (fun x => ((el x.1).outs.get x.2.1).frm != 0)
    || ps.any (fun p => (maskList p.o.icn).any (fun c => ((el p.e).ins.get c).frm != 0))
    || h.fcws.any (fun x => (el x.1).fcw != x.2 && !((el x.1).users.isEmpty))
    || (match h.lut with | some i => frames.any (fun x => match x.2.lut with | some j => j != i | none => false) | none => false)
    || h.bindings.any (fun x => x.2.lvl == 0 && frames.any (fun y => y.2.bnds.any (fun z =>
        z.2.lvl == 0 && z.2.idx == x.2.idx && z.2.shape.base < x.2.shape.base + x.2.shape.size
          && x.2.shape.base < z.2.shape.base + z.2.shape.size)))
    || (s.boundary r h).any (fun x => x.2 ≤ 8 && 8 < x.2 + s.regions.foldl (fun n q => n + q.2.frames.foldl (fun m f => m + f.2.bounds.get x.1) 0) 0)
    || (h.fcws.any (fun x => 11 < (x.2.extractLsb' 7 4).toNat || 11 < (x.2.extractLsb' 3 4).toNat) && !(s.die (rkDie r)).clockFull)

/-- A position of a stream, in doublewords from its first word: one before it is written as its complement, so that adding the base
gives the word it names (R55). -/
def streamPos (x : Int) : Nat := (x % (2 ^ 61 : Nat)).toNat

/-- Where a region's stream stands in memory. -/
def State.streamVa (s : State) (r soff : Nat) : Nat := ((s.region r).base + 8 * soff) % 2 ^ 64

/-- The launch's flags word and WID layout, as arming uses them. -/
def State.launchDet (s : State) (r : Nat) : Bool := match s.launchOf r with | some l => l.det | none => false
def State.launchWid (s : State) (r : Nat) : Dword := match s.launchOf r with | some l => l.word 1 | none => 0

/-- How many slot words are written before arming stalls at a position still held by an older frame (R51); none where it does not. -/
def State.armStall (s : State) (r : Nat) (h : Header) (words : List Dword) : Option Nat :=
  if s.headerWaits r h words then some 0
  else (placed h words).findIdx? (fun x => x.2 != 0 && ((s.elem (ekOf r x.1.1)).slots.get x.1.2).frm != 0)

/-- The first of checks 2 to 6 that fails on the header and on the slot words written so far, each checked as it is written (R51)
(log 44: DEDUCED). -/
def State.writtenChecks (s : State) (r : Nat) (h : Header) (words : List Dword) (n : Nat) : Option FCode :=
  let done := words.take n
  let ps := plansOf h words
  if !(h.whole && done.all wordDefined && h.tents.all (fun x => tentLegal (h.isBound x.1 x.2.1) x.2.2)
      && (plansOf h done).all (s.planDefined r (s.launchWid r) h ps)) then some .illegal
  else if !(check3 (isStw r) done) then some .priv
  else if !(s.check4 r h (plansOf h done)) then some .nonDet
  else if !(s.check5 r h (plansOf h done)) then some .scope
  else if !(s.check6 r (s.launchWid r) h) then some .bounds
  else none

/-! Arming. -/

/-- An element armed with what the header gives it. -/
def armElem (r frm : Nat) (h : Header) (ps : List Plan) (fs : List (Target × Feeder)) (e : Nat) (el : Elem) : Elem :=
  let ts := h.tents.filter (fun x => x.1 == e)
  let ks := h.kcons.filter (fun x => x.1 == e)
  let cs := h.chmaps.filter (fun x => x.1 == e)
  let mine := ps.filter (fun p => p.e == e)
  let _ := r
  { el with
    users := el.users ++ [frm]
    fcw := (assoc h.fcws e).getD el.fcw
    t := ts.foldl (fun m x => m.set x.2.1 x.2.2) el.t
    k := ks.foldl (fun m x => m.set x.2.1 x.2.2) el.k
    tOwn := ts.foldl (fun m x => m.set x.2.1 (frm + 1)) el.tOwn
    kOwn := ks.foldl (fun m x => m.set x.2.1 (frm + 1)) el.kOwn
    spent := el.spent.filter (fun t => !(ts.any (fun x => x.2.1 == t)))
    outs := cs.foldl (fun m x => m.modify x.2.1 (fun o => { o with bound := x.2.2 + 1, frm := frm + 1 })) el.outs
    ins := (mine.flatMap (fun p => maskList p.o.icn)).foldl (fun m c => m.modify c (fun x => { x with frm := frm + 1 })) el.ins
    slots := mine.foldl (fun m p => m.set p.n { word := p.word, frm := frm + 1, aw := awaited fs p }) el.slots }

/-- Bindings armed: a tile binding's ring is new; a QB or DB binding creates its descriptor where it is free (R130). -/
def State.armBinding (s : State) (r : Nat) (b : Binding) : State :=
  match descKeyOf r b with
  | none => s
  | some k => if (s.descs.get k).shape.isSome then s
    else { s with descs := s.descs.set k { shape := some b.shape, pid := (s.pidOf r).getD 255 } }

/-- The frame of an armed block. -/
def frameOf (s : State) (r soff : Nat) (h : Header) (extra : List (Target × Packet)) : Frame :=
  { st := .armed, soff := soff, len := h.hlen + h.nslot, flags := h.flags, foot := h.foot, succ := h.succ,
    loops := { counts := h.loops.map (fun x => x.1), strides := h.loops.map (fun x => x.2), idx := h.loops.map (fun _ => 0),
               done := h.itgts.isEmpty },
    itgt := h.itgts, inits := h.inits ++ extra, stst := h.ststs,
    bnds := h.bindings.foldl (fun m x => m.set x.1 x.2) [], data := h.datas.foldl (fun m x => m.set x.1 x.2) [], lut := h.lut,
    marks := s.fedChannels r h, bounds := s.boundary r h, priv := isStw r }

/-- Everything that an armed block writes (R51, R70, R81, R82, R130). An entry starts with its credit, and a credit still on its way
back to the entry's former holder ends there (R76). After a commit the block acquires what it released, so the region's prefetch lines go
(R54, R156). -/
def State.armBlock (s : State) (r frm soff : Nat) (h : Header) (ps : List Plan) (extra : List (Target × Packet)) : State :=
  let fs := s.feeders r h extra
  let fr := frameOf s r soff h extra
  let s := (List.range 64).foldl (fun s e => if inFoot h.foot e then s.modElem (ekOf r e) (armElem r frm h ps fs e) else s) s
  let s := fr.marks.foldl (fun s c => s.modElem (c / 4) (fun el =>
    { el with ins := el.ins.modify (c % 4) (fun x => { x with mark := true }) })) s
  let s := { s with creds := s.creds.filter (fun c => !(h.tents.any (fun x => c == (ekOf r x.1, x.2.1)))) }
  let s := h.bindings.foldl (fun s x => s.armBinding r x.2) s
  let next : Int := match h.succ with | [c] => (soff : Int) + c | _ => ((soff + fr.len : Nat) : Int)
  s.modRegion r (fun x =>
    { x with frames := x.frames.set frm fr, order := x.order ++ [frm], fromOff := soff, branched := h.succ.length == 1,
             prefetch := if x.commits == 0 then x.prefetch else []
             seq := if 2 ≤ h.nsucc then .branch frm else .run, sqp := streamPos next })

/-! Reading the stream. -/

/-- n doublewords from an address, or the fault with the address it concerns. -/
def State.readWords (s : State) (r va : Nat) : Nat → Except (FCode × Nat) (List Dword)
  | 0 => .ok []
  | n + 1 =>
    match s.readDword r va with
    | .error c => .error (c, va)
    | .ok w => match s.readWords r (va + 8) n with
      | .error x => .error x
      | .ok ws => .ok (w :: ws)

/-- The record of a fault of a region's sequencer (R242, R394). -/
def State.seqRecord (s : State) (c : FCode) (r soff frm : Nat) (va : Option Nat) : Record :=
  { s.recordAt c r soff { frm := frm } with src := 1, prec := true, vav := va.isSome, va := va.getD 0 }

/-- A fault of a region's sequencer: arming ends where it stands (R51, R394) (log 47: DEDUCED). -/
def State.seqFault (s : State) (c : FCode) (r soff frm : Nat) (va : Option Nat) : State :=
  s.raiseAt c r (s.seqRecord c r soff frm va)

/-- The lowest-numbered free frame (R52). -/
def Region.freeFrame (x : Region) : Option Nat := (List.range 8).find? (fun f => (x.frames.get f).st == .free)

/-- The tokens that the launch's initial-token image gives a block (R298) (log 44: DEDUCED; log 141: DESIGN CHOICE). -/
def State.imageTokens (s : State) (r soff : Nat) (h : Header) : Except (FCode × Option Nat) (List (Target × Packet)) :=
  match s.launchOf r with
  | none => .ok []
  | some l =>
    let va := (l.word 4).toNat
    match s.readWords r va 1 with
    | .error (c, a) => .error (c, some a)
    | .ok ws =>
      let n := bitsOf (ws.headD 0) 0 32
      let rec size (k at' : Nat) (acc : List Dword) : Except (FCode × Nat) (List Dword) :=
        match k with
        | 0 => .ok acc
        | k + 1 =>
          match s.readWords r at' 3 with
          | .error x => .error x
          | .ok hd =>
            let m := (bitsOf (hd.getD 2 0) 18 3 + 2) / 2
            match s.readWords r (at' + 24) m with
            | .error x => .error x
            | .ok ls => size k (at' + 24 + 8 * m) (acc ++ hd ++ ls)
      match size n (va + 8) [] with
      | .error (c, a) => .error (c, some a)
      | .ok ws =>
        let x := s.region r
        match tokenRecords h.foot x.fx x.fy soff n ws with
        | none => .error (.illegal, none)
        | some ts => .ok ts

/-- Checks 2 to 7 of R51 in their order. -/
def State.armChecks (s : State) (r : Nat) (h : Header) (words : List Dword) (extra : List (Target × Packet)) : Option FCode :=
  let h1 := s.launchWid r
  let ps := plansOf h words
  if !(s.check2 r h1 h words) then some .illegal
  else if !(check3 (isStw r) words) then some .priv
  else if !(s.check4 r h ps) then some .nonDet
  else if !(s.check5 r h ps) then some .scope
  else if !(s.check6 r h1 h) then some .bounds
  else if !(s.check7 r h ps extra) || (s.fedChannels r h).any s.markedChannel then some .illegal
  else none

/-- The header of a block, its slot words, and the tokens of the image: everything that arming reads. A wrong header faults at
once (check 1, R294), and so does a word written before arming stalls; a block that must wait gives none (log 140: DESIGN CHOICE). -/
def State.armBlockAt (s : State) (r soff frm : Nat) : Except (FCode × Option Nat) (Option State) :=
  let va (x : FCode × Nat) : FCode × Option Nat := (x.1, some x.2)
  match s.readWords r (s.streamVa r soff) 1 with
  | .error x => .error (va x)
  | .ok w0 =>
    let bh := w0.headD 0
    if bitsOf bh 48 16 != 0x5A3C || hlenOf bh < 5 then .error (.blkAlign, none)
    else match s.readWords r (s.streamVa r soff) (hlenOf bh) with
      | .error x => .error (va x)
      | .ok hs =>
        if !(headerSync hs) then .error (.blkAlign, none)
        else match parseHeader (s.launchDet r) hs with
          | none => .error (.illegal, none)
          | some h =>
            match s.readWords r (s.streamVa r (soff + h.hlen)) h.nslot with
            | .error x => .error (va x)
            | .ok words =>
              match s.armStall r h words with
              | some n => match s.writtenChecks r h words n with
                | some c => .error (c, none)
                | none => .ok none
              | none => match s.imageTokens r soff h with
                | .error x => .error x
                | .ok extra =>
                  match s.armChecks r h words extra with
                  | some c => .error (c, none)
                  | none => .ok (some (s.armBlock r frm soff h (plansOf h words) extra))

/-- The frame that a region's sequencer arms: the one in arming, or else the lowest-numbered free one (R52). -/
def Region.armFrame (x : Region) : Option Nat :=
  match (List.range 8).find? (fun f => (x.frames.get f).st == .arming) with
  | some f => some f
  | none => x.freeFrame

/-- A frame taken for arming, and a frame given back by a check that failed (R52). -/
def State.takeFrame (s : State) (r frm soff : Nat) : State :=
  s.modRegion r (fun x => { x with frames := x.frames.set frm { st := .arming, soff := soff, priv := isStw r } })
def State.dropFrame (s : State) (r frm : Nat) : State := s.modRegion r (fun x => { x with frames := x.frames.set frm {} })

/-- BLOCK_ARM: the sequencer of a region, at a block header, arms it in the lowest-numbered free frame (R51, R52). With no frame free it
waits; at a resource held it stalls, its frame in arming. -/
def execBlockArm (r : Nat) (s : State) : Host.Outcome State Fault Refusal :=
  let x := s.region r
  if x.seq != .run || !(s.moving r) then .next s
  else match x.armFrame with
    | none => .next s
    | some frm =>
      match s.armBlockAt r x.sqp frm with
      | .error (c, va) => .next (((s.dropFrame r frm).seqFault c r x.sqp frm va).drawn)
      | .ok none => .next (s.takeFrame r frm x.sqp).drawn
      | .ok (some t) => .next ((t.drawn).touch r)

end Sys2Proof.Machine
end

