-- ==== Sys2Proof/Machine/Stream.lean ====
section
/-! DEFINITION. What the panel sends to other panels over TRLS (R264, R265), and writes at a home with the forwarding of a slice
move (R240). -/

namespace Sys2Proof.Machine

/-! TRLS. -/

def State.stream (s : State) (panel n : Nat) : Stream := s.panel.root.streams.get (streamKey panel n)

def State.modStream (s : State) (panel n : Nat) (f : Stream → Stream) : State :=
  s.modRoot (fun x => { x with streams := x.streams.modify (streamKey panel n) f })

/-- The header of a packet of a stream (R264): the numbers of the panels, the stream, the key generation, a PSN and the cumulative
acknowledgement, which names the last packet taken in order (log 102: DESIGN CHOICE). -/
def State.trlsHdr (s : State) (panel n psn g : Nat) (payload : List Byte) : TrlsHdr :=
  { spanel := s.panel.root.panelNo, dpanel := BitVec.ofNat 16 panel, stream := BitVec.ofNat 16 n,
    kgen := (s.panel.root.sessions.get panel).ktx, psn := BitVec.ofNat 32 psn,
    apsn := BitVec.ofNat 32 ((s.stream panel n).expect + 2 ^ 32 - 1), gpa := BitVec.ofNat 64 g, payload := payload }

/-- The nonce of a packet: KGEN, the stream, the PSN and 32 zero bits (R264). -/
def trlsNonce (bs : List Byte) : BitVec 96 :=
  let h := trlsFields bs
  h.kgen ++ h.stream ++ h.psn ++ 0#32

/-- A packet's payload encrypted, or decrypted, behind its 32 bytes of header, which are the associated data (R264). -/
def trlsCrypt (key : BitVec 256) (bs : List Byte) : List Byte := bs.take 32 ++ gcmCrypt key (trlsNonce bs) (bs.drop 32)

/-- The tag of a packet as it travels. -/
def trlsTag (key : BitVec 256) (bs : List Byte) : List Byte := wordBytes (Config.gcmTag key (trlsNonce bs) (bs.take 32) (bs.drop 32))

/-- A packet as it is sent: header, encrypted payload, tag under the session's key (R264). -/
def State.trlsSealed (s : State) (panel : Nat) (bs : List Byte) : List Byte :=
  let key := (s.panel.root.sessions.get panel).tkey
  trlsCrypt key bs ++ trlsTag key (trlsCrypt key bs)

/-- The UDP port of TRLS: 19,282 where none is set (R264) (log 58: DESIGN CHOICE). -/
def State.udpPort (s : State) : BitVec 16 := s.panel.root.trlsPort.getD 19282

/-- The address of a peer's port die to which a stream's packets go: its entry's addresses in turn, by stream (R264). -/
def State.peerAddr (s : State) (panel n : Nat) : BitVec 128 :=
  let xs := s.panel.root.peers.get panel
  xs.getD (n % max xs.length 1) 0

/-- A packet sent, sealed, in UDP over IPv6 (R264). -/
def State.trlsEmit (s : State) (panel n : Nat) (bs : List Byte) : State :=
  s.emit (.trls (s.peerAddr panel n) s.udpPort (s.trlsSealed panel bs))

/-- A packet that no acknowledgement follows: ACK, NAK, KEYSWITCH. -/
def State.trlsControl (s : State) (panel n op psn : Nat) : State :=
  s.trlsEmit panel n (trlsBytes op (s.trlsHdr panel n psn 0 []))

/-- The streams with a panel changed. -/
def State.modStreams (s : State) (panel : Nat) (f : Stream → Stream) : State :=
  (List.range 16).foldl (fun s n => s.modStream panel n f) s

/-- Does any stream with a panel hold a packet not yet acknowledged? -/
def State.pairBusy (s : State) (panel : Nat) : Bool := (List.range 16).any (fun n => !(s.stream panel n).unacked.isEmpty)

/-- The transmit key of a session in its next generation. -/
def State.nextTx (s : State) (panel : Nat) : State :=
  let roll (y : Session) : Session := { y with ktx := y.ktx + 1, tkey := Config.sessionKey s.draws }
  (s.modRoot (fun y => { y with sessions := y.sessions.modify panel roll })).drawn

/-- The transmit key of a pair rolls: KEYSWITCH, the next generation, packets numbered from 0 (R264, R265) (log 101: DEDUCED). -/
def State.rollKeys (s : State) (panel : Nat) : State :=
  ((s.trlsControl panel 0 7 0).nextTx panel).modStreams panel (fun y => { y with psn := 0 })

/-- Must a stream send nothing new before the roots have rekeyed: its PSN is close to 2^31 (R265)? (log 101: DEDUCED) -/
def State.streamFull (s : State) (panel n : Nat) : Bool := 2 ^ 31 - 2 ^ 20 ≤ (s.stream panel n).psn

/-- A packet sent on a stream: it waits there until it is acknowledged (R265). From 2^30 on the roots rekey as soon as no packet of the
pair is outstanding. -/
def State.trlsSendOn (s : State) (panel n op g : Nat) (payload : List Byte) : State :=
  let s := if 2 ^ 30 ≤ (s.stream panel n).psn && !(s.pairBusy panel) then s.rollKeys panel else s
  let psn := (s.stream panel n).psn
  let bs := trlsBytes op (s.trlsHdr panel n psn g payload)
  (s.modStream panel n (fun x => { x with psn := psn + 1, unacked := x.unacked ++ [(psn, bs)] })).trlsEmit panel n bs

/-- A request sent to the panel that a GPA names (R265). -/
def State.trlsSend (s : State) (op g : Nat) (payload : List Byte) : State :=
  s.trlsSendOn (gpaPanel g) (trlsStream g) op g payload

/-- The payload of a request: its number, its size, the VF, the kind of operation, and two operands of 8 bytes, then data. The
spec gives the payloads no layout; this one is the model's (log 59: DESIGN CHOICE). -/
def reqPayload (id size vf kind : Nat) (b p : Nat) (data : List Byte) : List Byte :=
  valBytes 4 id ++ valBytes 1 size ++ valBytes 1 vf ++ valBytes 1 kind ++ valBytes 1 0 ++ valBytes 8 b ++ valBytes 8 p ++ data

/-- The TRLS operation, kind and operands of a request (R264, R400): SYADD goes by SYNCADD, SYA and SYWCH by ATOMIC
(log 59: DESIGN CHOICE). -/
def trlsOp : ReqOp → Nat × Nat × Nat × Nat
  | .load _ => (0, 0, 0, 0)
  | .store => (1, 0, 0, 0)
  | .atomic sub sg _ _ b p => (2, sub + (if sg then 128 else 0), b, p)
  | .sya tgt sc gen => (2, 16, tgt, sc + 256 * gen)
  | .syadd n => (3, 0, n, 0)
  | .sywch g => (2, 17, g, 0)
  | _ => (0, 0, 0, 0)

/-- Is a contributor a launch's completion? -/
def Contributor.completes : Contributor → Bool
  | .completion _ _ => true
  | .remote _ _ _ c => c
  | _ => false

/-- The VF of a request. -/
def State.reqVf (s : State) (q : Req) : Nat :=
  match q.who with
  | .host qpn _ _ => (s.panel.qps.get qpn).vf
  | .completion _ pid | .dependence pid _ => pVf (s.part pid)
  | _ => match s.who q.ret.rk with | some pid => pVf (s.part pid) | none => 0

/-- The physical die from which a request goes out: its element's or engine's; a launch's home die (R42); for a host's, the first die of
its port die. -/
def State.reqDie (s : State) (q : Req) : Nat :=
  match q.who with
  | .host qpn _ _ => s.portEntry ((s.panel.qps.get qpn).port / 8)
  | .completion die _ => s.physDie die
  | .dependence pid _ => s.physDie (s.homeDie pid)
  | _ => s.physDie (rkDie q.ret.rk)

/-- A memory request sent to another panel; a launch's completion is told apart by its kind (log 90: DEDUCED; log 121: DEDUCED). -/
def State.sendRemote (s : State) (q : Req) : State :=
  let x := trlsOp q.op
  s.trlsSend x.1 q.gpa (reqPayload (q.id % 2 ^ 31) q.size (s.reqVf q) (if q.who.completes then 18 else x.2.1) x.2.2.1 x.2.2.2 q.data)

/-! Writes at a home. -/

/-- The site of a key, in the numbers of `siteNo`, and the offset there; none for tile memory. -/
def keySite (a : Nat) : Option (Nat × Nat) :=
  if a < 2 ^ 60 then some (a / 2 ^ 40, a % 2 ^ 40)
  else if a < 2 ^ 61 then some (100 + (a - 2 ^ 60) / 2 ^ 32, (a - 2 ^ 60) % 2 ^ 32)
  else none

/-- Is the way between a physical die and the home of a key open, both ways (R25, R28)? (log 127: DEDUCED) -/
def State.keyWay (s : State) (src a : Nat) : Bool :=
  match keySite a with
  | none => true
  | some (site, _) =>
    if 100 ≤ site then s.pathOpen src (site - 100)
    else s.pathOpen src (s.entryDie site) && s.isActive (idBridge site) && s.carries (s.lastChan site)

/-- Where a write at a key is repeated while its frame is being copied (R240). -/
def State.copyKey (s : State) (a : Nat) : Option Nat :=
  match keySite a with
  | none => none
  | some (site, off) =>
    match s.panel.pgfw.get (site * 2 ^ 20 + off / 2 ^ 21) with
    | .copy v l => some (siteKey (s.newSite site v) (l * 2 ^ 21 + off % 2 ^ 21))
    | _ => none

/-- Bytes written at their home. -/
def State.putHome (s : State) (a : Nat) (bs : List Byte) : State :=
  match s.copyKey a with
  | some c => (s.write a bs).write c bs
  | none => s.write a bs

/-- A sync mark set or cleared at its home (R138). -/
def State.putMark (s : State) (a : Nat) (b : Bool) : State :=
  let ms := s.marks.set (a / 16) b
  { s with marks := match s.copyKey a with | some c => PMap.set ms (c / 16) b | none => ms }

/-- The number in a packet for a write that a copy job makes, and for one that no request and no job waits for. -/
def jobTag (i : Nat) : Nat := 2 ^ 31 + i % 2 ^ 30
def noTag : Nat := 2 ^ 32 - 1

/-- A write to a key for a VF, wherever it is: this panel's memory, or another panel's, to which a STORE goes. -/
def State.putAny (s : State) (vf tag g a : Nat) (bs : List Byte) : State :=
  if 2 ^ 63 ≤ a then s.trlsSend 1 g (reqPayload tag bs.length vf 0 0 0 bs) else s.putHome a bs

/-! Sync words (R137). -/

def syncVal (m : List Host.Cell) (a : Nat) : Nat := bytesVal (memBytes m a 16)
def syncTgt (w : Nat) : Nat := w / 2 ^ 88 % 2 ^ 40
def syncCnt (w : Nat) : Nat := w / 2 ^ 48 % 2 ^ 40
def syncGen (w : Nat) : Nat := w / 2 ^ 32 % 2 ^ 16
def syncScope (w : Nat) : Nat := w % 8
def syncBits (tgt cnt gen rsv ovf scope : Nat) : Nat :=
  field tgt 88 40 + field cnt 48 40 + field gen 32 16 + field rsv 4 28 + field ovf 3 1 + field scope 0 3

/-- The generation test of R46 and R140. -/
def genMet (gen g : Nat) : Bool := (gen + 2 ^ 16 - g % 2 ^ 16) % 2 ^ 16 < 2 ^ 15

/-- Is a generation of the sync word at a key reached? -/
def State.wordMet (s : State) (a g : Nat) : Bool := genMet (syncGen (syncVal s.mem a)) g

/-- One update of a sync word by the increments of a home cycle (R139): the word, whether it advanced, whether the remainder still
reaches the target. -/
def syncAdd (w d : Nat) : Nat × Bool × Bool :=
  let n := syncCnt w + d
  let rsv := w / 16 % 2 ^ 28
  let ovf := w / 8 % 2
  if syncTgt w ≤ n then
    let c := n - syncTgt w
    let full := syncTgt w ≤ c
    (syncBits (syncTgt w) c (syncGen w + 1) rsv (if full then 1 else ovf) (syncScope w), true, full)
  else (syncBits (syncTgt w) n (syncGen w) rsv ovf (syncScope w), false, false)

/-- The tier of the level that holds a key (R137): 1 tile memory, 2 QB, 3 DB, 4 panel memory. -/
def keyTier (a : Nat) : Nat :=
  if 2 ^ 61 ≤ a then 1
  else if 2 ^ 60 ≤ a then (if (a - 2 ^ 60) % 2 ^ 32 < 0x4000000 then 3 else 2)
  else 4

/-! Order at a home (R133). -/

/-- Insertion of an item into a list sorted by a key, before its equals. -/
def insertOn {α : Type} (f : α → Nat) (x : α) : List α → List α
  | [] => [x]
  | y :: ys => if f x ≤ f y then x :: y :: ys else y :: insertOn f x ys

/-- A list sorted by a key, equals in their order. -/
def sortOn {α : Type} (f : α → Nat) : List α → List α
  | [] => []
  | x :: xs => insertOn f x (sortOn f xs)

/-- The place of a die in the port order of a home: the die that holds it, then the others by VDN (R133). -/
def State.dieRank (s : State) (a die : Nat) : Nat :=
  match keySite a with
  | some (site, _) => if 100 ≤ site && s.physDie die == site - 100 then 0 else die + 1
  | none => die + 1

/-- The place of a request in the port order of its home: die, agent within it, issue order; the steward is the last of its die, and what
comes from port dies follows every fabric die's (R133) (log 122: DEDUCED). -/
def State.portRank (s : State) (a : Nat) (q : Req) : Nat :=
  let at_ (die c : Nat) : Nat := s.dieRank a die * 2 ^ 26 + c
  let port (p : Nat) : Nat := (s.ndies + 1 + p) * 2 ^ 26
  let x := match q.who with
    | .firing =>
      if isStw q.ret.rk then at_ (rkDie q.ret.rk) (2 ^ 25 + ekIdx q.ret.e)
      else at_ (rkDie q.ret.rk) ((s.gyOf q.ret.rk * 64 + s.gxOf q.ret.rk) * 64 + ekIdx q.ret.e)
    | .job _ edge _ _ _ _ => at_ (rkDie q.ret.rk) (2 ^ 24 + edge)
    | .completion die _ => at_ die (2 ^ 25 + 64)
    | .dependence pid _ => at_ (s.homeDie pid) (2 ^ 25 + 64)
    | .remote _ _ _ _ => port (s.portFor q.gpa)
    | .host qpn _ _ => port ((s.panel.qps.get qpn).port / 8)
  x * 2 ^ 64 + q.id

end Sys2Proof.Machine
end

