-- ==== Sys2Proof/Machine/Grounds.lean ====
section
/-! DEFINITION. The grounds ring of a partition (R209 to R211): its control block, records reserved, written, read back and
freed. -/

namespace Sys2Proof.Machine

/-- A doubleword of panel memory as the ring's users reach it: by its GPA, with the partition's VF. -/
def State.ringKey (s : State) (pid g : Nat) : Except FCode Nat := s.place2 (some pid) g { rd := true, wr := true }

/-- The GPA of the control block (R226). -/
def State.ringBlock (s : State) (pid : Nat) : Nat := bitsOf (s.part pid).pgrb 6 50 * 64

/-- A doubleword read, and written. -/
def State.ringRead (s : State) (pid g : Nat) : Except FCode Nat := do
  let a ← s.ringKey pid g
  if s.eccBad a 8 then .error .ecc else .ok (bytesVal (memBytes s.mem a 8))

def State.ringWrite (s : State) (pid g v : Nat) : Except FCode State := do
  let a ← s.ringKey pid g
  .ok (s.putHome a (valBytes 8 v))

/-- Doublewords written from a GPA. -/
def State.ringPut (s : State) (pid g : Nat) : List Nat → Except FCode State
  | [] => .ok s
  | v :: vs => do
    let t ← s.ringWrite pid g v
    t.ringPut pid (g + 8) vs

/-- Doublewords read from a GPA. -/
def State.ringGet (s : State) (pid g : Nat) : Nat → Except FCode (List Nat)
  | 0 => .ok []
  | n + 1 => do
    let v ← s.ringRead pid g
    let vs ← s.ringGet pid (g + 8) n
    .ok (v :: vs)

/-- The control block (R209): BASE, SIZE, HEAD, TAIL, USED, NSPX. -/
structure RingCb where
  base : Nat
  size : Nat
  head : Nat
  tail : Nat
  used : Nat
  nspx : Nat

/-- The control block of a partition. -/
def State.ringCb (s : State) (pid : Nat) : Except FCode RingCb := do
  match ← s.ringGet pid (s.ringBlock pid) 6 with
  | [a, b, c, d, e, f] => .ok { base := a, size := b, head := c, tail := d, used := e, nspx := f }
  | _ => .error .xlat

def RingCb.words (c : RingCb) : List Nat := [c.base, c.size, c.head, c.tail, c.used, c.nspx]

/-- The GPA of the first doubleword of a partition's control block or ring with an uncorrectable error (R242). -/
def State.ringBad (s : State) (pid : Nat) : Nat :=
  let bad (g : Nat) : Bool := match s.ringRead pid g with | .error .ecc => true | _ => false
  match ((List.range 6).map (fun i => s.ringBlock pid + 8 * i)).find? bad with
  | some g => g
  | none => match s.ringCb pid with
    | .ok cb => (((List.range (cb.size / 8)).map (fun i => cb.base + 8 * i)).find? bad).getD 0
    | .error _ => 0

/-- Doubleword 0 of a record (R210): KIND, STATE, RLEN. -/
def recordHead (kind st len : Nat) : Nat := field 0x4752 48 16 + field kind 46 2 + field st 44 2 + field len 0 40

/-- Lanes in pairs as doublewords. -/
def lanePairs : List Lane → List Nat
  | [] => []
  | [x] => [x.toNat]
  | x :: y :: zs => (x.toNat + y.toNat * 2 ^ 32) :: lanePairs zs

/-- The bytes of a record with a body of n lanes. -/
def recordLen (n : Nat) : Nat := 64 + (4 * n + 63) / 64 * 64

/-- HEAD advanced past the freed records (R211), at most n of them. -/
def State.ringAdvance (s : State) (pid : Nat) : Nat → State
  | 0 => s
  | n + 1 =>
    match s.ringCb pid with
    | .error _ => s
    | .ok cb =>
      if cb.used == 0 || cb.size == 0 then s
      else match s.ringRead pid (cb.base + cb.head) with
        | .error _ => s
        | .ok w =>
          let len := w % 2 ^ 40
          if w / 2 ^ 44 % 4 != 2 || len == 0 then s
          else match s.ringPut pid (s.ringBlock pid) { cb with head := (cb.head + len) % cb.size, used := cb.used - len }.words with
            | .error _ => s
            | .ok t => t.ringAdvance pid n

/-- A record reserved, written and completed (R211): the state and its offset, or the fault. An F_SPILLEX counts in NSPX
(log 139: DESIGN CHOICE). -/
def State.ringAppend (s : State) (pid kind : Nat) (hdr : List Nat) (body : List Lane) : State × Except FCode Nat :=
  match s.ringCb pid with
  | .error c => (s, .error c)
  | .ok cb =>
    let len := recordLen body.length
    let pad := if cb.size < cb.tail + len then cb.size - cb.tail else 0
    if cb.size < cb.used + pad + len then
      match s.ringPut pid (s.ringBlock pid) { cb with nspx := cb.nspx + 1 }.words with
      | .ok t => (t, .error .spillEx)
      | .error c => (s, .error c)
    else
      let off := if pad == 0 then cb.tail else 0
      let next : RingCb := { cb with tail := (off + len) % cb.size, used := cb.used + pad + len }
      let wrote : Except FCode State := do
        let t ← if pad == 0 then pure s else s.ringPut pid (cb.base + cb.tail) (recordHead 2 2 pad :: List.replicate 7 0)
        let t ← t.ringPut pid (t.ringBlock pid) next.words
        let t ← t.ringPut pid (cb.base + off) ((recordHead kind 0 len :: hdr) ++ lanePairs body)
        t.ringWrite pid (cb.base + off) (recordHead kind 1 len)
      match wrote with
      | .ok t => (t.ringAdvance pid 2, .ok off)
      | .error c => (s, .error c)

/-- A record freed: its STATE becomes 2, and HEAD moves past what is freed (R211). -/
def State.ringFree (s : State) (pid off : Nat) : State :=
  match s.ringCb pid with
  | .error _ => s
  | .ok cb =>
    match s.ringRead pid (cb.base + off) with
    | .error _ => s
    | .ok w =>
      match s.ringWrite pid (cb.base + off) (w % 2 ^ 44 + w / 2 ^ 46 * 2 ^ 46 + 2 * 2 ^ 44) with
      | .error _ => s
      | .ok t => t.ringAdvance pid (cb.used / 64 + 1)

/-- Records freed. -/
def State.ringFreeAll (s : State) (pid : Nat) (offs : List Nat) : State := offs.foldl (fun s o => s.ringFree pid o) s

/-- The body of a record: n lanes. -/
def State.ringBody (s : State) (pid off n : Nat) : Except FCode (List Lane) := do
  let cb ← s.ringCb pid
  let ws ← s.ringGet pid (cb.base + off + 64) ((n + 1) / 2)
  .ok ((ws.flatMap (fun w => [BitVec.ofNat 32 w, BitVec.ofNat 32 (w / 2 ^ 32)])).take n)

end Sys2Proof.Machine
end

