-- ==== Sys2Proof/Machine/Global.lean ====
section
/-! DEFINITION. The firings that act on panel and remote memory and on sync words: LDG, STG, ATG, SYA, SYADD, SYWCH, PFG, FNC
(R314, R321, R345, R354, R369, R397, R400). A firing checks its packets and its address and leaves a request; translation, the
home and the response are events (MemoryEvents.lean). -/

namespace Sys2Proof.Machine

/-- A fault of a firing with the address it concerns, where it concerns one (R152). -/
abbrev AccessFault := FCode × Option Nat

/-- A firing whose fault may carry an address (R152) (log 35: DEDUCED). -/
def fireAt (o : Slot) (f : Fn) (g : State → Nat → Nat → Env → Except AccessFault (State → State)) (s : State) :
    Host.Outcome State Fault Refusal :=
  match g s s.cur.1 s.cur.2 (s.envOf s.cur.1 s.cur.2 o f) with
  | .error (c, none) => .next (s.raiseSlot c s.cur.1 s.cur.2)
  | .error (c, some va) => .next (s.raiseAccess c s.cur.1 s.cur.2 va)
  | .ok k => .next (k (s.trigger s.cur.1 s.cur.2 o o.icn))

/-- A check that concerns no address. -/
def plain {α : Type} (x : Except FCode α) : Except AccessFault α := x.mapError (fun c => (c, none))

/-- A check of an address. -/
def atVa {α : Type} (va : Nat) (x : Except FCode α) : Except AccessFault α := x.mapError (fun c => (c, some va))

/-- What a firing asks of one packet source: its length, whether its format will do, whether it must be unscaled, and whether the
length rule of its own format holds for it too (R84, R109). -/
structure PkCheck where
  pk : Packet
  len : Nat
  fmtOk : Bool
  scale : Bool := true
  own : Bool := true

/-- The checks of R87 on several sources: lengths, then formats, then scale tags. -/
def pkChecks (xs : List PkCheck) : Except FCode Unit :=
  if xs.any (fun x => x.pk.lanes.length != x.len || (x.own && !ownLenOk x.pk)) then .error .pkLen
  else if xs.any (fun x => !x.fmtOk) then .error .fmt
  else if xs.any (fun x => x.scale && x.pk.sc) then .error .scaleTag
  else .ok ()

/-- A control operand beside other sources (R313): its faults are R313's alone. -/
def ctlCheck (p : Packet) : PkCheck := { pk := p, len := 1, fmtOk := hasTy .n32 p, own := false }

/-- A virtual address source. -/
def vaCheck (p : Packet) : PkCheck := { pk := p, len := 2, fmtOk := hasTy .n64 p }

/-- A request put on its way: its place for the result is kept (R314), and where it writes, later releases cover it (R158). -/
def State.request (s : State) (e n : Nat) (o : Slot) (hdr : Packet) (covers : Bool) (q : Req) : State :=
  let id := s.nextId
  let q := if covers then { q with cov := (q.cov ++ s.live (s.elem e).fenced).eraseDups } else q
  let s := { s.reserve e o.dt o.tt with reqs := s.reqs ++ [{ q with id := id, ret := s.retOf e n o hdr }] }
  let s := if covers then s.modElem e (fun el => { el with cov := el.cov ++ [id] }) else s
  s.fresh

/-- The bytes of size code s (R354). -/
def accessSize (s : Nat) : Nat := 4 * 2 ^ s

/-- LDG (R354). -/
def execLdg (o : Slot) (f : Fn) (s : State) : Host.Outcome State Fault Refusal :=
  fireAt o f (fun _ e n env => do
    let a := rawPk env.a
    plain (pkChecks [vaCheck a])
    let va := lanesNat a.lanes
    atVa va (addrCheck va (accessSize (fnSub f)))
    pure (fun s' => s'.request e n o (hdrOf env.a) false
      { op := .load (fnTy f), va := va, size := accessSize (fnSub f) })) s

/-- STG (R397). -/
def execStg (o : Slot) (f : Fn) (s : State) : Host.Outcome State Fault Refusal :=
  fireAt o f (fun _ e n env => do
    let a := rawPk env.a
    let b := litPk (fnTy f) env.b
    plain (pkChecks [vaCheck a, { pk := b, len := 2 ^ fnSub f, fmtOk := hasTy (fnTy f) b, scale := false }])
    let va := lanesNat a.lanes
    atVa va (addrCheck va (accessSize (fnSub f)))
    pure (fun s' => s'.request e n o (hdrOf env.a) true
      { op := .store, va := va, size := accessSize (fnSub f), data := laneBytes b.lanes, res := some (word32 env.a 0) })) s

/-! Atomics (R321, R322). -/

/-- The sub-code of an atomic, W64, and the marks of ATG. -/
def atomSub (f : Fn) : Nat := fnIm f / 16 % 16
def atomW64 (f : Fn) : Bool := fnIm f / 8 % 2 == 1
def atgAcq (f : Fn) : Bool := fnIm f / 8 % 2 == 1
def atgRel (f : Fn) : Bool := fnIm f / 4 % 2 == 1
def atgW64 (f : Fn) : Bool := fnIm f / 2 % 2 == 1

/-- The formats of b that a sub-code allows (R321). -/
def atomFmtOk (sub : Nat) (w64 : Bool) (b : Packet) : Bool :=
  if w64 then sub ≤ 7 && (hasTy .n64 b || hasTy .s64 b)
  else if sub == 8 then hasTy .f32 b
  else if 6 ≤ sub then hasTy .n32 b || hasTy .s32 b || hasTy .f32 b
  else hasTy .n32 b || hasTy .s32 b

/-- The checks on b, and on p under CAS. -/
def atomChecks (sub : Nat) (w64 : Bool) (b : Packet) (p : Option Packet) : List PkCheck :=
  [{ pk := b, len := if w64 then 2 else 1, fmtOk := atomFmtOk sub w64 b }]
    ++ match p with
       | some q => if sub == 7 then [{ pk := q, len := b.lanes.length, fmtOk := q.fmt == b.fmt && q.fpx == b.fpx }] else []
       | none => []

/-- The value of a signed or unsigned word of 32 or 64 bits. -/
def atomVal (signed : Bool) (bits v : Nat) : Int := if signed then sval bits v else (v : Int)

/-- The binary32 sum of FADD under RNE, FTZ not acting, with its flags (R322). -/
def fadd32 (x y : Nat) : Nat × BitVec 32 :=
  let v := fAdd false (fval .f32 false false x) (fval .f32 false false y)
  let r := roundTy .f32 { rnd := .rne } false false v.1
  (r.1, r.2 ||| flagIf v.2 esNV)

/-- The new value of an atomic, with the flags of FADD (R322). -/
def atomNew (sub : Nat) (signed : Bool) (size old b p : Nat) : Nat × BitVec 32 :=
  let bits := 8 * size
  let lt := atomVal signed bits old < atomVal signed bits b
  match sub with
  | 0 => ((old + b) % 2 ^ bits, 0)
  | 1 => (if lt then old else b, 0)
  | 2 => (if lt then b else old, 0)
  | 3 => (Nat.land old b, 0)
  | 4 => (Nat.lor old b, 0)
  | 5 => (Nat.xor old b, 0)
  | 6 => (b, 0)
  | 7 => (if old == p then b else old, 0)
  | _ => fadd32 old b

/-- Is b's format a signed one? -/
def signedFmt (b : Packet) : Bool := hasTy .s32 b || hasTy .s64 b

/-- An old value as the result of an atomic: in b's FMT and length (R322). -/
def atomResult (hdr b : Packet) (size old : Nat) : Packet :=
  { hdr with fmt := b.fmt, fpx := b.fpx, lanes := natLanes (size / 4) old }

/-- ATG (R321, R322, R167) (log 49: DEDUCED). -/
def execAtg (o : Slot) (f : Fn) (s : State) : Host.Outcome State Fault Refusal :=
  fireAt o f (fun _ e n env => do
    let a := rawPk env.a
    let b := rawPk env.b
    plain (pkChecks (vaCheck a :: atomChecks (atomSub f) (atgW64 f) b env.p))
    let va := lanesNat a.lanes
    let size := if atgW64 f then 8 else 4
    atVa va (addrCheck va size)
    pure (fun s' =>
      let id := s'.nextId
      let cov := if atgRel f then s'.live (s'.elem e).cov else []
      let s'' := s'.request e n o { hdrOf env.a with fmt := b.fmt, fpx := b.fpx } true
        { op := .atomic (atomSub f) (signedFmt b) (atgAcq f) (atgRel f) (lanesNat b.lanes)
            (match env.p with | some q => lanesNat q.lanes | none => 0),
          va := va, size := size, cov := cov }
      if atgAcq f then s''.modElem e (fun el => { el with fences := el.fences ++ [{ reqs := [id] }] }) else s'')) s

/-! Sync words. -/

/-- A sync word acted on by a launch is kept for its progress record (R243). -/
def State.noteSync (s : State) (r va : Nat) : State :=
  if isStw r then s
  else s.modLaunch ((s.pidOf r).getD 0) (s.region r).lnch (fun l =>
    if l.syncs.contains va || 257 ≤ l.syncs.length then l else { l with syncs := l.syncs ++ [va] })

/-- SYA (R400). -/
def execSya (o : Slot) (f : Fn) (s : State) : Host.Outcome State Fault Refusal :=
  fireAt o f (fun _ e n env => do
    let a := rawPk env.a
    let b := rawPk env.b
    plain (pkChecks [vaCheck a, { pk := b, len := 2, fmtOk := hasTy .n32 b }])
    let va := lanesNat a.lanes
    atVa va (addrCheck va 16)
    let w := lanesNat b.lanes
    pure (fun s' => (s'.noteSync (ekRegion e) va).request e n o (hdrOf env.a) true
      { op := .sya (w % 2 ^ 40) (w / 2 ^ 40 % 2 ^ 8) (w / 2 ^ 48 % 2 ^ 16), va := va, size := 16,
        res := some (word32 env.a 0) })) s

/-- SYADD (R400, R165). -/
def execSyadd (o : Slot) (f : Fn) (s : State) : Host.Outcome State Fault Refusal :=
  fireAt o f (fun _ e n env => do
    let a := rawPk env.a
    let b := rawPk env.b
    plain (pkChecks [vaCheck a, { pk := b, len := 1, fmtOk := hasTy .n32 b }])
    let va := lanesNat a.lanes
    atVa va (addrCheck va 16)
    pure (fun s' => (s'.noteSync (ekRegion e) va).request e n o (hdrOf env.a) true
      { op := .syadd (lanesNat b.lanes), va := va, size := 16, res := some (word32 env.a 0),
        cov := s'.live (s'.elem e).cov })) s

/-- SYWCH (R400, R140). -/
def execSywch (o : Slot) (f : Fn) (s : State) : Host.Outcome State Fault Refusal :=
  fireAt o f (fun _ e n env => do
    let a := rawPk env.a
    let b := rawPk env.b
    plain (pkChecks [vaCheck a, ctlCheck b])
    let va := lanesNat a.lanes
    atVa va (addrCheck va 16)
    let g ← plain (control 0xFFFF env.b)
    pure (fun s' => (s'.noteSync (ekRegion e) va).request e n o (hdrOf env.a) false
      { op := .sywch g, va := va, size := 16, res := some (word32 env.a g) })) s

/-! Prefetch and fences. -/

/-- A line added to a prefetch buffer of 64 entries (R156). -/
def addLine (ls : List PLine) (l : PLine) : List PLine :=
  let xs := ls.filter (fun x => x.gpa != l.gpa) ++ [l]
  xs.drop (xs.length - 64)

/-- The writes that what an agent of a region reads at n bytes has released (R158): at the posting points it shares, and at the home. -/
def State.readCov (s : State) (r g a n : Nat) : List Nat :=
  let far := 2 ^ 63 ≤ a
  let ws := if far then s.farWrites r false else s.nearWrites (rkDie r) (some r)
  ((ws.filter (fun x => rangesMeet x.2 x.1.size (if far then g else a) n)).flatMap (fun x => x.1.cov)
    ++ (if far then [] else s.covAt a n)).eraseDups

/-- Is a request of a region still to read its value? -/
def readsLater (r : Nat) (q : Req) : Bool :=
  q.ret.rk == r && (match q.op with | .load _ | .atomic _ _ _ _ _ _ => true | _ => false)

/-- A line that PFG may fill: with every check of R145 passed, no sync mark, and no read of the region still on its way, which
could return a newer value first (R157); the choice is the hardware's (R369) (log 16: DESIGN CHOICE; log 54: DEDUCED). -/
def State.prefetch (s : State) (e va : Nat) : State :=
  let r := ekRegion e
  let wanted := Config.choice s.draws && !(s.reqs.any (readsLater r))
  let s := s.drawn
  match s.access r va 64 needRead with
  | .error _ => s.drawn
  | .ok (g, a) =>
    if wanted && !(s.marked a 64) then
      let l : PLine := { gpa := g, bytes := s.bytesFor r g a 64, cov := s.readCov r g a 64 }
      (s.modRegion r (fun x => { x with prefetch := addLine x.prefetch l })).drawn
    else s.drawn

/-- PFG (R369). -/
def execPfg (o : Slot) (f : Fn) (s : State) : Host.Outcome State Fault Refusal :=
  fireWith o f (fun _ e _ env =>
    let a := rawPk env.a
    .ok (fun s' =>
      if a.lanes.length == 2 && hasTy .n64 a then
        (List.range (fnIm f % 4 + 1)).foldl (fun s i => s.prefetch e (lanesNat a.lanes / 64 * 64 + 64 * i)) s'
      else s')) s

/-- The reads and atomics of an element that are not complete: writes, which are complete before their answers, and waiters do not
count (R168) (log 49: DEDUCED). -/
def State.incomplete (s : State) (e : Nat) : List Nat :=
  let counts (q : Req) : Bool := match q.op with
    | .store | .put | .sywch _ | .stv _ | .rclm _ => false
    | .answer => !(s.elem e).cov.contains q.id
    | _ => true
  (s.reqs.filter (fun q => q.ret.e == e && counts q)).map (fun q => q.id)
    ++ s.tileQ.flatMap (fun t => (t.2.filter (fun q => q.ret.e == e && q.kind != 1)).map (fun q => q.id))
    ++ (s.jobs.filter (fun j => (j.ret.map (fun t => t.e)) == some e)).map (fun j => j.id)

/-- An element after an FNC: it has acquired what the writes it has read released, and what it covers now, the writes after it
release (R158, R169). -/
def Elem.fence (el : Elem) (x : Fence) : Elem :=
  { el with cov := (el.cov ++ el.seen).eraseDups, seen := [], fenced := x.writes, fences := el.fences ++ [x] }

/-- FNC (R345, R168) (log 49: DEDUCED). -/
def execFnc (o : Slot) (f : Fn) (s : State) : Host.Outcome State Fault Refusal :=
  fireWith o f (fun _ e _ _ => .ok (fun s' =>
    let el := s'.elem e
    let ids := (el.cov ++ el.seen).eraseDups
    let x : Fence := { tier := fnIm f % 8, reqs := s'.incomplete e, writes := s'.unanswered ids }
    (s'.dropLines (ekRegion e)).modElem e
      (fun el => ({ el with fences := el.fences.filter (fun y => !s'.fenceDone y) } : Elem).fence x))) s

end Sys2Proof.Machine
end

