-- ==== Sys2Proof/Machine/MemoryEvents.lean ====
section
/-! DEFINITION. What becomes of a memory request: translation (R145 to R152), the posting points (R155), the home (R154, R137 to
R140, R160, R401), the banks of a tile (R142), and the response (R314, R152). -/

namespace Sys2Proof.Machine

/-- A request answered with a fault. -/
def Req.fail (q : Req) (c : FCode) : Req := { q with phase := .resp, err := some c }

/-- A request done. -/
def Req.done (q : Req) : Req := { q with phase := .resp }

/-- Is a request of an element on its way at or before its home? -/
def unserved (q : Req) : Bool := q.phase == .xlat || q.phase == .home || q.phase == .wait || q.phase == .remote

/-- Does an older request of the same element to a common byte hold a request back (R157)? A posted write does not: its value is
found at the posting points (log 72: DEDUCED). -/
def State.olderOpen (s : State) (q : Req) : Bool :=
  q.who == .firing && s.reqs.any (fun x => x.who == .firing && x.ret.e == q.ret.e && x.id < q.id && unserved x && s.touches x q)

/-- Does a posted write that a region's agents see touch a request's bytes (R155)? (log 50: DEDUCED) -/
def State.seesPosted (s : State) (q : Req) : Bool :=
  s.reqs.any (fun x => posted x && x.id != q.id && sharedPoint (rkDie q.ret.rk) (some q.ret.rk) x && s.touches x q)

/-- Two regions share a posting point. -/
def samePoint (p : Phase) (a b : Nat) : Bool :=
  match p with
  | .rwb => a == b
  | .qeq => rkDie a == rkDie b && quadOf a == quadOf b
  | _ => rkDie a == rkDie b

/-- Is an older write to the same bytes still at the posting point where a write is (R155)? (log 50: DEDUCED) -/
def State.behindWrite (s : State) (q : Req) : Bool :=
  (s.before q.id).any (fun x => x.phase == q.phase && posted x && samePoint q.phase x.ret.rk q.ret.rk && s.touches x q)

/-! Translation. -/

/-- A page kept in a region's TLB of 256 entries (R150) (log 52: DESIGN CHOICE). -/
def State.fillTlb (s : State) (r : Nat) (t : Option TlbEnt) : State :=
  match t with
  | none => s
  | some t => s.modRegion r (fun x =>
      let xs := x.tlb.filter (fun y => y != t) ++ [t]
      { x with tlb := xs.drop (xs.length - 256) })

/-- The bytes of a prefetch line that holds a whole access, and the writes released with them (R156). -/
def lineHit (ls : List PLine) (g n : Nat) : Option (List Byte × List Nat) :=
  (ls.find? (fun l => l.gpa ≤ g && g + n ≤ l.gpa + l.bytes.length)).map (fun l => ((l.bytes.drop (g - l.gpa)).take n, l.cov))

/-- Does a load of this panel's memory meet a sync word (R138)? -/
def State.meetsSync (s : State) (q : Req) : Bool :=
  !(s.isRemote q.gpa) && (match s.homeKey q with | .ok a => s.marked a q.size | .error _ => false)

/-- The packet of a load (R354). -/
def loadPk (q : Req) (t : Ty) (bs : List Byte) : Packet :=
  resPk (.pkt q.ret.hdr) t (natLanes (q.size / 4) (bytesVal bs))

/-- Where a translated request goes: a posted write to its region's RWB, where it updates the region's prefetch lines (R155, R156),
once no older access of its element to its bytes is still to be served (R157, R159); a load that hits a prefetch line is answered in
its region; every other request on to its home. -/
def State.leave (s : State) (q : Req) : State :=
  let r := q.ret.rk
  match q.op with
  | .store =>
    if s.olderOpen q then s
    else
      let q := { q with phase := .rwb }
      (s.moveReq q.id q).postLines q
  | .load t =>
    match lineHit (s.region r).prefetch q.gpa q.size with
    | some x =>
      if s.olderOpen q then s
      else if s.meetsSync q then s.setReq q.id (q.fail .align)
      else s.setReq q.id { q with op := .answer, phase := .resp, res := some (loadPk q t x.1), cov := x.2 }
    | none => s.moveReq q.id { q with phase := .home }
  | _ => s.moveReq q.id { q with phase := .home }

/-- TABLE_WALK: stage 1 of a request, in the issue order of its element (R145 check 2, R146 to R151). -/
def execTableWalk (i : Nat) (s : State) : Host.Outcome State Fault Refusal :=
  match s.reqAt i with
  | none => .next s
  | some q =>
    let r := q.ret.rk
    if q.phase != .xlat || !(s.moving r)
        || s.reqs.any (fun x => x.who == .firing && q.who == .firing && x.ret.e == q.ret.e && x.id < q.id && x.phase == .xlat) then
      .next s
    else
      match s.stage1 r (s.who r) q.va (reqNeed q.op) with
      | .error c => .next ((s.setReq i (q.fail c)).drawn.touch r)
      | .ok (g, t) => .next (((s.fillTlb r t).leave { q with gpa := g }).drawn.touch r)

/-- POSTED_WRITE_DRAIN: a posted write moves from its region's RWB to its quad's QEQ, and from there to its die's DEQ, behind the
older writes to its bytes (R155) (log 72: DEDUCED). -/
def execPostedWriteDrain (i : Nat) (s : State) : Host.Outcome State Fault Refusal :=
  match s.reqAt i with
  | none => .next s
  | some q =>
    if !(isStore q.op) || !(s.moving q.ret.rk) || s.behindWrite q then .next s
    else match q.phase with
      | .rwb => .next ((s.moveReq i { q with phase := .qeq }).touch q.ret.rk)
      | .qeq => .next ((s.moveReq i { q with phase := .deq }).touch q.ret.rk)
      | _ => .next s

/-! The home. -/

/-- A VF's cached entries at a destination with room for one more of 4,096 (R150): the first leaves (log 52: DESIGN CHOICE). -/
def evictS2 (m : PMap (BitVec 32)) (vf site k : Nat) : PMap (BitVec 32) :=
  let mine := m.filter (fun x => x.1 / 2 ^ 15 == vf * 256 + site && x.1 != k)
  if mine.length < 4096 then m else match mine with
    | x :: _ => m.filter (fun y => y.1 != x.1)
    | [] => m

/-- A stage-2 entry kept at its destination (R150). -/
def State.fillS2 (s : State) (r g : Nat) : State :=
  match s.who r with
  | none => s
  | some pid =>
    let vf := pVf (s.part pid)
    let site := s.siteNo g
    let k := s2Key vf site (gpaOff g / 2 ^ 21)
    { s with panel := { s.panel with
      s2cache := (evictS2 s.panel.s2cache vf site k).set k (s.s2Entry vf site (gpaOff g / 2 ^ 21)) } }

/-- The old value of an atomic at its home, and what it does there (R322). -/
def State.atomHome (s : State) (q : Req) (a sub : Nat) (signed : Bool) (b p : Nat) : State × Req :=
  let old := bytesVal (memBytes s.mem a q.size)
  let x := atomNew sub signed q.size old b p
  let bs := valBytes q.size x.1
  let cov := s.covAt a q.size
  let s := (s.putHome a bs).setCov a q.size q.cov
  (s.putLines q.ret.rk a bs,
   { q with phase := .resp, res := some { q.ret.hdr with lanes := natLanes (q.size / 4) old }, flags := x.2, cov := cov })

/-- The checks of an SYA at its word: TGT, SCOPE and the reserved bits, then the scope of the level (R137, R400) (log 56: DEDUCED). -/
def syaCheck (a tgt sc gen : Nat) : Option FCode :=
  if tgt == 0 && sc % 8 == 0 && gen == 0 then none
  else if tgt == 0 || 8 ≤ sc || sc < 2 || 5 < sc then some .bounds
  else if sc < keyTier a then some .scope
  else none

/-- A request served at its home, at a key (log 113: DESIGN CHOICE). -/
def State.serve (s : State) (q : Req) (a : Nat) : State :=
  let i := q.id
  match q.op with
  | .load t =>
    if s.marked a q.size then s.setReq i (q.fail .align)
    else s.setReq i { q with
      phase := .resp, res := some (loadPk q t (s.bytesFor q.ret.rk q.gpa a q.size)), cov := s.readCov q.ret.rk q.gpa a q.size }
  | .store | .put =>
    if s.marked a q.size then s.setReq i (q.fail .align) else ((s.putHome a q.data).setCov a q.size q.cov).setReq i q.done
  | .atomic sub sg _ rel b p =>
    if s.marked a q.size then s.setReq i (q.fail .align)
    else if s.seesPosted q || (rel && !(s.performed 4 q.cov)) then s
    else
      let x := s.atomHome q a sub sg b p
      x.1.setReq i x.2
  | .sya tgt sc gen =>
    match syaCheck a tgt sc gen with
    | some c => s.setReq i (q.fail c)
    | none => s.moveReq i { q with phase := .wait, word := a }
  | .syadd _ =>
    if !(s.marked a 16) then s.setReq i (q.fail .align)
    else if !(s.performed (syncScope (syncVal s.mem a)) q.cov) then s
    else s.moveReq i { q with phase := .wait, word := a }
  | .sywch g =>
    if !(s.marked a 16) then s.setReq i (q.fail .align)
    else if s.wordMet a g then s.setReq i { q with phase := .resp, word := a, cov := s.relCov.get a }
    else s.moveReq i { q with phase := .wait, word := a }
  | _ => s

/-- What stops a request for another panel here (R145, R265). -/
def State.farStop (s : State) (src g : Nat) : Option FCode :=
  if !(s.reachable (gpaPanel g)) then some .link
  else if !(s.routeOk src g) then some .quarantine
  else if !(s.lineOk src g) then some .link
  else none

/-- Does a launch's dependence make a request? It waits until it can be sent, and is sent again after a stream has failed (R46). -/
def Contributor.patient : Contributor → Bool
  | .dependence _ _ => true
  | _ => false

/-- A request whose stream has failed: F_LINK (R265); a launch's dependence waits to be sent again. -/
def Req.lost (q : Req) : Req := if q.who.patient then { q with phase := .home } else q.fail .link

/-- Does an older request of no region wait for the stream of another (R170, R265)? -/
def State.farAhead (s : State) (q : Req) : Bool :=
  q.ret.rk == farRegion && (s.before q.id).any (fun x => x.ret.rk == farRegion && (x.phase == .home || x.phase == .deq)
    && gpaPanel x.gpa == gpaPanel q.gpa && trlsStream x.gpa == trlsStream q.gpa)

/-- A request sent to its home on another panel, once what a release covers is performed at domain scope (R165, R167), and its stream may
take it (R265). -/
def State.serveFar (s : State) (q : Req) : State :=
  let i := q.id
  let rel := match q.op with | .atomic _ _ _ rel _ _ => rel | .syadd _ => true | _ => false
  match s.farStop (s.reqDie q) q.gpa with
  | some c => if q.who.patient then s else s.setReq i (q.fail c)
  | none =>
    if s.streamFull (gpaPanel q.gpa) (trlsStream q.gpa) || s.farAhead q then s
    else if (q.who == .firing && !(isStore q.op) && s.seesPosted q) || (rel && !(s.performed 5 q.cov)) then s
    else (s.sendRemote q).setReq i { q with phase := .remote }

/-- HOME_ACCESS: a request reaches its home (R154, R145 checks 3 to 5): a load takes its value, a posted write and an atomic are
applied, a sync-word update waits for its word's home cycle (log 56: DEDUCED; log 72: DEDUCED; log 113: DESIGN CHOICE). -/
def execHomeAccess (i : Nat) (s : State) : Host.Outcome State Fault Refusal :=
  match s.reqAt i with
  | none => .next s
  | some q =>
    let r := q.ret.rk
    let here := if isStore q.op then q.phase == .deq else q.phase == .home
    if !here || !(s.moving r) || (isStore q.op && s.behindWrite q) || (!(isStore q.op) && s.olderOpen q) then .next s
    else if s.isRemote q.gpa then .next ((s.serveFar q).drawn.touch r)
    else match s.homeKey q with
      | .error c => .next ((s.setReq i (q.fail c)).drawn.touch r)
      | .ok a => .next (((if q.op == .put then s else s.fillS2 r q.gpa).serve q a).drawn.touch r)

/-! Home cycles of sync words. -/

/-- The requests that wait at a key. -/
def State.waitingAt (s : State) (a : Nat) : List Req := s.reqs.filter (fun q => q.phase == .wait && q.word == a)

/-- Is anything waiting on a sync word (R138)? -/
def State.hasWaiter (s : State) (a : Nat) : Bool :=
  let watch (q : Req) : Bool := q.phase == .wait && q.word == a && (match q.op with | .sywch _ => true | _ => false)
  let hold (r : Nat × Region) : Bool := match r.2.seq with | .await w _ => w == a | _ => false
  let named (l : Launch) : Bool := l.cmp == some a || l.deps.any (fun d => d.1 == a)
  s.reqs.any watch || s.regions.any hold
    || s.parts.any (fun p => p.2.launches.any named
        || (match p.2.saved with | some c => c.reqs.any watch || c.regions.any hold | none => false))
    || s.dies.any (fun d => d.2.stw.any (fun j => named j.launch))

/-- An SYA applied at its word (R400, R138). -/
def State.applySya (s : State) (a : Nat) (q : Req) : State :=
  match q.op with
  | .sya tgt sc gen =>
    if tgt == 0 && sc % 8 == 0 && gen == 0 then
      if s.hasWaiter a then s.setReq q.id (q.fail .bounds)
      else (((s.putHome a (valBytes 16 0)).putMark a false).putLines q.ret.rk a (valBytes 16 0)).setReq q.id q.done
    else
      let bs := valBytes 16 (syncBits tgt 0 gen 0 0 sc)
      (((s.putHome a bs).putMark a true).putLines q.ret.rk a bs).setReq q.id q.done
  | _ => s

/-- The amount of an increment. -/
def syAmount (q : Req) : Nat := match q.op with | .syadd n => n | _ => 0

def isSya (q : Req) : Bool := match q.op with | .sya _ _ _ => true | _ => false
def isSyadd (q : Req) : Bool := match q.op with | .syadd _ => true | _ => false

/-- The stream continues n doublewords on. -/
def State.seqStep (s : State) (r n : Nat) : State := s.modRegion r (fun x => { x with sqp := x.sqp + n, fromOff := x.sqp, branched := false })

/-- The sequencer passes SQWAIT: it acquires at the word's scope (R140, R394). -/
def State.seqAcquire (s : State) (r word : Nat) : State :=
  (s.modRegion r (fun x => { x with seq := .run, prefetch := [], cov := (x.cov ++ s.relCov.get word).eraseDups })).seqStep r 2

/-- The sequencers that hold at SQWAIT on a word whose generation is reached go on: those of frozen regions at their thaw, and none before
its answer has a way back (R25, R140). -/
def State.wakeSeqs (s : State) (a : Nat) : State :=
  s.regions.foldl (fun s r => match r.2.seq with
    | .await w g =>
      if !(w == a && s.wordMet a g) then s
      else if s.moving r.1 && s.keyWay (s.physDie (rkDie r.1)) a then s.seqAcquire r.1 a
      else s.modRegion r.1 (fun x => { x with seq := .reached a })
    | _ => s) s

/-- A launch's dependences on a word that are met stay met, and the launch sees what the word's releases covered (R46). -/
def Launch.meet (l : Launch) (a gen : Nat) (cov : List Nat) : Launch :=
  if l.deps.any (fun d => d.1 == a && genMet gen d.2) then
    { l with deps := l.deps.filter (fun d => !(d.1 == a && genMet gen d.2)), cov := (l.cov ++ cov).eraseDups }
  else l

/-- The saved contexts, each changed. -/
def State.mapSaved (s : State) (f : Saved → Saved) : State :=
  { s with parts := s.parts.map (fun p : Nat × Part => (p.1, { p.2 with saved := p.2.saved.map f })) }

/-- A SYWCH that waits at a word whose generation satisfies it is answered (R140, R401). -/
def Req.meet (q : Req) (a gen : Nat) (cov : List Nat) : Req :=
  match q.op with
  | .sywch g => if q.phase == .wait && q.word == a && genMet gen g then { q.done with cov := cov } else q
  | _ => q

/-- A sequencer of a SAVED partition that holds at SQWAIT on a word whose generation satisfies it goes on once it is restored
(R140, R173). -/
def SeqSt.meet (x : SeqSt) (a gen : Nat) : SeqSt :=
  match x with
  | .await w g => if w == a && genMet gen g then .reached a else x
  | _ => x

/-- The waiters of a saved context that a word's generation satisfies: they stay registered while the partition is SAVED (R140, R173,
R401). -/
def Saved.meet (c : Saved) (a gen : Nat) (cov : List Nat) : Saved :=
  { c with reqs := c.reqs.map (fun q => q.meet a gen cov),
           regions := c.regions.map (fun r => (r.1, { r.2 with seq := r.2.seq.meet a gen })) }

/-- The waiters on a word that its generation satisfies are released: SYWCH, SQWAIT and launch dependences (R46, R140, R401)
(log 56: DEDUCED). -/
def State.wake (s : State) (a : Nat) : State :=
  let gen := syncGen (syncVal s.mem a)
  let cov := s.relCov.get a
  let t : State := { s with
    reqs := s.reqs.map (fun q => q.meet a gen cov)
    parts := s.parts.map (fun p : Nat × Part => (p.1, { p.2 with
      launches := p.2.launches.map (fun l => l.meet a gen cov), saved := p.2.saved.map (fun c => c.meet a gen cov) })) }
  t.wakeSeqs a

/-- An increment once applied: a firing's answer leaves; a job's or a launch's is done. -/
def State.endAdd (s : State) (q : Req) : State :=
  match q.who with
  | .firing => s.setReq q.id q.done
  | .remote _ _ _ _ => s.setReq q.id q.done
  | _ => s.dropReq q.id

/-- The record of a fault of a copy job: the template's region, frame, element and slot, the island, the template, the FIRE queue
whose token started the job (R181, R242). -/
def State.jobRecord (s : State) (c : FCode) (r frm e n edge tslot : Nat) (ql : Option Nat) (va : Option Nat) : Record :=
  { s.recordAt c r (s.frame r frm).soff
      { ex := ekX e, ey := ekY e, slot := n, frm := frm, tpl := tslot, eng := 0x10 + edge, ql := ql.getD 0, qlv := ql.isSome }
    with src := 2, vav := va.isSome, va := va.getD 0 }

/-- The fault of a job's increment: its partition freezes (R139, R181). -/
def State.raiseJobAdd (s : State) (c : FCode) (q : Req) : State :=
  match q.who with
  | .job _ edge tslot e n ql =>
    s.raiseAt c q.ret.rk (s.jobRecord c q.ret.rk q.ret.frm e n edge tslot (if ql == 0 then none else some (ql - 1)) (some q.va))
  | _ => s

/-- F_SYNCOVER raised against the first contributor that is not a launch's completion (R139): the answer carries it; a job's
partition freezes at once. -/
def State.syncOver (s : State) (adds : List Req) : State :=
  match adds.find? (fun q => match q.who with | .completion _ _ | .remote _ _ _ true => false | _ => true) with
  | none => s
  | some q => match q.who with
    | .firing => s.setReq q.id (q.fail .syncOver)
    | .remote _ _ _ _ => s.setReq q.id (q.fail .syncOver)
    | _ => s.raiseJobAdd .syncOver q

/-- The increments of a home cycle applied to their word (R139) (log 57: DEDUCED). -/
def State.applyAdds (s : State) (a : Nat) (adds : List Req) : State :=
  if adds.isEmpty then s
  else if !(s.marked a 16) then
    adds.foldl (fun s q => match q.who with
      | .firing => s.setReq q.id (q.fail .align)
      | .remote _ _ _ _ => s.setReq q.id (q.fail .align)
      | _ => (s.dropReq q.id).raiseJobAdd .align q) s
  else
    let x := syncAdd (syncVal s.mem a) (adds.foldl (fun n q => n + syAmount q) 0)
    let s := s.putHome a (valBytes 16 x.1)
    let s := { s with relCov := s.relCov.modify a (fun c => (c ++ adds.flatMap (fun q => q.cov)).eraseDups) }
    let s := adds.foldl State.endAdd s
    if x.2.2 then s.syncOver adds else s

/-- SYNC_HOME_CYCLE: the first k updates that wait at a sync word are one home cycle: its SYAs first, in port order, then its
increments as one sum; the waiters satisfied by either leave (R139, R140, R401). -/
def execSyncHomeCycle (word k : Nat) (s : State) : Host.Outcome State Fault Refusal :=
  let ups := sortOn (s.portRank word) (((s.waitingAt word).filter (fun q => isSya q || isSyadd q)).take k)
  let s := (ups.filter isSya).foldl (fun s q => s.applySya word q) s
  let s := if s.marked word 16 then s.wake word else s
  let s := s.applyAdds word (ups.filter isSyadd)
  .next (if s.marked word 16 then s.wake word else s)

/-! Home cycles of versioned words (R160). -/

/-- The distance test of R160: 0 act, 1 fault, 2 wait. -/
def distance (x : Int) : Nat :=
  let d := (x % 256).toNat
  if d == 0 then 0 else if d ≤ 127 then 1 else 2

/-- Is a request registered at a home, where it waits for another's act: a version not reached yet, or a GEN not met (R63, R160,
R401)? Of a SYWCH gone to another panel only its answer tells (log 143: DEDUCED). -/
def State.registered (s : State) (q : Req) : Bool :=
  let w : Int := (s.vers.get (q.word / 8)).toNat
  match q.op with
  | .ldv v | .rclm v => q.phase == .wait && distance (w - v) == 2
  | .stv v => q.phase == .wait && distance (w - v + 1) == 2
  | .sywch g => q.phase == .remote || (q.phase == .wait && !(s.wordMet q.word g))
  | _ => false

/-- A versioned request at its word (R160), behind the older accesses of its element to the word and the posted writes to it that its
agent finds (R157). An STV acts once its
release is performed at the scope of the level; an LDV takes with the data what the STV that wrote it released. -/
def State.applyVersion (s : State) (a : Nat) (q : Req) : State :=
  if s.olderOpen q || s.nearPosted (rkDie q.ret.rk) (some q.ret.rk) a 8 then s else
  let w : Int := (s.vers.get (a / 8)).toNat
  let act (x : Int) (k : State) : State :=
    match distance x with
    | 0 => k
    | 1 => s.setReq q.id (q.fail .version)
    | _ => s
  match q.op with
  | .ldv v =>
    act (w - v) (if s.eccBad a 8 then s.setReq q.id { q.fail .ecc with gpa := s.windowGpa a } else s.setReq q.id { q with
      phase := .resp, res := some { q.ret.hdr with lanes := natLanes 2 (bytesVal (memBytes s.mem a 8)) }, cov := s.relCov.get a })
  | .stv v =>
    if !(s.performed (keyTier a) q.cov) then s
    else act (w - v + 1) (({ (s.putHome a q.data).setCov a 8 q.cov with
      vers := s.vers.set (a / 8) (BitVec.ofNat 8 v) }.putLines q.ret.rk a q.data).setReq q.id q.done)
  | .rclm v =>
    act (w - v) (({ (s.putHome a (valBytes 8 0)).setCov a 8 q.cov with
      vers := s.vers.set (a / 8) 0 }.putLines q.ret.rk a (valBytes 8 0)).setReq q.id q.done)
  | _ => s

def isLdv (q : Req) : Bool := match q.op with | .ldv _ => true | _ => false
def isStv (q : Req) : Bool := match q.op with | .stv _ => true | _ => false
def isRclm (q : Req) : Bool := match q.op with | .rclm _ => true | _ => false

/-- VERSION_HOME_CYCLE: every LDV that waits at a word, then every STV, then every RCLM, each in port order (R160). -/
def execVersionHomeCycle (word : Nat) (s : State) : Host.Outcome State Fault Refusal :=
  let qs := sortOn (s.portRank word) (s.waitingAt word)
  let go (s : State) (p : Req → Bool) : State := (qs.filter p).foldl (fun s q => s.applyVersion word q) s
  .next (go (go (go s isLdv) isStv) isRclm)

/-! Responses. -/

/-- Does a response acquire: an ATG.acq, a SYWCH, an LDV (R158)? -/
def acquires : ReqOp → Bool
  | .atomic _ _ acq _ _ _ => acq
  | .sywch _ => true
  | .ldv _ => true
  | _ => false

/-- Does a request's fault record carry its VA (R152)? -/
def hasVa : ReqOp → Bool
  | .put => false
  | .ldv _ => false
  | .stv _ => false
  | .rclm _ => false
  | .answer => false
  | .steward _ => false
  | _ => true

/-- An acquire received by an element: its region's prefetch buffer empties, and its later releases cover what the release did
(R156, R158). -/
def State.acquire (s : State) (e : Nat) (ids : List Nat) : State :=
  (s.dropLines (ekRegion e)).modElem e (fun el => { el with cov := (el.cov ++ s.live ids).eraseDups })

/-- Does a response bring a value from memory? -/
def bringsValue : ReqOp → Bool
  | .load _ => true
  | .atomic _ _ _ _ _ _ => true
  | .answer => true
  | _ => false

/-- The EN bits of the 64 VFs at the root (R231, R408). -/
def State.enBits (s : State) : Nat :=
  (List.range 64).foldl (fun a v => if (s.vftAt 200 v).1.getLsbD 63 then a + 2 ^ v else a) 0

/-- Has the freeze of a partition reached every die (R236)? -/
def State.allFrozen (s : State) (pid : Nat) : Bool :=
  (s.rectDies (pRect (s.part pid))).all (fun d => (s.part pid).frozen.contains d)

/-- Has what a steward's answer waits for happened? (log 81: DEDUCED; log 83: DEDUCED) -/
def State.pendingDone (s : State) : Pending → Bool
  | .tamp pid => pState (s.part pid) != 3 || s.allFrozen pid
  | .save pid => (s.part pid).ending != 1
  | .release pid => (s.part pid).ending != 2 && pState (s.part pid) != 5
  | .disable mask => (List.range 64).all (fun v => mask / 2 ^ v % 2 == 0 || !(s.vf v).disabling)
  | .reset k =>
    dasState (s.ident k) == 3 || dasState (s.ident k) == 4 || (dasState (s.ident k) == 0 && !(s.mayBoot k))
  | .kroll k n => !((s.ident k).chans.get n).switching
  | .tlbi ids => s.reqs.all (fun q => !(ids.contains q.id) || q.phase == .resp || s.registered q)
  | .atst _ _ => false

/-- The two halves of a number as lanes. -/
def halves (v : Nat) : List Lane := [BitVec.ofNat 32 v, BitVec.ofNat 32 (v / 2 ^ 32)]

/-- The lanes of a steward's answer that waited. -/
def State.pendingLanes (s : State) : Pending → List Lane
  | .tamp pid => [0, BitVec.ofNat 32 ((s.part pid).pstat.toNat / 2 ^ 32)]
  | .save pid => BitVec.ofNat 32 (s.part pid).saveStatus :: halves (s.part pid).pstat.toNat
  | .release pid => 0 :: halves (s.part pid).pstat.toNat
  | .disable _ => 0 :: halves s.enBits
  | .reset k => (if s.isActive k then 0 else 2) :: (halves (s.ident k).das.toNat).reverse
  | .kroll k n =>
    let w := ((s.ident k).chans.get n).tx
    let done := (bitsOf w 62 2 == 2 || bitsOf w 60 2 == 2) && bitsOf w 62 2 != 1 && bitsOf w 60 2 != 1
    (if done then 0 else 1) :: (halves w.toNat).reverse
  | .tlbi _ => [0]
  | .atst _ _ => []

/-- A request with the answer of a steward instruction in it, once that has happened; none before. -/
def State.settled (s : State) (q : Req) : Option Req :=
  match q.op with
  | .steward p => if s.pendingDone p then some { q with res := some (resPk (.pkt q.ret.hdr) .n32 (s.pendingLanes p)) } else none
  | _ => some q

/-- The answer to a request of another panel: its number there, the fault's code or zero, and the data (R264). -/
def State.trlsAnswer (s : State) (panel stream tag gpa code : Nat) (data : List Byte) : State :=
  s.trlsSendOn panel stream 4 gpa (valBytes 4 tag ++ valBytes 1 code ++ valBytes 3 0 ++ data)

/-- Is a contributor a WRITE of a queue pair? -/
def Contributor.ofHost (c : Contributor) (qpn op : Nat) : Bool := match c with | .host n o _ => n == qpn && o == op | _ => false

/-- The WRITEs of a queue pair still on their way to another panel (R170). -/
def State.hostOps (s : State) (qpn : Nat) : List Nat :=
  (s.reqs.filterMap (fun q => match q.who with | .host n op _ => if n == qpn then some op else none | _ => none)).eraseDups

/-- Does a WRITE through a window still go on? -/
def State.windowBusy (s : State) (key : Nat) : Bool :=
  s.reqs.any (fun q => match q.who with | .host _ _ k => k == key | _ => false)

/-- MW_CLOSE's end for a window whose accesses have been applied: it is gone, the command is answered, and the commands behind it on its
queue pair come up (R268). -/
def State.endWindow (s : State) (key : Nat) : State :=
  match (s.panel.windows.get key).closing with
  | none => s
  | some (p, tag) =>
    if s.windowBusy key then s
    else
      let turns := (s.panel.ports.get p).queued.map (fun x => Turn.mgmt p x.1 x.2)
      ({ s with
        agenda := turns ++ s.agenda
        panel := { s.panel with
          windows := s.panel.windows.modify key (fun x => { x with isOpen := false, closing := none })
          ports := s.panel.ports.modify p (fun x => { x with queued := [] }) } } : State).emit (.mgmt p (mgmtMsg 0x08 0 tag []))

/-- Every window that can be closed is (R268). -/
def State.endWindows (s : State) : State := s.panel.windows.foldl (fun s w => s.endWindow w.1) s

/-- A WRITE of a host ends: what is left of it is dropped, and it is answered. -/
def State.hostEnd (s : State) (qpn op : Nat) (m : HostMsg) : State :=
  ({ s with reqs := s.reqs.filter (fun q => !(q.who.ofHost qpn op)) } : State).emit m

/-- Has an element's request crossed the panel to its home, so that its answer comes back by the reverse route (R25)? -/
def crosses (q : Req) : Bool := q.who == .firing && q.err.isNone && hasVa q.op

/-- The fault that an answer brings: its own, or F_QUARANTINE where a die or bridge on the way back is not ACTIVE and drops it
(R28, R145) (log 127: DEDUCED). -/
def State.returned (s : State) (q : Req) : Option FCode :=
  if crosses q && !(s.routeOk (s.reqDie q) q.gpa) then some .quarantine else q.err

/-- Does an answer wait for a channel on its way back to carry data (R25) (log 112: DESIGN CHOICE)? (log 127: DEDUCED) -/
def State.backWaits (s : State) (q : Req) : Bool := crosses q && s.routeOk (s.reqDie q) q.gpa && !(s.lineOk (s.reqDie q) q.gpa)

/-- The answer of a request reaches its element: the result is sent, or the fault raised with the places kept for the result given
back (R314, R152). Answers of one slot's tile requests keep their order (R142). -/
def State.respond (s : State) (i : Nat) : Host.Outcome State Fault Refusal :=
  match (s.reqAt i).bind s.settled with
  | none => .next s
  | some q =>
    let t := q.ret
    match q.who with
    | .remote panel stream tag _ =>
      if q.phase != .resp then .next s
      else .next ((s.dropReq i).trlsAnswer panel stream tag q.gpa (match q.err with | some c => c.num | none => 0) [])
    | .host qpn op _ =>
      let t := s.dropReq i
      if q.phase != .resp then .next s
      else if q.err.isSome then .next (s.hostEnd qpn op (.nak qpn 2)).endWindows
      else .next (if t.reqs.any (fun x => x.who.ofHost qpn op) then t else (t.emit (.ack qpn)).endWindows)
    | _ =>
    if q.phase != .resp || !(s.moving t.rk) || s.backWaits q
        || (q.op == .answer && (s.before i).any (fun x => x.op == .answer && x.ret.e == t.e && x.ret.slot == t.slot)) then .next s
    else
      let back := s.returned q
      let s := (s.dropReq i).touch t.rk
      match back with
      | some c =>
        if q.who != .firing then .next (s.raiseJobAdd c q)
        else
        let s := s.release t
        let x := s.slotRecord c t.e t.slot
        .next (s.raiseElem c t.e { x with
          vav := hasVa q.op, va := if hasVa q.op then q.va else 0, detail := if c == .ecc then q.gpa else 0 })
      | none =>
        if q.who != .firing then .next s
        else
        let s := if acquires q.op then s.acquire t.e q.cov else if bringsValue q.op then s.saw t.e q.cov else s
        let s := s.modElem t.e (fun el => { el with es := el.es ||| q.flags })
        .next (match q.res with | some p => s.answer t p | none => s.release t)

/-! The banks of a tile (R142). -/

/-- The bank of a byte offset within a tile. -/
def bankOf (off : Nat) : Nat := off / 4 % 16

/-- The banks of a lane: two for an atomic of 8 bytes. -/
def TileReq.banks (q : TileReq) (l : Nat) : List Nat := (List.range (q.size / 4)).map (fun i => bankOf (q.offs.getD l 0 + 4 * i))

/-- The lane of a request that a bank serves next: the lowest that waits for it. -/
def TileReq.laneFor (q : TileReq) (bank : Nat) : Option Nat := q.left.find? (fun l => (q.banks l).contains bank)

/-- What the tile finds when a request of which no lane is served comes to its bank (R132, R141, R323): the sub-buffer that it named is
still the one that the firing found, in a state in which it may be read or written (log 124: DEDUCED). -/
def State.tileCheck (s : State) (tile : Nat) (q : TileReq) : Option FCode :=
  let x := s.ringOf (tile / 8) q.ret.frm q.bnd
  if q.left.length != q.offs.length then none
  else if q.kind == 0 then (if x.cons != q.buf || notReadable x.atCons.st then some .bufState else if x.atCons.mark < q.stop then some .bounds else none)
  else if x.prod != q.buf || notWritable x.atProd.st then some .bufState
  else none

/-- The sub-buffer marked FILLING up to the highest word that a request writes (R132) (log 124: DEDUCED). -/
def State.tileMark (s : State) (tile : Nat) (q : TileReq) : State :=
  if q.kind == 0 then s
  else s.setRing (tile / 8) q.ret.frm q.bnd ((s.ringOf (tile / 8) q.ret.frm q.bnd).wrote q.stop)

/-- A lane served: a word read, written, or changed by an atomic. The flags of FADD go with the answer (R322). -/
def State.serveLane (s : State) (tile : Nat) (q : TileReq) (l : Nat) : State × TileReq :=
  let a := tileKey q.ret.rk (tile % 8) (q.offs.getD l 0)
  let left := q.left.filter (fun x => x != l)
  let out := s.live (s.elem q.ret.e).fenced
  if q.kind == 0 then
    (s.saw q.ret.e (s.covAt a 4), { q with left := left, got := q.got.set l (BitVec.ofNat 32 (bytesVal (memBytes s.mem a 4))) })
  else if q.kind == 1 then ((s.write a (valBytes 4 (q.data.getD l 0).toNat)).setCov a 4 out, { q with left := left })
  else if s.eccBad a q.size then (s, { q with left := left })
  else
    let old := bytesVal (memBytes s.mem a q.size)
    let x := atomNew q.sub q.signed q.size old q.b q.p
    (((s.saw q.ret.e (s.covAt a q.size)).write a (valBytes q.size x.1)).setCov a q.size out,
     { q with left := left, flags := x.2, got := (q.got.set 0 (BitVec.ofNat 32 old)).set 1 (BitVec.ofNat 32 (old / 2 ^ 32)) })

/-- The oldest of the first 32 requests of a tile that has a lane waiting for a bank, and the lane (R142) (log 124: DEDUCED). -/
def State.bankHead (s : State) (tile bank : Nat) : Option (TileReq × Nat) :=
  ((s.tileQ.get tile).take 32).findSome? (fun q => (q.laneFor bank).map (fun l => (q, l)))

/-- A request at its bank: with its first lane the tile checks it, and one that fails has no effect (R141) (log 124: DEDUCED). -/
def State.serveFirst (s : State) (tile : Nat) (q : TileReq) (l : Nat) : State × TileReq :=
  match s.tileCheck tile q with
  | some c => (s, { q with left := [], err := some c })
  | none => (s.tileMark tile q).serveLane tile q l

/-- One bank serves the lane at its head, where every bank of the lane has come to it and is free in this cycle; the banks used
(log 55: DEDUCED). -/
def State.serveBank (s : State) (tile bank : Nat) (used : List Nat) : State × List Nat :=
  match s.bankHead tile bank with
  | none => (s, used)
  | some (q, l) =>
    if (q.banks l).any (fun b => used.contains b || (s.bankHead tile b).map (fun x => x.1.id) != some q.id) then (s, used)
    else
      let x := s.serveFirst tile q l
      ({ x.1 with tileQ := x.1.tileQ.modify tile (fun qs => qs.map (fun y => if y.id == q.id then x.2 else y)) }, used ++ q.banks l)

/-- The result of a request of the tile: the lanes gathered, the number of lanes scattered, the old value of an atomic. -/
def TileReq.result (q : TileReq) : Packet :=
  if q.kind == 0 then { q.ret.hdr with fmt := q.fmt, fpx := q.fpx, sc := false, lanes := (List.range q.offs.length).map (fun l => q.got.get l) }
  else if q.kind == 1 then resPk (.pkt q.ret.hdr) .n32 [BitVec.ofNat 32 q.offs.length]
  else { q.ret.hdr with lanes := (List.range (q.size / 4)).map (fun l => q.got.get l) }

/-- The requests of a tile that are done leave, those of one slot in the order of its firings. -/
def State.tileDone (s : State) (tile : Nat) : State :=
  let qs := s.tileQ.get tile
  let out := qs.filter (fun q => qs.all (fun x => !(x.ret.e == q.ret.e && x.ret.slot == q.ret.slot && x.id ≤ q.id && !x.left.isEmpty)))
  let bad (q : TileReq) : Bool :=
    q.kind != 1 && q.offs.any (fun x => s.eccBad (tileKey q.ret.rk (tile % 8) x) (if q.kind == 2 then q.size else 4))
  let ans (q : TileReq) : Req :=
    { id := q.id, op := .answer, ret := q.ret, phase := .resp, res := some q.result, flags := q.flags,
      err := (match q.err with | some c => some c | none => if bad q then some .ecc else none) }
  { s with tileQ := s.tileQ.set tile (qs.filter (fun q => !(out.any (fun x => x.id == q.id)))), reqs := s.reqs ++ out.map ans }

/-- TILE_BANK_CYCLE: each bank of a tile serves at most one lane (R142) (log 55: DEDUCED). -/
def execTileBankCycle (r tile : Nat) (s : State) : Host.Outcome State Fault Refusal :=
  if !(s.moving r) then .next s
  else .next ((((List.range 16).foldl (fun x b => x.1.serveBank (8 * r + tile) b x.2) (s, [])).1.tileDone (8 * r + tile)).touch r)

end Sys2Proof.Machine
end

