-- ==== Sys2Proof/Machine/Network.lean ====
section
/-! DEFINITION. The operand network (R76, R80, R81), the drip limiter (R62), the ageing of slots (R92) and the release of BND
packets (R330). -/

namespace Sys2Proof.Machine

/-! The drip limiter (R62, R229, R277). -/

/-- The scale σ of a die (R277, R278) (log 98: DESIGN CHOICE). -/
def Die.sigma (d : Die) : Nat := 64 - min 64 (d.drop + d.hot)

/-- The quota of a drip class in a window (R62, R229, R277); none for an unlimited port (log 41: DEDUCED). -/
def dripQuota (p : Part) (sigma cls : Nat) : Option Nat :=
  let q := if cls == 1 then bitsOf p.pqos 0 11 else if cls == 2 then bitsOf p.pqos 16 11 else bitsOf p.pqos 32 11
  if cls == 0 || q == 0 then (if sigma < 64 then some (max 1 (4 * sigma)) else none)
  else some (max 1 (q * min sigma 64 / 64))

/-- The port of a region by which a packet from another region enters: 0 west, 1 east, 2 south, 3 north. It moves first along x,
then along y (R80) (log 41: DEDUCED). -/
def State.entryPort (s : State) (src dst : Nat) : Nat :=
  if s.gyOf src < s.gyOf dst then 2 else if s.gyOf dst < s.gyOf src then 3
  else if s.gxOf src < s.gxOf dst then 0 else 1

/-- The frame whose slot consumes at a destination. -/
def State.destFrame (s : State) : Dest → Nat
  | .field e n _ => s.slotFrame e n
  | .chan e c => ((s.elem e).ins.get c).frm - 1
  | .node e => (s.nodes.get e).frm
  | _ => 0

/-- The drip class of a packet that enters a region: its consumer block's (R62) (log 41: DEDUCED). -/
def State.dripClass (s : State) (r : Nat) (d : Dest) : Nat := (s.frame r (s.destFrame d)).flags.drip

/-- The key of a port's count in a region. -/
def dripKey (port cls : Nat) : Nat := 4 * port + cls

/-- Does the limiter admit a packet at the port by which it enters (R62)? -/
def State.dripAdmits (s : State) (f : Flit) (dst : Nat) : Bool :=
  if f.rk == dst || isStw dst then true
  else
    let cls := s.dripClass dst f.dst
    match dripQuota (s.part ((s.pidOf dst).getD 0)) (s.die (rkDie dst)).sigma cls with
    | none => true
    | some q => (s.region dst).drip.get (dripKey (s.entryPort f.rk dst) cls) < q

/-- A packet counted at its port. -/
def State.dripCount (s : State) (f : Flit) (dst : Nat) : State :=
  if f.rk == dst || isStw dst then s
  else
    let k := dripKey (s.entryPort f.rk dst) (s.dripClass dst f.dst)
    s.modRegion dst (fun x => { x with drip := x.drip.modify k (· + 1) })

/-- DRIP_WINDOW: a window of a class starts at a region's ports (R62) (log 13: DEDUCED). -/
def execDripWindow (r cls : Nat) (s : State) : Host.Outcome State Fault Refusal :=
  .next (s.modRegion r (fun x => { x with drip := x.drip.filter (fun p => p.1 % 4 != cls) }))

/-! Delivery. -/

/-- The region of a destination. -/
def destRegion : Dest → Nat
  | .field e _ _ => ekRegion e
  | .chan e _ => ekRegion e
  | .node e => ekRegion e
  | .queue d _ _ => rkOf d 16
  | .leaf d _ _ => rkOf d 16

/-- Is a destination an island's (R164)? -/
def destIsland : Dest → Bool
  | .queue _ _ _ => true
  | .leaf _ _ _ => true
  | _ => false

/-- The region whose freeze holds a packet: its consumer's, or for an island its producer's (R236). -/
def flitRegion (f : Flit) : Nat := if destIsland f.dst then f.rk else destRegion f.dst

/-- The packet at place i of the network, when nothing that must arrive before it is still in flight (R80). -/
def State.flitAt (s : State) (i : Nat) : Option Flit :=
  match s.net[i]? with
  | none => none
  | some f => if (s.net.take i).any (fun g => g.src == f.src && g.dst == f.dst) then none else some f

/-- The network without the packet at place i. -/
def State.dropFlit (s : State) (i : Nat) : State := { s with net := s.net.eraseIdx i }

/-- What a packet becomes at its place: only a target entry's packet in a field holds a credit (R76). -/
def Flit.held (f : Flit) : Held :=
  { pkt := f.pkt, src := match f.dst with | .field _ _ _ => f.src.filter (fun x => x.2 < 8) | _ => none, rk := f.rk, frm := f.frm }

/-- A slot's field: 0 L, 1 R, 2 P. -/
def SlotSt.fieldAt (x : SlotSt) (fld : Nat) : Option Held := if fld == 0 then x.l else if fld == 1 then x.r else x.p
def SlotSt.putField (x : SlotSt) (fld : Nat) (h : Option Held) : SlotSt :=
  if fld == 0 then { x with l := h } else if fld == 1 then { x with r := h } else { x with p := h }

/-- Is a destination held by a block, with room for one more packet that has already left its producer? (log 45: DEDUCED) -/
def State.destOpen (s : State) : Dest → Bool
  | .field e n fld => ((s.elem e).slots.get n).frm != 0 && (((s.elem e).slots.get n).fieldAt fld).isNone && !((s.elem e).claims n fld)
  | .chan e c => ((s.elem e).ins.get c).frm != 0 && ((s.elem e).ins.get c).q.length + (s.elem e).claimed c < 4
  | .queue d edge n => (((s.die d).islands.get edge).queues.get n).q.length < 8
  | .node e => (PMap.get s.nodes e).k != [] && (s.nodes.get e).cmds.length < 4
  | .leaf _ _ _ => false

/-- A packet put at its destination. -/
def State.place (s : State) (f : Flit) : State :=
  match f.dst with
  | .field e n fld => s.modSlot e n (fun x => x.putField fld (some f.held))
  | .chan e c => s.modElem e (fun el => { el with ins := el.ins.modify c (fun x => { x with q := x.q ++ [f.held] }) })
  | .queue d edge n =>
    s.modDie d (fun x => { x with islands := x.islands.modify edge (fun y =>
      { y with queues := y.queues.modify n (fun z => { z with q := z.q ++ [{ f := f, tpl := z.tpl, permit := z.permit }] }) }) })
  | .node e => { s with nodes := s.nodes.modify e (fun x => { x with cmds := x.cmds ++ [.tok f.pkt] }) }
  | .leaf _ _ _ => s

/-- Does a packet leave its partition's rectangle, or meet an unbound queue, so that it is discarded with a fault (R175, R222)? -/
def State.flitFault (s : State) (f : Flit) : Bool :=
  match f.dst with
  | .queue d edge n => (((s.die d).islands.get edge).queues.get n).tpl == 0
  | .leaf _ _ _ => false
  | d => s.pidOf (destRegion d) != s.pidOf f.rk

/-- Is a packet's way open: the dies and bridges between its regions ACTIVE, the channels of their links carrying data (R28, R58, R255)?
Until the channels do, the packet waits (log 112: DESIGN CHOICE). -/
def State.wayOpen (s : State) (f : Flit) : Bool :=
  rkDie f.rk == destDie f.dst || s.pathOpen (s.physDie (rkDie f.rk)) (s.physDie (destDie f.dst))

/-- Is a die or bridge on a packet's way not ACTIVE, so that it is dropped there (R28)? (log 127: DEDUCED) -/
def State.wayLost (s : State) (f : Flit) : Bool :=
  rkDie f.rk != destDie f.dst && !((s.routeIds (s.physDie (rkDie f.rk)) (s.physDie (destDie f.dst))).all s.isActive)

/-- PACKET_DELIVER: a packet in flight reaches its field, channel or port (R80). A die or bridge on its way that is not ACTIVE drops it
(R28). It waits while the freeze holds it, while the
writes it covers are not yet performed (R162, R164), while the drip limiter turns it away, or while its place is full (log 45: DEDUCED). -/
def execPacketDeliver (i : Nat) (s : State) : Host.Outcome State Fault Refusal :=
  match s.flitAt i with
  | none => .next s
  | some f =>
    let r := flitRegion f
    let tier := if destIsland f.dst then 3 else 1
    if !(s.moving r) then .next s
    else if s.wayLost f then .next (s.dropFlit i)
    else if !(s.performed tier f.pkt.cov) || !(s.wayOpen f) then .next s
    else if s.flitFault f then
      match f.src with
      | some (e, _) => .next ((s.dropFlit i).raiseSlot .bounds e f.slot)
      | none => .next (s.dropFlit i)
    else if !(s.destOpen f.dst) || !(destIsland f.dst || s.dripAdmits f r) then .next s
    else .next ((if destIsland f.dst then (s.dropFlit i).place f else ((s.dropFlit i).place f).dripCount f r).touch r)

/-! Output channels. -/

/-- Packets on their way to a destination. -/
def State.inFlight (s : State) (d : Dest) : Nat := (s.net.filter (fun f => f.dst == d)).length

/-- The entries a merge leaf's window still has room for (R196, R197): 16 × 2^WIN. -/
def Merge.window (m : Merge) : Nat := 16 * 2 ^ ((m.cfg.getD 0 0).extractLsb' 11 4).toNat

/-- The lanes of a leaf's entry (R199). -/
def Merge.keyWords (m : Merge) : Nat := if ((m.cfg.getD 0 0).extractLsb' 18 7).toNat ≤ 32 then 1 else 2
def Merge.valWords (m : Merge) : Nat :=
  let vt := ((m.cfg.getD 0 0).extractLsb' 15 3).toNat
  if vt == 0 then 0 else if vt ≤ 3 then 1 else 2
def Merge.entryLanes (m : Merge) : Nat := m.keyWords + m.valWords

/-- The entries that a packet brings to a leaf. -/
def Merge.entriesIn (m : Merge) (p : Packet) : Nat := if p.kind == 2 then 0 else p.lanes.length / m.entryLanes

/-- Is a window item an entry? -/
def MItem.isEntry : MItem → Bool
  | .entry _ _ => true
  | .stop _ => false

/-- The entries in a leaf's window. -/
def Leaf.count (x : Leaf) : Nat := (x.win.filter MItem.isEntry).length

/-- Has a consumer room for one more packet, counting those already in flight to it (R81, R174, R184, R196)? An island without a
session takes a leaf packet and faults it (R200). -/
def State.consumerFree (s : State) (d : Dest) (p : Packet) : Bool :=
  let n := s.inFlight d
  match d with
  | .field _ _ _ => true
  | .chan e c => ((s.elem e).ins.get c).q.length + (s.elem e).claimed c + n < 4
  | .queue die edge q => (((s.die die).islands.get edge).queues.get q).q.length + n < 8
  | .node e => (s.nodes.get e).k != [] && (s.nodes.get e).cmds.length + n < 4
  | .leaf die q l =>
    let m := (s.die die).merges.get q
    let coming := (s.net.filter (fun f => f.dst == d)).foldl (fun a f => a + m.entriesIn f.pkt) 0
    !m.opened || (m.leaves.get l).count + coming + m.entriesIn p ≤ m.window

/-- A refusal counted at the consumer of a full channel (R60). -/
def State.refuse (s : State) (d : Dest) : State :=
  match d with
  | .chan e _ => s.modElem e (fun el => { el with refusals := el.refusals + 1 })
  | _ => s

/-- OUTPUT_CHANNEL_SEND: the packet at the head of an output channel leaves when its consumer has room (R81). Toward a die that is
not ACTIVE it is discarded and F_QUARANTINE raised against the slot that produced it (R58). -/
def execOutputChannelSend (e ch : Nat) (s : State) : Host.Outcome State Fault Refusal :=
  let el := s.elem e
  let o := el.outs.get ch
  match o.q with
  | [] => .next s
  | (p, n) :: rest =>
    let w := el.t.get (o.bound - 1)
    match s.destOf e w with
    | none => .next s
    | some d =>
      let r := ekRegion e
      let s' := s.modElem e (fun el => { el with outs := el.outs.modify ch (fun o => { o with q := rest }) })
      if o.bound == 0 || !(s.moving r) then .next s
      else match s.sendStop e d with
        | some c => .next (s'.raiseSlot c e n)
        | none =>
          if !(s.consumerFree d p) then .next (s.refuse d)
          else
            let f : Flit := { pkt := tagged w p, src := some (e, o.bound - 1), slot := n, rk := r, frm := o.frm - 1, dst := d }
            .next ({ s' with net := s'.net ++ [f] }.touch r)

/-- Is the reverse path of a target entry's credit open (R80)? -/
def State.creditWay (s : State) (e t : Nat) : Bool :=
  match s.destOf e ((s.elem e).t.get t) with
  | some d => destDie d == ekDie e || s.pathOpen (s.physDie (destDie d)) (s.physDie (ekDie e))
  | none => true

/-- CREDIT_RETURN: a credit reaches its target entry (R76, R80). -/
def execCreditReturn (i : Nat) (s : State) : Host.Outcome State Fault Refusal :=
  match s.creds[i]? with
  | none => .next s
  | some (e, t) =>
    if !(s.moving (ekRegion e)) || !(s.creditWay e t) then .next s
    else .next { s.modElem e (fun el => { el with spent := el.spent.erase t }) with creds := s.creds.eraseIdx i }

/-- BND_PACKET_RELEASE: a BND's packet leaves once what its release covers is performed at the tier named, behind the packets that
wait for the same destination (R163, R330). -/
def execBndPacketRelease (i : Nat) (s : State) : Host.Outcome State Fault Refusal :=
  match s.bnds[i]? with
  | none => .next s
  | some (tier, cov, t) =>
    if !(s.moving t.rk) || (s.bnds.take i).any (fun b => b.2.2.e == t.e && b.2.2.dt == t.dt) || !(s.performed tier cov) then .next s
    else .next (({ s with bnds := s.bnds.eraseIdx i }.fulfil t t.hdr).touch t.rk)

/-- SLOT_AGEING: a slot that has been ready for 256 cycles without being selected takes priority 3 (R92)
(log 13: DEDUCED; log 37: DEDUCED). -/
def execSlotAgeing (e n : Nat) (s : State) : Host.Outcome State Fault Refusal :=
  if s.ready e n && s.moving (ekRegion e) && (s.elem e).hold == .run then
    .next (s.modSlot e n (fun x => { x with aged := true }))
  else .next s

end Sys2Proof.Machine
end

