-- ==== Sys2Proof/Machine/Sequencer.lean ====
section
/-! DEFINITION. The region sequencer: frames that fire, drain and commit (R52 to R55), iteration tokens (R56), and the sequencer
words SQARM, SQBR, SQLOOP, SQWAIT, SQJOIN, SQEND, SQMARK and SQFENCE (R57, R299, R300, R394). -/

namespace Sys2Proof.Machine

/-! Firing. -/

/-- Has the frame before one in the stream entered firing (R52)? -/
def Region.mayFire (x : Region) (frm : Nat) : Bool :=
  (x.order.takeWhile (fun f => f != frm)).all (fun f => (x.frames.get f).st != .armed && (x.frames.get f).st != .arming)

/-- The target entry of a frame's own block that feeds a field of its region (R76): the credit that an initial token spends. -/
def State.feederOf (s : State) (r frm : Nat) (t : Target) : Option (Nat × Nat) :=
  let es := (List.range 64).map (ekOf r)
  es.findSome? (fun e =>
    ((List.range 8).find? (fun n =>
      let w := (s.elem e).t.get n
      (s.elem e).tOwn.get n == frm + 1 && tValid w && tFld w == t.fld && tSlot w == t.slot
        && s.hop e (tDx w) (tDy w) == some (ekOf r t.eidx))).map (fun n => (e, n)))

/-- An initial token put into its field, its credit spent (R52, R76). -/
def State.inject (s : State) (r frm : Nat) (t : Target) (p : Packet) : State :=
  let src := s.feederOf r frm t
  let s := match src with
    | some (e, n) => s.modElem e (fun el => { el with spent := n :: el.spent.erase n })
    | none => s
  s.modSlot (ekOf r t.eidx) t.slot (fun x => x.putField t.fld (some { pkt := p, src := src, rk := r, frm := frm }))

/-- Are the fields of some targets free? (log 44: DEDUCED) -/
def State.fieldsFree (s : State) (r : Nat) (ts : List Target) : Bool :=
  ts.all (fun t => (((s.elem (ekOf r t.eidx)).slots.get t.slot).fieldAt t.fld).isNone && !((s.elem (ekOf r t.eidx)).claims t.slot t.fld))

/-- FRAME_FIRE: an armed frame enters firing after the frame before it; its starting ST values are written and its initial tokens
injected, and what the region's commits released becomes visible to its elements (R52, R54, R71) (log 44: DEDUCED). -/
def execFrameFire (r frm : Nat) (s : State) : Host.Outcome State Fault Refusal :=
  let x := s.region r
  let fr := x.frames.get frm
  if fr.st != .armed || !(s.moving r) || !(x.mayFire frm) || !(s.fieldsFree r (fr.inits.map (fun i => i.1))) then .next s
  else
    let s := s.modFrame r frm (fun f => { f with st := .firing })
    let s := (List.range 64).foldl (fun s e =>
      if inFoot fr.foot e then s.modElem (ekOf r e) (fun el => { el with cov := (el.cov ++ x.cov).eraseDups }) else s) s
    let s := fr.stst.foldl (fun s t => s.modElem (ekOf r t.1) (fun el => { el with st := t.2 })) s
    .next ((fr.inits.foldl (fun s i => s.inject r frm i.1 i.2) s).touch r)

/-! Iteration tokens (R56). -/

/-- The next index tuple, loop 0 innermost; none after the last. -/
def nextTuple : List Nat → List Nat → Option (List Nat)
  | i :: is, c :: cs => if i + 1 < c then some ((i + 1) :: is) else (nextTuple is cs).map (fun js => 0 :: js)
  | _, _ => none

/-- How many innermost loops stand at their last value, counted outward from loop 0. -/
def lastCount : List Nat → List Nat → Nat
  | i :: is, c :: cs => if i + 1 == c then lastCount is cs + 1 else 0
  | _, _ => 0

/-- The value of an iteration tuple: the strided sum, the iteration-tier fields of the WID, and EOF (R56). -/
def iterPacket (h1 : Dword) (l : LoopSt) : Packet :=
  let sum := (l.idx.zip l.strides).foldl (fun a x => a + x.1 * x.2.toNat) 0
  let ws := iterWidths h1
  let fields := (List.range ws.length).foldl (fun a k => a + l.idx.getD k 0 * 2 ^ widPos h1 k) 0
  { fmt := 0, lanes := [BitVec.ofNat 32 sum, BitVec.ofNat 32 fields], eof := BitVec.ofNat 2 (min 3 (lastCount l.idx l.counts)) }

/-- ITERATION_TOKEN: the sequencer sends the next tuple of a frame's loop nest to every target, when every one is free (R56). -/
def execIterationToken (r frm : Nat) (s : State) : Host.Outcome State Fault Refusal :=
  let fr := s.frame r frm
  if !(fr.st == .firing || fr.st == .draining) || fr.loops.done || !(s.moving r) || !(s.fieldsFree r fr.itgt) then .next s
  else
    let p := iterPacket (s.launchWid r) fr.loops
    let s := fr.itgt.foldl (fun s t =>
      s.modSlot (ekOf r t.eidx) t.slot (fun x => x.putField t.fld (some { pkt := p, rk := r, frm := frm }))) s
    let step (l : LoopSt) : LoopSt :=
      match nextTuple l.idx l.counts with
      | some ix => { l with idx := ix }
      | none => { l with done := true }
    .next ((s.modFrame r frm (fun f => { f with loops := step f.loops })).touch r)

/-! Commit. -/

/-- Is a held packet a token of a frame's block? -/
def Held.ofFrame (r frm : Nat) (h : Held) : Bool := h.rk == r && h.frm == frm

/-- Has an element a token of a frame's block, in a field, a channel, or waiting in an output channel? -/
def Elem.holdsToken (el : Elem) (r frm : Nat) : Bool :=
  el.inF.any (fun x => (el.slots.get x.slot).frm == frm + 1)
    || (match el.stalled with | some x => (el.slots.get x.1).frm == frm + 1 | none => false)
    || el.slots.any (fun x => (x.2.l.toList ++ x.2.r.toList ++ x.2.p.toList).any (Held.ofFrame r frm))
    || el.ins.any (fun x => x.2.q.any (Held.ofFrame r frm))

/-- Is a result of a frame's block still to come? -/
def Ret.ofFrame (r frm : Nat) (t : Ret) : Bool := t.rk == r && t.frm == frm

/-- Is any token of a frame's block in flight, or a result of it outstanding, or an accepted job of its templates not complete (R52, R53,
R175)? (log 40: DEDUCED; log 133: DEDUCED) -/
def State.tokensLeft (s : State) (r frm : Nat) : Bool :=
  s.elems.any (fun x => x.2.holdsToken r frm)
    || (List.range 64).any (fun e => (s.elem (ekOf r e)).outs.any (fun x => x.2.frm == frm + 1 && (!x.2.q.isEmpty || x.2.rsv != 0)))
    || s.net.any (fun f => f.rk == r && f.frm == frm)
    || s.bnds.any (fun b => b.2.2.ofFrame r frm)
    || s.reqs.any (fun q => q.who == .firing && q.ret.ofFrame r frm)
    || s.tileQ.any (fun t => t.2.any (fun q => q.ret.ofFrame r frm))
    || s.jobs.any (fun j => (j.tmov.isNone && j.tpl.rk == r && j.tpl.frm == frm)
        || (match j.ret with | some t => t.ofFrame r frm | none => false))
    || s.nodes.any (fun n => n.2.rk == r && n.2.frm == frm && (!n.2.cmds.isEmpty || !n.2.sends.isEmpty || n.2.result.isSome))
    || s.dies.any (fun d => d.2.islands.any (fun i => i.2.queues.any (fun q => q.2.q.any (fun t => t.f.rk == r && t.f.frm == frm))
        || i.2.tpls.any (fun t => match t.2 with | some x => (x.closing.map (Ret.ofFrame r frm)).getD false | none => false))
      || s.descs.any (fun d => match d.2.xq with | some x => x.closing.any (Ret.ofFrame r frm) | none => false)
      || d.2.merges.any (fun m => m.2.closing.any (Ret.ofFrame r frm)
        || (m.2.opened && m.2.rk == r && m.2.frm == frm && !m.2.sentEnd)))

/-- The channels that a node's routes and notify entry feed, as 4 × element key + channel (R184). -/
def State.nodeChannels (s : State) (e : Nat) (n : Node) : List Nat :=
  let nte := (n.k.getD 0 0).getLsbD 13
  ([2, 3, 4, 5].map (fun i => n.k.getD i 0) ++ (if nte then [n.k.getD 1 0] else [])).filterMap (fun w =>
    if tValid w && tFld w == 3 && tPort w < 4 then (s.hop e (tDx w) (tDy w)).map (fun c => 4 * c + tPort w) else none)

/-- Feeder marks cleared (R82). -/
def State.unmark (s : State) (cs : List Nat) : State :=
  cs.foldl (fun s c => s.modElem (c / 4) (fun el => { el with ins := el.ins.modify (c % 4) (fun x => { x with mark := false }) })) s

/-- The merge session of a frame, where it has one, ends (R195). -/
def Merge.mark (s : State) (m : Merge) : List Nat :=
  let w := m.cfg.getD 2 0
  match s.hop m.e (tDx w) (tDy w) with | some c => [4 * c + tPort w] | none => []

/-- The engines that a frame holds are given back at its commit: templates, queues, nodes and merge sessions (R175, R184, R195). -/
def State.freeEngines (s : State) (r frm : Nat) : State :=
  let d := rkDie r
  let nodes := s.nodes.filter (fun n => n.2.rk == r && n.2.frm == frm)
  let ms := (s.die d).merges.filter (fun m => m.2.opened && m.2.rk == r && m.2.frm == frm)
  let s := s.unmark (nodes.flatMap (fun n => s.nodeChannels n.1 n.2) ++ ms.flatMap (fun m => Merge.mark s m.2))
  let s := { s with nodes := s.nodes.filter (fun n => !(n.2.rk == r && n.2.frm == frm)) }
  let mine (t : Option Template) : Bool := match t with | some t => t.rk == r && t.frm == frm | none => false
  s.modDie d (fun x => { x with
    merges := x.merges.filter (fun m => !(m.2.opened && m.2.rk == r && m.2.frm == frm))
    islands := x.islands.map (fun i => (i.1, { i.2 with
      tpls := i.2.tpls.filter (fun t => !(mine t.2))
      queues := i.2.queues.map (fun q => (q.1,
        if i.2.tpls.any (fun t => mine t.2 && (t.2.map (fun x => x.id)) == some q.2.tpl) then { q.2 with tpl := 0, permit := false, rk := 0, frm := 0 } else q.2)) })) })

/-- The diverted records that the exchange queues of a frame leave in the grounds ring (R211). -/
def State.queueRecords (s : State) (r frm : Nat) : List Nat :=
  s.descs.flatMap (fun d => match d.2.xq with
    | some x => if x.rk == r && x.frm == frm then x.records.map (fun y => y.1) else []
    | none => [])

/-- The exchange queues that a frame registered are deregistered; their launch keeps account of the records they leave (R211, R212)
(log 118: DESIGN CHOICE). -/
def State.freeQueues (s : State) (r frm : Nat) : State :=
  let left := s.queueRecords r frm
  let s := if left.isEmpty then s
    else s.modLaunch ((s.pidOf r).getD 0) (s.region r).lnch (fun l => { l with left := l.left ++ left })
  { s with descs := s.descs.map (fun d => (d.1, { d.2 with
      xq := match d.2.xq with | some x => if x.rk == r && x.frm == frm then none else some x | none => none })) }

/-- What commit does in one cycle (R54): store-masked bindings, the commit counters, the release to later blocks, and the end of the
frame's templates, nodes, sessions and exchange queues (R175, R184, R195, R212). -/
def State.commitNow (s : State) (r frm : Nat) : State :=
  let fr := s.frame r frm
  let s := (s.freeEngines r frm).freeQueues r frm
  let s := (List.range 8).foldl (fun s b =>
    if fr.flags.stmask.getLsbD b then s.setRing r frm b ((s.ringOf r frm b).commit (s.bnd r frm b).shape.depth) else s) s
  let cov := (List.range 64).flatMap (fun e => if inFoot fr.foot e then (s.elem (ekOf r e)).cov else [])
  let s := s.modRegion r (fun x => { x with
    commits := x.commits + 1, cov := (x.cov ++ s.live cov).eraseDups,
    frames := x.frames.modify frm (fun f => { f with st := .committed, clones := [] }) })
  if isStw r then s.modDie (rkDie r) (fun d => { d with stw := match d.stw with
      | j :: js => { j with launch := { j.launch with commits := j.launch.commits + 1 } } :: js
      | [] => [] })
  else s.modLaunch ((s.pidOf r).getD 0) (s.region r).lnch (fun l => { l with commits := l.commits + 1 })

/-- An element with what a frame held given back (R52, R70). -/
def releaseElem (frm : Nat) (el : Elem) : Elem :=
  { el with
    users := el.users.filter (fun f => f != frm)
    tOwn := el.tOwn.filter (fun x => x.2 != frm + 1)
    kOwn := el.kOwn.filter (fun x => x.2 != frm + 1)
    outs := el.outs.filterMap (fun x => if x.2.frm == frm + 1 then none else some x)
    ins := el.ins.map (fun x => (x.1, if x.2.frm == frm + 1 then { x.2 with frm := 0 } else x.2))
    slots := el.slots.filter (fun x => x.2.frm != frm + 1) }

/-- Tables whose entries were changed in place, brought back to their canonical form. -/
def Elem.tidy (el : Elem) : Elem := { el with ins := el.ins.filter (fun x => x.2 != default) }

/-- A frame freed: its slot positions, T, K and channels, its marks, and its engines (R52, R82). -/
def State.freeFrame (s : State) (r frm : Nat) : State :=
  let fr := s.frame r frm
  let s := (s.freeEngines r frm).freeQueues r frm
  let s := s.unmark fr.marks
  let s := (List.range 64).foldl (fun s e =>
    if inFoot fr.foot e then s.modElem (ekOf r e) (fun el => (releaseElem frm el).tidy) else s) s
  (s.modRegion r (fun x => { x with
    frames := x.frames.set frm {}, order := x.order.filter (fun f => f != frm) })).freeDescs

/-- A branching frame that drains names its successor (R55): the largest code of its EXIT firings. -/
def State.resolve (s : State) (r : Nat) : State :=
  match (s.region r).seq with
  | .branch frm =>
    let fr := s.frame r frm
    if fr.st == .draining || fr.st == .committed then
      s.modRegion r (fun x => { x with
        seq := .run, sqp := streamPos ((fr.soff : Int) + fr.succ.getD fr.code 0), fromOff := fr.soff, branched := true })
    else s
  | _ => s

/-- BLOCK_COMMIT: the oldest frame, draining with no token left and its last tuple sent, commits; one cycle later its frame is free
(R52, R54) (log 44: DEDUCED). -/
def execBlockCommit (r frm : Nat) (s : State) : Host.Outcome State Fault Refusal :=
  let x := s.region r
  let fr := x.frames.get frm
  if x.order.head? != some frm || !(s.moving r) then .next s
  else match fr.st with
    | .draining =>
      if fr.loops.done && !(s.tokensLeft r frm) then .next (((s.resolve r).commitNow r frm).touch r) else .next s
    | .committed => .next (((s.resolve r).freeFrame r frm).touch r)
    | _ => .next s

/-! Sequencer words. The region is `s.cur.1`. -/

/-- The region whose word is in progress. -/
def State.seqRegion (s : State) : Nat := s.cur.1

/-- The stream continues at a signed offset from the word (log 47: DEDUCED; log 48: DEDUCED). -/
def State.seqJump (s : State) (r : Nat) (off : Int) : State :=
  s.modRegion r (fun x => { x with sqp := streamPos ((x.sqp : Int) + off), fromOff := x.sqp, branched := true })

/-- SQARM: the position at OFF must be a block header; it is armed next (R394). -/
def execSqarm (off : BitVec 32) (s : State) : Host.Outcome State Fault Refusal :=
  let r := s.seqRegion
  let x := s.region r
  let p := streamPos ((x.sqp : Int) + off.toInt)
  match s.readWords r (s.streamVa r p) 1 with
  | .error (c, va) => .next ((s.seqFault c r x.sqp 0 (some va)).drawn)
  | .ok ws =>
    if bitsOf (ws.headD 0) 48 16 == 0x5A3C then .next (s.seqJump r off.toInt).drawn
    else .next ((s.seqFault .blkAlign r x.sqp 0 none).drawn)

/-- SQBR (R394) (log 48: DEDUCED). -/
def execSqbr (off : BitVec 32) (s : State) : Host.Outcome State Fault Refusal := .next (s.seqJump s.seqRegion off.toInt)

/-- SQLOOP (R300, R394): COUNT 0, or OFF not negative, faults. -/
def execSqloop (lc : BitVec 2) (count : BitVec 24) (off : BitVec 30) (s : State) : Host.Outcome State Fault Refusal :=
  let r := s.seqRegion
  let x := s.region r
  if count == 0 || !off.msb then .next (s.seqFault .illegal r x.sqp 0 none)
  else
    let c := x.sql.get lc.toNat
    let n := (if c == 0 then count else c) - 1
    let s := s.modRegion r (fun y => { y with sql := y.sql.set lc.toNat n })
    if n != 0 then .next (s.seqJump r off.toInt) else .next (s.seqStep r 1)

/-- Is a generation of a sync word reached, wherever the word is? -/
def State.genReached (s : State) (g a n : Nat) : Bool :=
  if 2 ^ 63 ≤ a then genMet (syncGen (bytesVal ((List.range 16).map (fun i => Config.remoteByte s.draws (g + i))))) n
  else s.wordMet a n

/-- SQWAIT: passes when the word's generation is reached, else registers a waiter there (R140, R394). A word of another panel is
read again until it is (log 21: DESIGN CHOICE; log 56: DEDUCED). -/
def execSqwait (g : BitVec 16) (va : Dword) (s : State) : Host.Outcome State Fault Refusal :=
  let r := s.seqRegion
  let x := s.region r
  match s.access r va.toNat 16 needRead with
  | .error c => .next ((s.seqFault c r x.sqp 0 (some va.toNat)).drawn)
  | .ok (gpa, a) =>
    if a < 2 ^ 63 && !(s.marked a 16) then .next ((s.seqFault .align r x.sqp 0 (some va.toNat)).drawn)
    else
      let t := (s.noteSync r va.toNat).drawn
      if s.genReached gpa a g.toNat then .next (t.seqAcquire r a)
      else if 2 ^ 63 ≤ a then .next t
      else .next (t.modRegion r (fun y => { y with seq := .await a g.toNat }))

/-- SQJOIN: holds while a child of the group has not ended, then acquires: what the children's completions cover has joined the
region's, and its prefetch buffer empties (R44, R45, R156) (log 73: DEDUCED). -/
def execSqjoin (g : BitVec 2) (s : State) : Host.Outcome State Fault Refusal :=
  let r := s.seqRegion
  if (s.region r).joins.get g.toNat != 0 then .next s
  else .next ((s.modRegion r (fun x => { x with prefetch := [] })).seqStep r 1)

/-- SQEND: ends the region's pass after every earlier commit (R57). -/
def execSqend (s : State) : Host.Outcome State Fault Refusal :=
  let r := s.seqRegion
  if !((s.region r).order.isEmpty) then .next s else .next ((s.modRegion r (fun x => { x with seq := .ended })).touch r)

/-- SQMARK: after every earlier commit, sets the region's mark (R243, R394). -/
def execSqmark (m : BitVec 16) (s : State) : Host.Outcome State Fault Refusal :=
  let r := s.seqRegion
  if !((s.region r).order.isEmpty) then .next s else .next ((s.modRegion r (fun x => { x with mark := m })).seqStep r 1)

/-- SQFENCE: after every earlier commit, continues (R394). -/
def execSqfence (s : State) : Host.Outcome State Fault Refusal :=
  let r := s.seqRegion
  if !((s.region r).order.isEmpty) then .next s else .next (s.seqStep r 1)

end Sys2Proof.Machine
end

