-- ==== Sys2Proof/Machine/Launch.lean ====
section
/-! DEFINITION. Launches (R34 to R50): their headers, submission by a host and by SQLAUNCH, placement, passes, and completion. -/

namespace Sys2Proof.Machine

/-! Headers (R34 to R37). -/

/-- Header doubleword n of a list. -/
def lh (hdr : List Dword) (n : Nat) : Dword := hdr.getD n 0

/-- The fields of LH0 (R35). -/
def lhPri (hdr : List Dword) : Nat := bitsOf (lh hdr 0) 41 3
def lhTsc (hdr : List Dword) : Nat := bitsOf (lh hdr 0) 37 3
def lhNdep (hdr : List Dword) : Nat := bitsOf (lh hdr 0) 33 3
def lhRw (hdr : List Dword) : Nat := bitsOf (lh hdr 0) 27 6
def lhRh (hdr : List Dword) : Nat := bitsOf (lh hdr 0) 21 6
def lhFw (hdr : List Dword) : Nat := bitsOf (lh hdr 0) 15 6
def lhFh (hdr : List Dword) : Nat := bitsOf (lh hdr 0) 9 6

/-- Does any WID field hold a tier code of 6 or 7 (R12, R48)? -/
def tierBad (hdr : List Dword) : Bool := (List.range 6).any (fun k => 6 ≤ widTier (lh hdr 1) k)

/-- The WID layout rules of R37. -/
def widLegal (hdr : List Dword) : Bool :=
  let h1 := lh hdr 1
  let w := widWidth h1
  let t := widTier h1
  let used := (List.range 6).filter (fun k => w k != 0)
  let sum (p : Nat → Bool) : Nat := (used.filter p).foldl (fun a k => a + w k) 0
  let mask := used.foldl (fun a k => if 4 ≤ t k then a + (2 ^ w k - 1) * 2 ^ widPos h1 k else a) 0
  bitsOf h1 60 4 == 0 && !(tierBad hdr)
    && used == List.range used.length && sum (fun _ => true) ≤ 64
    && (List.range (used.length - 1)).all (fun k => t k ≤ t (k + 1))
    && (used.filter (fun k => t k == 0)).length ≤ 4
    && sum (fun k => 1 ≤ t k && t k ≤ 3) ≤ 24
    && (lh hdr 2).toNat &&& mask == (lh hdr 2).toNat

/-- An address of the header: canonical and aligned (R36). -/
def vaLegal (w : Dword) (align : Nat) : Bool := w.toNat < 2 ^ 57 && w.toNat % align == 0

/-- A dependence of the header (R36). -/
def depLegal (hdr : List Dword) (j : Nat) : Bool :=
  let a := lh hdr (8 + 2 * j)
  let b := lh hdr (9 + 2 * j)
  if j < lhNdep hdr then vaLegal a 16 && bitsOf b 19 45 == 0 && (bitsOf b 16 3 == 4 || bitsOf b 16 3 == 5)
  else a == 0 && b == 0

/-- R34 to R37 on a header alone. -/
def headerLegal (hdr : List Dword) : Bool :=
  let h0 := lh hdr 0
  hdr.length == 16 && bitsOf h0 48 16 == 0xC35A && bitsOf h0 44 4 == 1 && bitsOf h0 0 5 == 0 && lhNdep hdr ≤ 4
    && ((lhRw hdr == 0 && lhRh hdr == 0) || (1 ≤ lhRw hdr && lhRw hdr ≤ 32 && 1 ≤ lhRh hdr && lhRh hdr ≤ 40))
    && 1 ≤ lhFw hdr && lhFw hdr ≤ 32 && 1 ≤ lhFh hdr && lhFh hdr ≤ 40
    && widLegal hdr && vaLegal (lh hdr 3) 4096 && vaLegal (lh hdr 4) 64 && vaLegal (lh hdr 5) 4096 && vaLegal (lh hdr 6) 16
    && bitsOf (lh hdr 7) 0 48 == 0 && (List.range 4).all (depLegal hdr)

/-! Rectangles (R38 to R40). -/

/-- The alignment that a launch's co-location fields ask of its rectangle (R39): 4 with a die-tier field, 2 with a quad-tier one. -/
def colocate (hdr : List Dword) : Nat :=
  let h1 := lh hdr 1
  let has (t : Nat) : Bool := (List.range 6).any (fun k => widWidth h1 k != 0 && widTier h1 k == t)
  if has 3 then 4 else if has 2 then 2 else 1

/-- R39's conditions on the footprint and the widths of the fields below. -/
def widFits (hdr : List Dword) : Bool :=
  let h1 := lh hdr 1
  let sum (lo hi : Nat) : Nat := (List.range 6).foldl (fun a k =>
    if lo ≤ widTier h1 k && widTier h1 k ≤ hi then a + widWidth h1 k else a) 0
  let has (t : Nat) : Bool := (List.range 6).any (fun k => widWidth h1 k != 0 && widTier h1 k == t)
  (!(has 2 || has 3) || (lhFw hdr == 1 && lhFh hdr == 1)) && (!(has 2) || sum 1 1 ≤ 2) && (!(has 3) || sum 1 2 ≤ 4)

/-- Slots of a rectangle for a footprint. -/
def slotsIn (hdr : List Dword) (q : Rect) : Nat := (q.w / lhFw hdr) * (q.h / lhFh hdr)

/-- May a rectangle hold a launch, as far as its shape goes (R38 to R40)? -/
def shapeFits (p : Part) (hdr : List Dword) (q : Rect) : Bool :=
  let d := pRect p
  let a := colocate hdr
  1 ≤ q.w && 1 ≤ q.h && d.gx ≤ q.gx && d.gy ≤ q.gy && q.gx + q.w ≤ d.gx + d.w && q.gy + q.h ≤ d.gy + d.h
    && q.w % lhFw hdr == 0 && q.h % lhFh hdr == 0
    && q.gx % a == 0 && q.gy % a == 0 && q.w % a == 0 && q.h % a == 0
    && (if lhRw hdr == 0 then slotsIn hdr q ≤ 2 ^ widPlaceBits (lh hdr 1) else q.w == lhRw hdr && q.h == lhRh hdr)

/-- The sizes to try: the one asked for, or every multiple of the footprint inside the partition. -/
def sizesFor (p : Part) (hdr : List Dword) : List (Nat × Nat) :=
  let d := pRect p
  if lhRw hdr != 0 then [(lhRw hdr, lhRh hdr)]
  else (List.range (d.w / lhFw hdr)).flatMap (fun i => (List.range (d.h / lhFh hdr)).map (fun j =>
    ((i + 1) * lhFw hdr, (j + 1) * lhFh hdr)))

/-- The rectangles of a partition that fit a launch's shape (log 15: DEDUCED). -/
def rectsFor (p : Part) (hdr : List Dword) : List Rect :=
  let d := pRect p
  (sizesFor p hdr).flatMap (fun z =>
    (List.range (d.w + 1 - z.1)).flatMap (fun i => (List.range (d.h + 1 - z.2)).filterMap (fun j =>
      let q : Rect := { gx := d.gx + i, gy := d.gy + j, w := z.1, h := z.2 }
      if shapeFits p hdr q then some q else none)))

/-- No region of a rectangle is dark (R79). -/
def State.noDark (s : State) (q : Rect) : Bool := (s.rectRegions q).all (fun r => !(s.region r).dark)

/-- Does a clone of a block hold a region (R60)? (log 42: DEDUCED) -/
def State.cloneHolds (s : State) (r : Nat) : Bool := s.regions.any (fun x => x.2.frames.any (fun f => f.2.clones.any (fun c => c.1 == r)))

/-- Every region of a rectangle is free: no launch holds it, and no clone. -/
def State.allFree (s : State) (q : Rect) : Bool := (s.rectRegions q).all (fun r => (s.region r).lnch == 0 && !(s.cloneHolds r))

/-- Does the launch fit its partition at all (R38, R39, R48 SHAPE)? -/
def State.shapeOk (s : State) (pid : Nat) (hdr : List Dword) : Bool :=
  widFits hdr && (rectsFor (s.part pid) hdr).any s.noDark

/-- May a launch be placed on a rectangle now: it fits, its regions are free and none dark, and with "any" none that fits has more
slots (R40). -/
def State.placeable (s : State) (pid : Nat) (hdr : List Dword) (q : Rect) : Bool :=
  let ok (x : Rect) : Bool := s.noDark x && s.allFree x
  shapeFits (s.part pid) hdr q && ok q
    && (lhRw hdr != 0 || (rectsFor (s.part pid) hdr).all (fun x => !(ok x) || slotsIn hdr x ≤ slotsIn hdr q))

/-- Does a launch fit somewhere now? (log 15: DEDUCED) -/
def State.fitsNow (s : State) (pid : Nat) (hdr : List Dword) : Bool :=
  (rectsFor (s.part pid) hdr).any (fun x => s.noDark x && s.allFree x)

/-! Acceptance (R42, R43, R46, R138). -/

/-- A whole access for a partition at its home die: the key. -/
def State.partAccess (s : State) (pid va n : Nat) (need : Rights) : Except FCode Nat := do
  addrCheck va n
  let src := s.physDie (s.homeDie pid)
  match s.lookup pid src va with
  | none => .error .xlat
  | some t =>
    if !(rightsOk need { rd := t.rd, wr := t.wr, am := t.am }) then .error .perm
    else
      let g := t.gpa + (va - t.va)
      if s.isRemote g && !(s.reachable (gpaPanel g)) then .error .link
      else if !(s.routeOk src g) then .error .quarantine
      else if !(s.lineOk src g) then .error .link
      else if s.isRemote g then .ok (remoteKey g)
      else
        let a ← s.stage2 (pVf (s.part pid)) g need
        if s.eccBad a n then .error .ecc else .ok a

/-- The key of a sync word that a header names; none where the checks of R138 refuse it. -/
def State.syncKey (s : State) (pid va : Nat) (need : Rights) : Option Nat :=
  match s.partAccess pid va 16 need with
  | .error _ => none
  | .ok a => if 2 ^ 63 ≤ a || s.marked a 16 then some a else none

/-- The dependences of a header, as keys and generations; none where one is refused. -/
def State.depsOf (s : State) (pid : Nat) (hdr : List Dword) : Option (List (Nat × Nat)) :=
  (List.range (lhNdep hdr)).foldl (fun acc j =>
    match acc, s.syncKey pid (lh hdr (8 + 2 * j)).toNat needRead with
    | some xs, some a => some (xs ++ [(a, bitsOf (lh hdr (9 + 2 * j)) 0 16)])
    | _, _ => none) (some [])

/-- The completion word of a header; none where it is refused. -/
def State.cmpOf (s : State) (pid : Nat) (hdr : List Dword) : Option (Option Nat) :=
  if lh hdr 6 == 0 then some none else (s.syncKey pid (lh hdr 6).toNat needSync).map some

/-- Launches of a VF accepted and not complete. -/
def State.vfLaunches (s : State) (vf : Nat) : Nat :=
  s.parts.foldl (fun n p => if pVf p.2 == vf then n + p.2.launches.length else n) 0

/-- The VF's launch-queue quota, held at the root (R231). -/
def State.lqe (s : State) (vf : Nat) : Nat := bitsOf (s.vftAt 200 vf).2 8 12

/-- Is a VF enabled, at the root? -/
def State.vfOn (s : State) (vf : Nat) : Bool := (s.vftAt 200 vf).1.getLsbD 63

/-- The children that wait or run in a partition's pool of 4,096 entries (R43). -/
def poolUse (p : Part) : Nat := (p.launches.filter (fun l => match l.origin with | .child _ _ _ => true | _ => false)).length

/-- The status of a submission: the launch, or the refusal's code, in the order HEADER, SHAPE, DEPTH, POOL, QUOTA (R43, R48)
(log 78: DEDUCED). -/
def State.judge (s : State) (pid : Nat) (hdr : List Dword) (depth : Nat) (origin : Origin) : Except Nat Launch :=
  let p := s.part pid
  if !(headerLegal hdr) then .error 0x01
  else match s.depsOf pid hdr, s.cmpOf pid hdr with
    | some ds, some c =>
      if pState p == 0 || pState p == 5 || !(s.shapeOk pid hdr) then .error 0x02
      else if 24 < depth then .error 0x04
      else if 4096 ≤ poolUse p && (match origin with | .child _ _ _ => true | _ => false) then .error 0x03
      else if s.lqe (pVf p) ≤ s.vfLaunches (pVf p) then .error 0x05
      else
        let met (d : Nat × Nat) : Bool := d.1 < 2 ^ 63 && s.wordMet d.1 d.2
        let vas := (List.range (lhNdep hdr)).map (fun j => (lh hdr (8 + 2 * j)).toNat) ++ (if c.isSome then [(lh hdr 6).toNat] else [])
        .ok { lnch := (p.next + 1) % 2 ^ 32, hdr := hdr, depth := depth, origin := origin,
              deps := ds.filter (fun d => !(met d)), cmp := c, syncs := vas.eraseDups,
              cov := ((ds.filter met).flatMap (fun d => s.relCov.get d.1)).eraseDups }
    | _, _ => .error 0x01

/-- A dependence on a word of another panel is watched there (R46, R264). -/
def State.watchFar (s : State) (pid lnch : Nat) (d : Nat × Nat) : State :=
  if d.1 < 2 ^ 63 then s
  else
    let q : Req := { id := s.nextId, op := .sywch d.2, who := .dependence pid lnch, phase := .home, gpa := d.1 - 2 ^ 63, size := 16,
                     ret := { rk := farRegion } }
    ({ s with reqs := s.reqs ++ [q] } : State).fresh

/-- A launch taken into its partition's list, its dependences on other panels watched. -/
def State.accept (s : State) (pid : Nat) (l : Launch) : State :=
  l.deps.foldl (fun s d => s.watchFar pid l.lnch d)
    (s.modPart pid (fun p => { p with next := p.next + 1, launches := p.launches ++ [l] }))

/-- FCODE of a refusal: F_ILLEGAL for a HEADER refusal of a header with a tier code of 6 or 7 (R48). -/
def refusalCode (status : Nat) (hdr : List Dword) : Nat := if status == 1 && tierBad hdr then FCode.illegal.num else 0

/-! Completion entries (R270). -/

/-- Where entry n of a completion queue goes (R270). -/
def SubQ.entryAt (x : SubQ) (n : Nat) : HostBuf := { qpn := x.qpn, va := x.va + 32 * (n % max x.entries 1), key := x.key }

/-- Does a queue pair still take what the panel writes on it: open, or of a VF whose disable is not yet done (R232, R233)?
(log 129: DEDUCED) -/
def QPair.live (q : QPair) : Bool := q.isOpen || q.ending

/-- May the next entry of a completion queue be written: the host has made room, the submitting queue pair takes it, and the way of event
class from the partition to the home port die is open (R27, R28, R270)? -/
def State.entryRoom (s : State) (vf : Nat) (x : SubQ) : Bool :=
  x.written < x.head + x.entries && (s.panel.qps.get x.qpn).live && s.portOpen (s.physDie (s.homeDie x.pid)) (s.vf vf).home

/-- The phase of entry n of a completion queue: 1 on the first pass, inverted on each wrap (R270). -/
def SubQ.phase (x : SubQ) (n : Nat) : Bool := n / max x.entries 1 % 2 == 0

/-- A completion entry with its phase (R270). -/
def withPhase (on : Bool) : List Dword → List Dword
  | [] => []
  | w :: ws => putBits w 0 1 (if on then 1 else 0) :: ws

/-- Held completion entries written while they may be, at most n of them (R270). -/
def State.flushSq (s : State) (vf q : Nat) : Nat → State
  | 0 => s
  | n + 1 =>
    let x := (s.vf vf).sqs.get q
    match x.held with
    | [] => s
    | e :: rest =>
      if s.entryRoom vf x then
        ((s.modVf vf (fun y => { y with sqs := y.sqs.modify q (fun z => { z with written := z.written + 1, held := rest }) })).emit
          (.completion vf q (x.entryAt x.written) (withPhase (x.phase x.written) e))).flushSq vf q n
      else s

/-- Every entry that a submission queue holds written, while it may be. -/
def State.flushQueue (s : State) (vf q : Nat) : State := s.flushSq vf q ((s.vf vf).sqs.get q).held.length

/-- A completion entry for a host's launch, behind those that its queue holds: written to the host as soon as it may be. -/
def State.completeHost (s : State) (pid vf q : Nat) (hdr : List Dword) (status fcode lnch sseq pcmt pjob : Nat) : State :=
  let e := completionEntry hdr status fcode pid vf false lnch (sseq % 2 ^ 32) (pcmt % 2 ^ 32) (pjob % 2 ^ 32)
  (s.modVf vf (fun x => { x with sqs := x.sqs.modify q (fun y => { y with held := y.held ++ [e] }) })).flushQueue vf q

/-- LAUNCH_SUBMIT: a host's SEND into a submission queue (R42, R43, R270). A queue that is not bound, or whose VF is disabled, drops
it (R232); one with 64 entries held answers RNR. -/
def execLaunchSubmit (vf q : Nat) (hdr : List Dword) (s : State) : Host.Outcome State Fault Refusal :=
  let sq := (s.vf vf).sqs.get q
  if !sq.bound || !(s.vfOn vf) || (s.vf vf).disabling then .next s
  else if 64 ≤ sq.held.length then .next (s.emit (.nak sq.qpn 3))
  else
    let sseq := sq.sseq
    let t := s.modVf vf (fun x => { x with sqs := x.sqs.modify q (fun y => { y with sseq := y.sseq + 1 }) })
    match s.judge sq.pid hdr 1 (.host vf q sseq) with
    | .ok l => .next (t.accept sq.pid l)
    | .error st => .next (t.completeHost sq.pid vf q hdr st (refusalCode st hdr) 0 sseq 0 0)

/-! SQLAUNCH (R43 to R45, R394). -/

/-- The sequencer's write of one bit of an element's ST (R43). -/
def State.writeStBit (s : State) (e bit : Nat) (v : Bool) : State :=
  s.modElem e (fun el => { el with st := if v then el.st ||| (1#6 <<< bit) else el.st &&& ~~~(1#6 <<< bit) })

/-- SQLAUNCH: submits a child launch after every earlier commit, its release performed at panel scope; a refusal sets the bit of ST,
acceptance clears it. -/
def execSqlaunch (ex ey bit : BitVec 3) (g : BitVec 2) (va : Dword) (s : State) : Host.Outcome State Fault Refusal :=
  let r := s.seqRegion
  let x := s.region r
  let e := ekOf r (8 * ey.toNat + ex.toNat)
  let refuse (t : State) : State := (t.writeStBit e bit.toNat true).seqStep r 2
  if 6 ≤ bit.toNat then .next (s.seqFault .illegal r x.sqp 0 none)
  else if !x.order.isEmpty || !(s.performed 4 x.cov) then .next s
  else if va.toNat % 128 != 0 then .next (refuse s)
  else match s.readWords r va.toNat 16 with
    | .error (c, a) => .next ((s.seqFault c r x.sqp 0 (some a)).drawn)
    | .ok hdr =>
      match s.pidOf r, s.launchOf r with
      | some pid, some l =>
        match s.judge pid hdr (l.depth + 1) (.child l.lnch r g.toNat) with
        | .error _ => .next (refuse s).drawn
        | .ok child =>
          let s := (s.accept pid { child with cov := (child.cov ++ x.cov).eraseDups }).modLaunch pid l.lnch
            (fun y => { y with children := y.children + 1 })
          let s := s.modRegion r (fun y => { y with joins := y.joins.modify g.toNat (· + 1) })
          .next ((s.writeStBit e bit.toNat false).seqStep r 2).drawn
      | _, _ => .next (refuse s).drawn

/-! Placement (R50). -/

/-- Effective priority (R50). -/
def Launch.effPri (l : Launch) : Nat := min 7 (lhPri l.hdr + l.waited)

/-- Is a launch waiting to be placed, with its dependences met? -/
def Launch.waiting (l : Launch) : Bool := l.rect.isNone && l.deps.isEmpty && !l.abandon

/-- Does one launch stand before another in the scheduler's list: higher effective priority, then acceptance order? -/
def standsBefore (p : Part) (a b : Launch) : Bool :=
  b.effPri < a.effPri || (a.effPri == b.effPri && (p.launches.takeWhile (fun l => l.lnch != b.lnch)).any (fun l => l.lnch == a.lnch))

/-- May the scheduler place a launch now: no launch before it fits, and none before it has waited 2^22 cycles (R50)? -/
def State.isNext (s : State) (pid : Nat) (l : Launch) : Bool :=
  let p := s.part pid
  p.launches.all (fun a => !(a.waiting && standsBefore p a l && (s.fitsNow pid a.hdr || 4 ≤ a.waited)))

/-- The placement order of a region (R38): VDN, quad, region within the quad. -/
def placeKey (r : Nat) : Nat := (rkDie r * 4 + quadOf r) * 4 + (2 * (rkReg r / 4 % 2) + rkReg r % 4 % 2)

/-- The south-west regions of a rectangle's footprint slots, in placement order, with their coordinates. -/
def State.slotCorners (s : State) (hdr : List Dword) (q : Rect) : List (Nat × Nat) :=
  let cs := (List.range (q.h / lhFh hdr)).flatMap (fun j => (List.range (q.w / lhFw hdr)).map (fun i =>
    (q.gx + i * lhFw hdr, q.gy + j * lhFh hdr)))
  sortOn (fun c => match s.rkAt c.1 c.2 with | some r => placeKey r | none => 0) cs

/-- A footprint slot's regions, with their places in the footprint, row by row. -/
def State.slotRegions (s : State) (hdr : List Dword) (c : Nat × Nat) : List (Nat × Nat × Nat) :=
  (List.range (lhFh hdr)).flatMap (fun j => (List.range (lhFw hdr)).filterMap (fun i =>
    (s.rkAt (c.1 + i) (c.2 + j)).map (fun r => (r, i, j))))

/-- The regions of footprint slot n of a launch. -/
def State.launchSlot (s : State) (l : Launch) (n : Nat) : List (Nat × Nat × Nat) :=
  match l.rect with
  | none => []
  | some q => match (s.slotCorners l.hdr q)[n]? with
    | some c => s.slotRegions l.hdr c
    | none => []

/-- LAUNCH_PLACE: the scheduler places a launch on a whole rectangle (R40, R50) (log 15: DEDUCED). -/
def execLaunchPlace (pid lnch : Nat) (rect : Rect) (s : State) : Host.Outcome State Fault Refusal :=
  let p := s.part pid
  match p.launches.find? (fun l => l.lnch == lnch) with
  | none => .next s
  | some l =>
    if !(pState p == 1 || pState p == 2) || !l.waiting || !(s.placeable pid l.hdr rect) || !(s.isNext pid l) then .next s
    else
      let n := slotsIn l.hdr rect
      let s := s.modLaunch pid lnch (fun y => { y with
        rect := some rect, slots := (List.range n).foldl (fun m i => m.set i { item := i }) [] })
      let s := (List.range n).foldl (fun s i => ((s.launchSlot { l with rect := some rect } i)).foldl (fun s x =>
        s.modRegion x.1 (fun y => { y.cleared with
          lnch := lnch, fslot := i, fx := x.2.1, fy := x.2.2, item := i, cov := l.cov, dark := y.dark, fused := y.fused })) s) s
      .next (s.modPart pid (fun y => (y.toState 2).count))

/-- LAUNCH_AGEING: a launch whose dependences are met has waited another 2^20 cycles (R50) (log 13: DEDUCED). -/
def execLaunchAgeing (pid lnch : Nat) (s : State) : Host.Outcome State Fault Refusal :=
  .next (s.modLaunch pid lnch (fun l => if l.waiting then { l with waited := l.waited + 1 } else l))

/-! Passes (R38, R71, R297). -/

/-- A region at the start of a pass: its stream's address from the directory, its counters zero, its elements' ST, ES and D clear. -/
def State.startRegion (s : State) (r : Nat) (cfg entry item : Nat) : State :=
  match s.readWords r (cfg + 8 * entry) 1 with
  | .error (c, va) => s.seqFault c r 0 0 (some va)
  | .ok ws =>
    let s := (List.range 64).foldl (fun s i =>
      s.modElem (ekOf r i) (fun el => { el with st := 0, es := 0, d := [] })) s
    s.modRegion r (fun x => { x with
      seq := .run, base := cfg + (ws.headD 0).toNat, sqp := 0, fromOff := 0, branched := false, sql := [], item := item })

/-- Have all regions of a footprint slot ended their pass? -/
def State.slotEnded (s : State) (l : Launch) (n : Nat) : Bool :=
  (s.launchSlot l n).all (fun x => (s.region x.1).seq == .ended)

/-- How many items a launch has. -/
def Launch.items (l : Launch) : Nat := 2 ^ widPlaceBits (l.word 1)

/-- The slots of a placed launch. -/
def Launch.nslots (l : Launch) : Nat := match l.rect with | some q => slotsIn l.hdr q | none => 0

/-- The item that a footprint slot may start: its first, or the next after one that every region has ended. -/
def State.nextItem (s : State) (l : Launch) (n : Nat) : Option Nat :=
  let f := l.slots.get n
  let i := if f.running then f.item + l.nslots else n
  if i < l.items && n < l.nslots && (!f.running || s.slotEnded l n) then some i else none

/-- PASS_START: a footprint slot begins its next item in every region (R38). -/
def execPassStart (pid lnch fslot : Nat) (s : State) : Host.Outcome State Fault Refusal :=
  match (s.part pid).launches.find? (fun l => l.lnch == lnch) with
  | none => .next s
  | some l =>
    if pState (s.part pid) != 2 || l.fault.isSome then .next s
    else match s.nextItem l fslot with
      | none => .next s
      | some i =>
        let s := s.modLaunch pid lnch (fun y => { y with slots := y.slots.set fslot { item := i, running := true } })
        .next ((s.launchSlot l fslot).foldl (fun s x =>
          (s.startRegion x.1 (l.word 3).toNat (x.2.2 * lhFw l.hdr + x.2.1) i).touch x.1) s).drawn

/-! The end of a launch (R44, R47). -/

/-- The regions of a placed launch. -/
def State.launchRegions (s : State) (l : Launch) : List Nat := match l.rect with | some q => s.rectRegions q | none => []

/-- What a launch's completion releases (R45, R47). -/
def State.launchCov (s : State) (l : Launch) : List Nat :=
  ((s.launchRegions l).flatMap (fun r => (s.region r).cov) ++ l.cov).eraseDups

/-- Is every item of a launch done (R47)? -/
def State.allDone (s : State) (l : Launch) : Bool :=
  l.rect.isSome && l.children == 0 && (List.range l.nslots).all (fun n =>
    let f := l.slots.get n
    if f.running then s.slotEnded l n && l.items ≤ f.item + l.nslots else l.items ≤ n)

/-- A child's end counted at its parent: the group's count, the parent's children, and for DONE what the join acquires (R44, R45)
(log 73: DEDUCED). -/
def State.endChild (s : State) (pid parent rk group : Nat) (cov : List Nat) : State :=
  (s.modLaunch pid parent (fun l => { l with children := l.children - 1 })).modRegion rk (fun x =>
    if x.lnch == parent then { x with joins := x.joins.modify group (· - 1), cov := (x.cov ++ cov).eraseDups } else x)

/-- The increment of a completion word (R47), of a launch of a partition that completes at a die; a word of another panel takes it by
SYNCADD (R264) (log 121: DEDUCED). -/
def State.completionAdd (s : State) (die pid a : Nat) (cov : List Nat) : State :=
  let q : Req := { id := s.nextId, op := .syadd 1, who := .completion die pid, phase := .wait, word := a, cov := cov, ret := { rk := farRegion } }
  let q := if a < 2 ^ 63 then q else { q with phase := .home, gpa := a - 2 ^ 63, size := 16 }
  ({ s with reqs := s.reqs ++ [q] } : State).fresh

/-- A launch taken out of its partition: its regions are free, and with no other resident one the partition is IDLE (R224). -/
def State.removeLaunch (s : State) (pid : Nat) (l : Launch) : State :=
  let s := ((s.launchRegions l).filter (fun r => s.pidOf r == some pid)).foldl (fun s r => s.modRegion r (fun x =>
    { x.cleared with dark := x.dark, fused := x.fused })) s
  s.modPart pid (fun p =>
    let p := { p with launches := p.launches.filter (fun y => y.lnch != l.lnch) }
    (if pState p == 2 && !(p.launches.any (fun y => y.rect.isSome)) then p.toState 1 else p).count)

/-- The end of a launch reported to whoever submitted it (R44, R47, R48). -/
def State.reportEnd (s : State) (pid : Nat) (l : Launch) (status fcode : Nat) (cov : List Nat) : State :=
  match l.origin with
  | .host vf q sseq => s.completeHost pid vf q l.hdr status fcode l.lnch sseq l.commits l.jobs
  | .child parent rk group => s.endChild pid parent rk group cov
  | .steward _ _ => s

/-- LAUNCH_COMPLETE: every item has run, every child has ended, and the release is performed at panel scope (R47). -/
def execLaunchComplete (pid lnch : Nat) (s : State) : Host.Outcome State Fault Refusal :=
  match (s.part pid).launches.find? (fun l => l.lnch == lnch) with
  | none => .next s
  | some l =>
    let cov := s.launchCov l
    if pState (s.part pid) != 2 || !(s.allDone l) || !(s.performed 4 cov) then .next s
    else
      let s := match l.cmp with
        | some a => s.completionAdd (s.homeDie pid) pid a cov
        | none => s
      let s := s.removeLaunch pid l
      .next ((s.reportEnd pid l 0 0 cov).modVf (pVf (s.part pid)) (fun v => { v with completed := v.completed + 1 }))

end Sys2Proof.Machine
end

