-- ==== Sys2Proof/Machine/TileOps.lean ====
section
/-! DEFINITION. The firings that act on bindings: LDB, STB, LDV, STV, RCLM, GATH, SCAT, ATB, BFST, BFSET (R132, R133, R135, R141,
R160, R321, R323, R327, R328, R347, R353, R355, R382, R387, R395, R399). Tile memory answers in the pipeline; a QB or DB answers
from its controller (R314), and what is written to one goes by the posting points (R155). -/

namespace Sys2Proof.Machine

/-- The binding that a firing names, its ring, and where its bytes are. -/
structure BView where
  b : Binding
  ring : Ring
  base : Nat

/-- Binding n of the frame of a slot. -/
def State.view (s : State) (e n k : Nat) : BView :=
  let r := ekRegion e
  let frm := s.slotFrame e n
  let b := s.bnd r frm k
  { b := b, ring := s.ringOf r frm k, base := s.bndBase r b }

/-- The bytes of one sub-buffer. -/
def BView.sub (v : BView) : Nat := v.b.shape.sub

/-- The key of an offset in the sub-buffer at the consumer and at the producer pointer. -/
def BView.consAt (v : BView) (off : Nat) : Nat := v.base + v.ring.cons * v.sub + off
def BView.prodAt (v : BView) (off : Nat) : Nat := v.base + v.ring.prod * v.sub + off

/-- The offset in its sub-buffer of a read, and of a write: the ring's cursor, or the offset that a control operand names. -/
def BView.readOff (v : BView) (x : Operand) : Nat := if v.b.shape.mode == 0 then v.ring.ccur else lanesNat ((rawPk x).lanes.take 1)
def BView.writeOff (v : BView) (x : Operand) : Nat := if v.b.shape.mode == 0 then v.ring.pcur else lanesNat ((rawPk x).lanes.take 1)

/-- Is it tile memory? -/
def BView.tile (v : BView) : Bool := v.b.lvl == 0

/-- A binding's packet format. -/
def BView.hasFmt (v : BView) (p : Packet) : Bool := p.fmt == v.b.shape.fmt && p.fpx == v.b.shape.fpx

/-- What a firing reads at a buffer, from a key: tile memory in the pipeline, a QB or DB at its controller, whose answer follows (R314).
It brings with it what the values' writes released (R158). -/
def State.settle (s : State) (tile : Bool) (a : Nat) (cov : List Nat) (e n : Nat) (o : Slot)
    (x : Except FCode (State → State × Packet)) : Except FCode (State → State) :=
  match x with
  | .ok k =>
    if tile then s.leaving e (entriesOf o.dt o.tt) (fun s => ((k s).1.complete e n o { out := some (k s).2 }).saw e cov)
    else .ok (fun s => (k s).1.request e n o {} false { op := .answer, phase := .resp, res := some (k s).2, cov := cov })
  | .error c => if tile then .error c
    else .ok (fun s => s.request e n o {} false { op := .answer, phase := .resp, err := some c, gpa := s.windowGpa a })

/-- What a firing writes at a buffer: a fault of a QB or DB comes back from its controller (R314). -/
def State.settleWrite (s : State) (tile : Bool) (e n : Nat) (o : Slot) (x : Except FCode (State → State)) :
    Except FCode (State → State) :=
  match x with
  | .ok k => if tile then s.leaving e (entriesOf o.dt o.tt) k else .ok k
  | .error c => if tile then .error c else .ok (fun s => s.request e n o {} false { op := .answer, phase := .resp, err := some c })

/-- Does an older request of an element in the queue of a tile touch n bytes from a key (R157, R142)? A firing that reads or writes
them waits in its place (log 55: DEDUCED). -/
def State.tileBehind (s : State) (e a n : Nat) : Bool :=
  s.tileQ.any (fun t => t.2.any (fun q => q.ret.e == e && q.left.any (fun l =>
    let k := tileKey q.ret.rk (t.1 % 8) (q.offs.getD l 0)
    k < a + n && a < k + q.size)))

/-- Must an access by a binding to n bytes from a key wait: behind the older accesses of its element (R157, R142), or, in a QB or DB, for
a write of another agent that it would not find (R155)? (log 123: DEDUCED) -/
def State.bndWaits (s : State) (v : BView) (e a n : Nat) : Bool :=
  if v.tile then s.tileBehind e a n
  else s.openAt e a n || s.bufHidden (rkDie (ekRegion e)) (some (ekRegion e)) a n

/-- The byte offset of a control operand of 26 bits. -/
def offMask : Nat := 0x3FFFFFF

/-- A sync word met by an access to a QB or DB (R138). -/
def State.hitsMark (s : State) (v : BView) (a n : Nat) : Bool := s.bufMarked v.b a n

/-- The packet of a read: the binding's format, the TAG of source a (R85), all else zero but EOF (R353). -/
def BView.packet (v : BView) (tag : BitVec 7) (ls : List Lane) (eof : BitVec 2) : Packet :=
  { fmt := v.b.shape.fmt, fpx := v.b.shape.fpx, tag := tag, lanes := ls, eof := eof }

/-- n lanes of a binding as an agent of a region reads them: at the tile's bank, or from the posting points and the controller (R155). -/
def State.bndLanes (s : State) (v : BView) (r a n : Nat) : List Lane := if v.tile then memLanes s.mem a n else s.bufLanes r a n

/-- A stream read of n lanes (R132, R135). -/
def State.streamLoad (s : State) (v : BView) (r frm k n : Nat) (tag : BitVec 7) : Except FCode (State → State × Packet) :=
  let x := v.ring
  if x.atCons.mark < x.ccur + 4 * n then .error .bounds
  else if s.hitsMark v (v.consAt x.ccur) (4 * n) then .error .align
  else if s.eccBad (v.consAt x.ccur) (4 * n) then .error .ecc
  else
    let p := v.packet tag (s.bndLanes v r (v.consAt x.ccur) n) (if x.ccur + 4 * n == x.atCons.mark then 1 else 0)
    .ok (fun s' => ((s'.setRing r frm k (x.streamRead v.b.shape.depth n)).modBnd r frm k
      (fun b => { b with ahead := b.ahead - 1 }), p))

/-- A random read of n lanes at an offset (R132, R353). -/
def State.randomLoad (s : State) (v : BView) (r off n : Nat) (tag : BitVec 7) : Except FCode (State → State × Packet) :=
  if notReadable v.ring.atCons.st then .error .bufState
  else if off % 4 != 0 then .error .align
  else if v.ring.atCons.mark < off + 4 * n then .error .bounds
  else if s.hitsMark v (v.consAt off) (4 * n) then .error .align
  else if s.eccBad (v.consAt off) (4 * n) then .error .ecc
  else .ok (fun s' => (s', v.packet tag (s.bndLanes v r (v.consAt off) n) 0))

/-- LDB (R353) (log 53: DEDUCED). -/
def execLdb (o : Slot) (f : Fn) (s : State) : Host.Outcome State Fault Refusal :=
  let e := s.cur.1
  let r := ekRegion e
  let k := fnIm f % 8
  let n := fnIm f / 8 % 8 + 1
  let v := s.view e s.cur.2 k
  let a := v.consAt (v.readOff (s.envOf e s.cur.2 o f).a)
  if (v.b.shape.mode == 0 && notReadable v.ring.atCons.st) || s.bndWaits v e a (4 * n) then .next s
  else fireWith o f (fun s e slot env =>
    let cov := s.readCov r 0 a (4 * n)
    let tag := (hdrOf env.a).tag
    if v.b.shape.mode == 0 then s.settle v.tile a cov e slot o (s.streamLoad v r (s.slotFrame e slot) k n tag)
    else do
      let off ← control offMask env.a
      s.settle v.tile a cov e slot o (s.randomLoad v r off n tag)) s

/-- A packet's lanes written in a producer sub-buffer from an offset; its ring moved on (R132), with the result (R395). What goes to tile
memory is written in the pipeline, and releases what the element's last FNC covered (R158). A write to a QB or DB enters the region's
RWB, where the region's prefetch lines follow (R155, R156), and its result comes from the controller (R314). -/
def State.storeAt (s : State) (v : BView) (e n : Nat) (o : Slot) (k off : Nat) (ls : List Lane) (ring : Ring) (p : Packet) : State :=
  let r := ekRegion e
  let a := v.prodAt off
  let s := s.setRing r (s.slotFrame e n) k ring
  if v.tile then
    ((s.write a (laneBytes ls)).setCov a (4 * ls.length) (s.live (s.elem e).fenced)).complete e n o { out := some p }
  else
    (s.putLines r a (laneBytes ls)).request e n o {} true
      { op := .put, phase := .rwb, gpa := s.windowGpa a, word := a, size := 4 * ls.length, data := laneBytes ls, res := some p }

/-- A stream write (R132, R135). -/
def State.streamStore (s : State) (v : BView) (e n : Nat) (o : Slot) (k : Nat) (ls : List Lane) (hdr : Operand) :
    Except FCode (State → State) :=
  let x := v.ring
  let stop := x.pcur + 4 * ls.length
  if v.sub < stop then .error .bounds
  else if s.hitsMark v (v.prodAt x.pcur) (4 * ls.length) then .error .align
  else .ok (fun s' => s'.storeAt v e n o k x.pcur ls { x.wrote stop with pcur := stop } (word32 hdr stop))

/-- A random write at an offset (R132, R395). -/
def State.randomStore (s : State) (v : BView) (e n : Nat) (o : Slot) (k off : Nat) (ls : List Lane) (hdr : Operand) :
    Except FCode (State → State) :=
  let stop := off + 4 * ls.length
  if notWritable v.ring.atProd.st then .error .bufState
  else if off % 4 != 0 then .error .align
  else if v.sub < stop then .error .bounds
  else if s.hitsMark v (v.prodAt off) (4 * ls.length) then .error .align
  else .ok (fun s' => s'.storeAt v e n o k off ls (v.ring.wrote stop) (word32 hdr stop))

/-- STB (R395) (log 53: DEDUCED). -/
def execStb (o : Slot) (f : Fn) (s : State) : Host.Outcome State Fault Refusal :=
  let e := s.cur.1
  let k := fnIm f % 8
  let v := s.view e s.cur.2 k
  let env := s.envOf e s.cur.2 o f
  let a := v.prodAt (v.writeOff env.b)
  let len := 4 * (rawPk env.a).lanes.length
  if (v.b.shape.mode == 0 && notWritable v.ring.atProd.st) || s.bndWaits v e a len then .next s
  else fireWith o f (fun s e slot env => do
    let a := rawPk env.a
    let b := rawPk env.b
    let data : PkCheck := { pk := a, len := a.lanes.length, fmtOk := v.hasFmt a, scale := false }
    if v.b.shape.mode == 0 then
      pkChecks [data]
      s.settleWrite v.tile e slot o (s.streamStore v e slot o k a.lanes env.a)
    else
      pkChecks [data, ctlCheck b]
      let off ← control offMask env.b
      s.settleWrite v.tile e slot o (s.randomStore v e slot o k off a.lanes env.a)) s

/-! Versioned words. -/

/-- The checks of a versioned access and its request (R355, R382, R399). -/
def versioned (o : Slot) (f : Fn) (withData : Bool) (op : Nat → ReqOp) (covers : Bool) (s : State) :
    Host.Outcome State Fault Refusal :=
  fireWith o f (fun s e n env => do
    let v := s.view e n (fnIm f % 8)
    let a := rawPk env.a
    let b := rawPk env.b
    let p := rawPk (thirdOp env)
    pkChecks ([ctlCheck a, ctlCheck b]
      ++ if withData then [{ pk := p, len := 2, fmtOk := v.hasFmt p }] else [])
    let off ← control offMask env.a
    let ver ← control 0xFF env.b
    if off % 8 != 0 then .error .align
    else if v.b.shape.size < off + 8 then .error .bounds
    else
      let hdr : Packet := { hdrOf env.a with fmt := v.b.shape.fmt, fpx := v.b.shape.fpx, sc := false }
      .ok (fun s' => s'.request e n o hdr covers
        { op := op ver, phase := .wait, word := v.base + off, size := 8, data := if withData then laneBytes p.lanes else [],
          res := some (word32 env.a ver), cov := if covers then s'.live (s'.elem e).cov else [] })) s

/-- LDV (R355). -/
def execLdv (o : Slot) (f : Fn) (s : State) : Host.Outcome State Fault Refusal := versioned o f false .ldv false s

/-- STV (R399). -/
def execStv (o : Slot) (f : Fn) (s : State) : Host.Outcome State Fault Refusal := versioned o f true .stv true s

/-- RCLM (R382). -/
def execRclm (o : Slot) (f : Fn) (s : State) : Host.Outcome State Fault Refusal := versioned o f false .rclm true s

/-! Requests of a tile. -/

/-- A request put in the queue of its tile (R141): the place for its result is kept, and its element's later releases cover it. -/
def State.tileRequest (s : State) (e n : Nat) (o : Slot) (hdr : Packet) (v : BView) (q : TileReq) : State :=
  let id := s.nextId
  let key := 8 * ekRegion e + v.b.idx
  let ret := s.retOf e n o hdr
  let s := s.reserve e o.dt o.tt
  let s := { s with tileQ := s.tileQ.modify key (fun qs => qs ++ [{ q with id := id, ret := ret }]) }
  (s.modElem e (fun el => { el with cov := el.cov ++ [id] })).fresh

/-- A request that its tile refused: the fault comes back as its answer (R314). -/
def State.tileFault (s : State) (e n : Nat) (o : Slot) (c : FCode) : State :=
  s.request e n o {} false { op := .answer, phase := .resp, err := some c }

/-- The offsets of a packet's lanes within the tile, for a sub-buffer. -/
def tileOffs (v : BView) (index : Nat) (offs : List Nat) : List Nat := offs.map (fun a => v.b.shape.base + index * v.sub + a)

/-- GATH (R141, R347). -/
def execGath (o : Slot) (f : Fn) (s : State) : Host.Outcome State Fault Refusal :=
  fireWith o f (fun s e n env => do
    let v := s.view e n (fnIm f % 8)
    let a := rawPk env.a
    pkChecks [{ pk := a, len := a.lanes.length, fmtOk := hasTy .n32 a }]
    let offs := a.lanes.map BitVec.toNat
    if notReadable v.ring.atCons.st then .ok (fun s' => s'.tileFault e n o .bufState)
    else if offs.any (fun x => x % 4 != 0) then .ok (fun s' => s'.tileFault e n o .align)
    else if offs.any (fun x => v.ring.atCons.mark < x + 4) then .ok (fun s' => s'.tileFault e n o .bounds)
    else .ok (fun s' => s'.tileRequest e n o (hdrOf env.a) v
      { kind := 0, offs := tileOffs v v.ring.cons offs, left := List.range offs.length, fmt := v.b.shape.fmt, fpx := v.b.shape.fpx,
        bnd := fnIm f % 8, buf := v.ring.cons, stop := offs.foldl (fun m x => max m (x + 4)) 0 })) s

/-- SCAT (R141, R387) (log 55: DEDUCED). -/
def execScat (o : Slot) (f : Fn) (s : State) : Host.Outcome State Fault Refusal :=
  fireWith o f (fun s e n env => do
    let k := fnIm f % 8
    let v := s.view e n k
    let a := rawPk env.a
    let b := rawPk env.b
    pkChecks [{ pk := a, len := a.lanes.length, fmtOk := hasTy .n32 a }, { pk := b, len := a.lanes.length, fmtOk := v.hasFmt b }]
    let offs := a.lanes.map BitVec.toNat
    let stop := offs.foldl (fun m x => max m (x + 4)) 0
    if notWritable v.ring.atProd.st then .ok (fun s' => s'.tileFault e n o .bufState)
    else if offs.any (fun x => x % 4 != 0) then .ok (fun s' => s'.tileFault e n o .align)
    else if v.sub < stop then .ok (fun s' => s'.tileFault e n o .bounds)
    else .ok (fun s' => (s'.setRing (ekRegion e) (s.slotFrame e n) k (v.ring.wrote stop)).tileRequest e n o (hdrOf env.a) v
      { kind := 1, offs := tileOffs v v.ring.prod offs, data := b.lanes, left := List.range offs.length,
        bnd := k, buf := v.ring.prod, stop := stop })) s

/-- ATB (R321 to R323). -/
def execAtb (o : Slot) (f : Fn) (s : State) : Host.Outcome State Fault Refusal :=
  fireWith o f (fun s e n env => do
    let k := fnIm f % 8
    let v := s.view e n k
    let a := rawPk env.a
    let b := rawPk env.b
    pkChecks (ctlCheck a :: atomChecks (atomSub f) (atomW64 f) b env.p)
    let off := lanesNat a.lanes
    let size := if atomW64 f then 8 else 4
    if off % size != 0 then .ok (fun s' => s'.tileFault e n o .align)
    else if v.sub < off + size then .ok (fun s' => s'.tileFault e n o .bounds)
    else if notWritable v.ring.atProd.st then .ok (fun s' => s'.tileFault e n o .bufState)
    else .ok (fun s' => (s'.setRing (ekRegion e) (s.slotFrame e n) k (v.ring.wrote (off + size))).tileRequest e n o
      { hdrOf env.a with fmt := b.fmt, fpx := b.fpx } v
      { kind := 2, offs := tileOffs v v.ring.prod [off], left := [0], sub := atomSub f, signed := signedFmt b, size := size,
        b := lanesNat b.lanes, p := match env.p with | some q => lanesNat q.lanes | none => 0
        bnd := k, buf := v.ring.prod, stop := off + size })) s

/-! The state of sub-buffers. -/

/-- BFST (R328). -/
def execBfst (o : Slot) (f : Fn) (s : State) : Host.Outcome State Fault Refusal :=
  fireWith o f (fun s e n env =>
    let v := s.view e n (fnIm f % 8)
    let cons := fnIm f / 8 % 2 == 1
    let i := if cons then v.ring.cons else v.ring.prod
    let b := v.ring.sub i
    let mark := if b.st == .full || b.st == .draining then b.mark else 0
    s.settle v.tile 0 [] e n o (.ok (fun s' => (s', words32 env.a [b.st.code + 4 * i, mark])))) s

/-- Does a request in the queue of a tile hold back a change of a sub-buffer's state: one of the same element to the binding (R157), or
one whose lanes are partly done? -/
def State.tilePending (s : State) (e n k : Nat) : Bool :=
  s.tileQ.any (fun t => t.2.any (fun q => q.ret.rk == ekRegion e && q.ret.frm == s.slotFrame e n && q.bnd == k && !q.left.isEmpty
    && (q.ret.e == e || q.left.length != q.offs.length)))

/-- The commit that falls in the cycle of a BFSET after which its block has nothing left to do: it comes before the BFSET (R133)
(log 122: DEDUCED; log 125: DEDUCED). -/
def State.commitFirst (s : State) (r frm : Nat) (o : Slot) : State :=
  let fr := s.frame r frm
  if (s.region r).order.head? == some frm && fr.st == .draining && fr.loops.done && entriesOf o.dt o.tt == [] && dtOut o.dt == none
      && !(s.tokensLeft r frm) then (s.resolve r).commitNow r frm
  else s

/-- BFSET: the change of a sub-buffer's state, at stage W, in a binding of any level (R327): `next` gives the ring after it and the index of
the sub-buffer, or none where the state faults (R132). -/
def bfset (next : Nat → Ring → Option (Ring × Nat)) (o : Slot) (f : Fn) (s : State) : Host.Outcome State Fault Refusal :=
  let k := fnIm f % 8
  if s.tilePending s.cur.1 s.cur.2 k then .next s
  else fireWith o f (fun s e n env =>
    let r := ekRegion e
    let frm := s.slotFrame e n
    let u := (s.trigger e n o o.icn).commitFirst r frm o
    match next (u.bnd r frm k).shape.depth (u.ringOf r frm k) with
    | none => .error .bufState
    | some (x, i) => s.leaving e (entriesOf o.dt o.tt) (fun s' => ((s'.commitFirst r frm o).setRing r frm k x).complete e n o { out := some (word32 env.a i) })) s

/-- FILLING becomes FULL with its fill mark; any other state faults (R132). -/
def Ring.setFull (depth : Nat) (x : Ring) : Option (Ring × Nat) :=
  if x.atProd.st == .filling then some (x.fill depth x.atProd.mark, x.prod) else none

/-- FULL or DRAINING becomes EMPTY; any other state faults (R132). -/
def Ring.setEmpty (depth : Nat) (x : Ring) : Option (Ring × Nat) :=
  if notReadable x.atCons.st then none else some (x.drain depth, x.cons)

/-- BFSET.full (R132, R327) (log 53: DEDUCED). -/
def execBfsetFull (o : Slot) (f : Fn) (s : State) : Host.Outcome State Fault Refusal := bfset Ring.setFull o f s

/-- BFSET.empty (R132, R327) (log 53: DEDUCED). -/
def execBfsetEmpty (o : Slot) (f : Fn) (s : State) : Host.Outcome State Fault Refusal := bfset Ring.setEmpty o f s

/-- STREAM_READ_AHEAD: a stream binding's read port fetches one more packet, of one to eight lanes, once its frame fires, up to 8
and never past the fill mark (R134). It changes no state that the firing reads. -/
def execStreamReadAhead (r frm b : Nat) (s : State) : Host.Outcome State Fault Refusal :=
  let fr := s.frame r frm
  let x := s.bnd r frm b
  let ring := s.ringOf r frm b
  if (fr.st == .firing || fr.st == .draining) && s.moving r && x.shape.size != 0 && x.shape.mode == 0 && x.ahead < 8
      && !(notReadable ring.atCons.st) && ring.ccur + 4 * (x.ahead + 1) ≤ ring.atCons.mark then
    .next (s.modBnd r frm b (fun y => { y with ahead := y.ahead + 1 }))
  else .next s

end Sys2Proof.Machine
end

