-- ==== Sys2Proof/Machine/Copy.lean ====
section
/-! DEFINITION. Copy islands (R174 to R183, R301, R302, R333, R334, R348, R404), exchange queues (R212, R213), tag counters (R136)
and engine jobs (R166). -/

namespace Sys2Proof.Machine

/-! Template records (R176, R301). -/

def Template.word (t : Template) (n : Nat) : Dword := t.words.getD n 0
def Template.bits (t : Template) (n lo w : Nat) : Nat := bitsOf (t.word n) lo w
def Template.store (t : Template) : Bool := (t.word 0).getLsbD 63
def Template.dims (t : Template) : Nat := t.bits 0 60 3
def Template.esz (t : Template) : Nat := 2 ^ t.bits 0 58 2
def Template.nbr (t : Template) : Nat := t.bits 0 55 3 + 1
def Template.tag (t : Template) : Nat := t.bits 0 48 7
def Template.bind (t : Template) : Nat := t.bits 0 45 3
def Template.cred (t : Template) : Nat := t.bits 0 41 4
def Template.tbase (t : Template) : Nat := (t.word 1).toNat
def Template.fill (t : Template) : Nat := t.bits 2 0 32
def Template.sync (t : Template) : Nat := (t.word 3).toNat

/-- The extent of the tensor, the extent of the tile, and the byte step of dimension k. -/
def Template.text (t : Template) (k : Nat) : Nat := t.bits (4 + k / 2) (if k % 2 == 0 then 32 else 0) 32
def Template.tlen (t : Template) (k : Nat) : Nat := (if k < 4 then t.bits 7 (48 - 16 * k) 16 else t.bits 8 48 16) + 1
def Template.step (t : Template) (k : Nat) : Int := if k == 0 then (t.esz : Int) else (t.word (8 + k)).toInt

/-- A branch: DKIND, DGX, DGY, IDX, DOFF. -/
structure Branch where
  kind : Nat
  dgx : Int
  dgy : Int
  idx : Nat
  doff : Nat

def Template.branch (t : Template) (k : Nat) : Branch :=
  { kind := t.bits (13 + k) 62 2, dgx := signedBits (t.bits (13 + k) 59 3) 3, dgy := signedBits (t.bits (13 + k) 56 3) 3,
    idx := t.bits (13 + k) 46 10, doff := t.bits (13 + k) 0 26 }

def Template.branches (t : Template) : List Branch := (List.range t.nbr).map t.branch

/-- Elements, and bytes, of a tile (R178). -/
def Template.count (t : Template) : Nat := (List.range t.dims).foldl (fun a k => a * t.tlen k) 1
def Template.bytes (t : Template) : Nat := t.esz * t.count

/-- The position of a linear index in the tile (R178). -/
def Template.pos (t : Template) (lin : Nat) : List Nat :=
  ((List.range t.dims).foldl (fun (acc : List Nat × Nat) k => (acc.1 ++ [acc.2 % t.tlen k], acc.2 / t.tlen k)) ([], lin)).1

/-- The coordinates of an element of a job: origin plus position. -/
def Template.coord (t : Template) (o : List Int) (lin : Nat) : List Int :=
  (o.zip (t.pos lin)).map (fun x => x.1 + (x.2 : Int))

/-- Is an element inside the tensor (R178)? -/
def Template.inside (t : Template) (c : List Int) : Bool :=
  (List.range t.dims).all (fun k => decide (0 ≤ c.getD k 0) && decide (c.getD k 0 < (t.text k : Int)))

/-- The address of a tensor element (R178), modulo 2^64. -/
def Template.addr (t : Template) (c : List Int) : Nat :=
  (((List.range t.dims).foldl (fun a k => a + c.getD k 0 * t.step k) (t.tbase : Int)) % 2 ^ 64).toNat

/-- The fill element (R176). -/
def Template.fillBytes (t : Template) : List Byte := valBytes t.esz t.fill

/-! Branches and their places. -/

/-- The region that a tile branch names: on the same die and in the same partition (R176). -/
def State.branchRegion (s : State) (r : Nat) (b : Branch) : Option Nat :=
  if b.dgx == 0 && b.dgy == 0 then some r
  else if isStw r then none
  else
    let x := (s.gxOf r : Int) + b.dgx
    let y := (s.gyOf r : Int) + b.dgy
    if x < 0 || y < 0 then none
    else match s.rkAt x.toNat y.toNat with
      | some q => if rkDie q == rkDie r && s.pidOf q == s.pidOf r then some q else none
      | none => none

/-- The descriptor that a QB or DB branch, or a record's space, names from a region. -/
def bufferKey (r kind idx : Nat) : Nat := if kind == 1 then qbKey (rkDie r) (quadOf r) idx else dbKey (rkDie r) idx

/-- The frame and binding that own a TAG in a tile (R136). -/
def State.tagOwner (s : State) (r tile tag : Nat) : Option (Nat × Nat) :=
  ((s.region r).frames.filter (fun x => x.2.st != .free && x.2.st != .committed)).findSome? (fun f =>
    (f.2.bnds.find? (fun b => b.2.lvl == 0 && b.2.idx == tile && (b.2.tag.map (fun t => t.tag)) == some tag)).map
      (fun b => (f.1, b.1)))

/-- The sub-buffer bytes of a branch's destination, where it is known (R176). -/
def State.branchSub (s : State) (r tag : Nat) (b : Branch) : Option Nat :=
  if b.kind == 0 then
    match s.branchRegion r b with
    | none => none
    | some q => (s.tagOwner q b.idx tag).map (fun x => (s.bnd q x.1 x.2).shape.sub)
  else (s.descs.get (bufferKey r b.kind b.idx)).shape.map Shape.sub

/-- A branch meets its limits (R176) (log 66: DEDUCED). -/
def State.branchOk (s : State) (r : Nat) (t : Template) (b : Branch) : Bool :=
  b.doff % 4 == 0
    && (if b.kind == 0 then b.idx < 8 && (s.branchRegion r b).isSome else s.holdsUnit r b.kind && (b.kind == 2 || b.idx < 256))
    && (match s.branchSub r t.tag b with | some n => b.doff + t.bytes ≤ n | none => true)

/-- The limits of R176 that CPARM checks. -/
def State.templateOk (s : State) (r frm : Nat) (t : Template) : Bool :=
  t.tbase % t.esz == 0 && t.bytes % 4 == 0 && t.cred ≤ 8
    && (List.range t.dims).all (fun k => t.text k != 0 && t.step k % (t.esz : Int) == 0 && (t.step k).natAbs < 2 ^ 40)
    && (if t.store then t.nbr == 1 && (s.bnd r frm t.bind).shape.size != 0 && (s.bnd r frm t.bind).shape.mode != 2
        else t.branches.all (s.branchOk r t))

/-! Islands. -/

def State.island (s : State) (d edge : Nat) : Island := (s.die d).islands.get edge
def State.modIsland (s : State) (d edge : Nat) (f : Island → Island) : State :=
  s.modDie d (fun x => { x with islands := x.islands.modify edge f })

/-- The template in a slot when a frame holds it. -/
def Island.held (i : Island) (slot rk frm : Nat) : Option Template :=
  match i.tpls.get slot with
  | some t => if t.rk == rk && t.frm == frm && t.closing.isNone then some t else none
  | none => none

/-- A template with a number, and its slot. -/
def Island.byId (i : Island) (id : Nat) : Option (Nat × Template) :=
  i.tpls.findSome? (fun x => match x.2 with | some t => if t.id == id then some (x.1, t) else none | none => none)

/-- The island's answer to a firing (R314, R333). -/
def State.islandAnswer (s : State) (e n : Nat) (o : Slot) (a : Operand) (v : Nat) : State :=
  s.request e n o {} false { op := .answer, phase := .resp, res := some (word32 a v) }

/-- An answer for which the places are already kept. -/
def State.postAnswer (s : State) (t : Ret) (p : Packet) : State :=
  ({ s with reqs := s.reqs ++ [{ id := s.nextId, op := .answer, ret := t, phase := .resp, res := some p }] } : State).fresh

/-- The edge, and the low six bits, of the FN of a copy instruction. -/
def cpEdge (f : Fn) : Nat := fnIm f / 64 % 4
def cpLow (f : Fn) : Nat := fnIm f % 64

/-- CPARM (R175, R176, R333) (log 64: DEDUCED). -/
def execCparm (o : Slot) (f : Fn) (s : State) : Host.Outcome State Fault Refusal :=
  fireWith o f (fun s e n env => do
    let slot ← control 63 env.a
    let r := ekRegion e
    let frm := s.slotFrame e n
    let t : Template := { id := s.nextId + 1, rk := r, frm := frm, e := e, slot := n, pid := (s.pidOf r).getD 255,
                          lnch := (s.region r).lnch, words := (s.frame r frm).data.get (64 + cpLow f) }
    if ((s.island (rkDie r) (cpEdge f)).tpls.get slot).isSome || !(s.templateOk r frm t) then
      .ok (fun s' => s'.tileFault e n o .bounds)
    else .ok (fun s' => (s'.modIsland (rkDie r) (cpEdge f) (fun i =>
      { i with tpls := i.tpls.set slot (some { t with credits := t.cred }) })).islandAnswer e n o env.a slot)) s

/-- Is nothing of a template outstanding: no job, no token that waits for it? -/
def State.templateIdle (s : State) (d edge id : Nat) : Bool :=
  s.jobs.all (fun j => j.tpl.id != id) && (s.island d edge).queues.all (fun q => q.2.q.all (fun t => t.tpl != id))

/-- The templates of an island that CPDIS closes and that have nothing outstanding: their slots are free and CPDIS has its result
(R333). -/
def State.closeTemplates (s : State) (d edge : Nat) : State :=
  (s.island d edge).tpls.foldl (fun s x =>
    match x.2 with
    | some t =>
      match t.closing with
      | some ret => if s.templateIdle d edge t.id then
          (s.modIsland d edge (fun i => { i with tpls := i.tpls.set x.1 none })).postAnswer ret
            (resPk (.pkt ret.hdr) .n32 [BitVec.ofNat 32 t.jobs])
        else s
      | none => s
    | none => s) s

/-- CPDIS (R175, R333). -/
def execCpdis (o : Slot) (f : Fn) (s : State) : Host.Outcome State Fault Refusal :=
  fireWith o f (fun s e n env =>
    let r := ekRegion e
    let d := rkDie r
    match (s.island d (cpEdge f)).held (cpLow f) r (s.slotFrame e n) with
    | none => .ok (fun s' => s'.tileFault e n o .bounds)
    | some t => .ok (fun s' =>
        let ret := s'.retOf e n o (hdrOf env.a)
        ((s'.reserve e o.dt o.tt).modIsland d (cpEdge f) (fun i => { i with
          tpls := i.tpls.modify (cpLow f) (fun x => x.map (fun y => { y with closing := some ret }))
          queues := i.queues.map (fun q => (q.1, if q.2.tpl == t.id then { q.2 with tpl := 0, permit := false } else q.2)) })).closeTemplates
            d (cpEdge f))) s

/-- CPQ (R175, R333, R334) (log 64: DEDUCED). -/
def execCpq (o : Slot) (f : Fn) (s : State) : Host.Outcome State Fault Refusal :=
  fireWith o f (fun s e n env => do
    let slot ← control 63 env.a
    let r := ekRegion e
    let frm := s.slotFrame e n
    let isl := s.island (rkDie r) (cpEdge f)
    let q := isl.queues.get (fnIm f % 16)
    let permit := fnIm f / 32 % 2 == 1
    match isl.held slot r frm with
    | none => .ok (fun s' => s'.tileFault e n o .bounds)
    | some t =>
      if (q.tpl != 0 && !(q.rk == r && q.frm == frm)) || (permit && t.cred == 0) then .ok (fun s' => s'.tileFault e n o .bounds)
      else .ok (fun s' => (s'.modIsland (rkDie r) (cpEdge f) (fun i => { i with
        queues := i.queues.modify (fnIm f % 16) (fun x => { x with tpl := t.id, permit := permit, rk := r, frm := frm }) })).islandAnswer
          e n o env.a (fnIm f % 16))) s

/-- JCARD (R348). -/
def execJcard (o : Slot) (f : Fn) (s : State) : Host.Outcome State Fault Refusal :=
  fireWith o f (fun s e n env => do
    let slot ← control 63 env.a
    let r := ekRegion e
    let frm := s.slotFrame e n
    match (s.island (rkDie r) (cpEdge f)).held slot r frm with
    | none => .ok (fun s' => s'.tileFault e n o .bounds)
    | some _ => .ok (fun s' => (s'.modIsland (rkDie r) (cpEdge f) (fun i => { i with
        tpls := i.tpls.modify slot (fun x => x.map (fun y => { y with card := some ((s.frame r frm).data.get (128 + cpLow f)) })) })).islandAnswer
          e n o env.a slot)) s

/-! Acceptance of jobs (R166, R177). -/

/-- The origin of a FIRE token, after the checks of R177. -/
def originOf (p : Packet) (dims : Nat) : Except FCode (List Int) :=
  if p.lanes.length < dims then .error .pkLen
  else if !(hasTy .s32 p || hasTy .n32 p) then .error .fmt
  else if p.kind != 0 then .error .fmt
  else .ok ((p.lanes.take dims).map BitVec.toInt)

/-- A job numbered and queued (log 64: DEDUCED). -/
def State.acceptJob (s : State) (j : Job) : State := ({ s with jobs := s.jobs ++ [{ j with id := s.nextId }] } : State).fresh

/-- CPFIRE (R177, R333); its source is unscaled (R87) (log 64: DEDUCED). -/
def execCpfire (o : Slot) (f : Fn) (s : State) : Host.Outcome State Fault Refusal :=
  fireWith o f (fun s e n env =>
    let r := ekRegion e
    let d := rkDie r
    let a := rawPk env.a
    if !ownLenOk a then .error .pkLen
    else match (s.island d (cpEdge f)).held (cpLow f) r (s.slotFrame e n) with
    | none => if a.sc then .error .scaleTag else .ok (fun s' => s'.tileFault e n o .bounds)
    | some t =>
      match originOf a t.dims with
      | .error c => .ok (fun s' => s'.tileFault e n o c)
      | .ok org => if a.sc then .error .scaleTag else .ok (fun s' => (s'.reserve e o.dt o.tt).acceptJob
          { die := d, edge := cpEdge f, tslot := cpLow f, tpl := t, origin := org, ret := some (s'.retOf e n o (hdrOf env.a)),
            cov := s'.live (s'.elem e).cov })) s

/-- TMOV (R182, R404) (log 64: DEDUCED). -/
def execTmov (o : Slot) (f : Fn) (s : State) : Host.Outcome State Fault Refusal :=
  fireWith o f (fun _ e n _ => .ok (fun s' =>
    (s'.reserve e o.dt o.tt).acceptJob
      { die := ekDie e, edge := cpEdge f, ret := some (s'.retOf e n o {}), tmov := some (fnIm f / 8 % 8, fnIm f % 8),
        cov := s'.live (s'.elem e).cov })) s

/-- The head of a queue of an island. -/
def State.queueHead (s : State) (d edge q : Nat) : Option QTok := ((s.island d edge).queues.get q).q.head?

/-- A queue without its head. -/
def State.dropToken (s : State) (d edge q : Nat) : State :=
  s.modIsland d edge (fun i => { i with queues := i.queues.modify q (fun x => { x with q := x.q.drop 1 }) })

/-- A fault of a queue's token at the island: against its template (R177, R181) (log 62: DEDUCED). -/
def State.tokenFault (s : State) (c : FCode) (t : Template) (edge slot q : Nat) : State :=
  s.raiseAt c t.rk (s.jobRecord c t.rk t.frm t.e t.slot edge slot (some q) none)

/-- A token whose template has gone: as one that reaches an unbound queue (R175) (log 64: DEDUCED). -/
def State.orphan (s : State) (k : QTok) : State :=
  match k.f.src with
  | some (e, _) => s.raiseSlot .bounds e k.f.slot
  | none => s

/-- A token taken from a queue, with its template (R177). -/
def State.takeToken (s : State) (d edge q : Nat) (permit : Bool) (g : State → QTok → Nat → Template → State) :
    Host.Outcome State Fault Refusal :=
  match s.queueHead d edge q with
  | none => .next s
  | some k =>
    if k.permit != permit then .next s
    else match (s.island d edge).byId k.tpl with
      | none => if s.moving k.f.rk then .next ((s.dropToken d edge q).orphan k) else .next s
      | some (slot, t) =>
        if !(s.moving t.rk) then .next s
        else .next (((g (s.dropToken d edge q) k slot t).closeTemplates d edge).touch t.rk)

/-- COPY_FIRE_TOKEN: the token at the head of a FIRE queue is accepted and forms a job (R177). -/
def execCopyFireToken (die edge q : Nat) (s : State) : Host.Outcome State Fault Refusal :=
  s.takeToken die edge q false (fun s k slot t =>
    match originOf k.f.pkt t.dims with
    | .error c => s.tokenFault c t edge slot q
    | .ok org => s.acceptJob { die := die, edge := edge, tslot := slot, tpl := t, origin := org, ql := some q, cov := k.f.pkt.cov })

/-- COPY_PERMIT_TOKEN: a permit at the head of a PERMIT queue adds a credit (R177). -/
def execCopyPermitToken (die edge q : Nat) (s : State) : Host.Outcome State Fault Refusal :=
  s.takeToken die edge q true (fun s k slot t =>
    if k.f.pkt.kind != 3 then s.tokenFault .fmt t edge slot q
    else if t.cred ≤ t.credits then s.tokenFault .bounds t edge slot q
    else s.modIsland die edge (fun i => { i with tpls := i.tpls.set slot (some { t with credits := t.credits + 1 }) }))

/-! Footprints (R166, R180, R302). -/

/-- A footprint: the address space, the place in it (a partition's addresses, a tile, a descriptor), its range, its direction. -/
structure Foot where
  space : Nat
  idx : Nat
  lo : Nat
  hi : Nat
  wr : Bool

/-- An edge of R166 between two footprints. -/
def footsClash (a b : Foot) : Bool :=
  a.space == b.space && a.idx == b.idx && a.lo < b.hi && b.lo < a.hi && (a.wr || b.wr)

/-- The place of a binding in footprints: the space, the place, and the offset of its first byte there. -/
def bindPlace (r : Nat) (b : Binding) : Nat × Nat × Nat :=
  match descKeyOf r b with
  | some k => (2, k, 0)
  | none => (1, 8 * r + b.idx, b.shape.base)

/-- The footprint of a whole binding (R180). -/
def bindFoot (r : Nat) (b : Binding) (wr : Bool) : Foot :=
  let p := bindPlace r b
  { space := p.1, idx := p.2.1, lo := p.2.2, hi := p.2.2 + b.shape.size, wr := wr }

/-- The footprint of a branch (R180): the whole tile, or the whole range of the descriptor. -/
def State.branchFoot (s : State) (r : Nat) (b : Branch) : Foot :=
  if b.kind == 0 then { space := 1, idx := 8 * ((s.branchRegion r b).getD r) + b.idx, lo := 0, hi := 2 ^ 17, wr := true }
  else { space := 2, idx := bufferKey r b.kind b.idx, lo := 0, hi := 2 ^ 26, wr := true }

/-- The bounding box of a job's in-tensor elements (R180); none for a tile wholly outside. -/
def Job.box (j : Job) : Option (Nat × Nat) :=
  let t := j.tpl
  let ends := (List.range t.dims).map (fun k =>
    (max 0 (j.origin.getD k 0), min (j.origin.getD k 0 + (t.tlen k : Int)) (t.text k : Int) - 1))
  if ends.any (fun x => x.2 < x.1) then none
  else
    let corner (f : Int → Int → Int) : Int :=
      (List.range t.dims).foldl (fun a k =>
        a + f ((ends.getD k (0, 0)).1 * t.step k) ((ends.getD k (0, 0)).2 * t.step k)) (t.tbase : Int)
    some ((corner min).toNat, (corner max).toNat + t.esz)

/-- The footprints of a job card (R302) (log 65: DEDUCED). -/
def cardFeet (r : Nat) (pid : Nat) (ws : List Dword) : List Foot :=
  (List.range 4).filterMap (fun f =>
    let w := ws.getD (2 * f + 1) 0
    let base := (ws.getD (2 * f) 0).toNat
    let space := bitsOf w 60 2
    if w.getLsbD 63 then
      some { space := min space 2, lo := base, hi := base + bitsOf w 0 41, wr := w.getLsbD 62,
             idx := if space == 0 then pid else if space == 1 then 8 * r + bitsOf w 50 10 else bufferKey r (space - 1) (bitsOf w 50 10) }
    else none)

/-- The footprints of a job. -/
def State.feet (s : State) (j : Job) : List Foot :=
  match j.tmov, j.ret with
  | some (a, b), some t => [bindFoot t.rk (s.bnd t.rk t.frm a) false, bindFoot t.rk (s.bnd t.rk t.frm b) true]
  | _, _ =>
    match j.tpl.card with
    | some ws => cardFeet j.tpl.rk j.tpl.pid ws
    | none =>
      (match j.box with
       | some (lo, hi) => [{ space := 0, idx := j.tpl.pid, lo := lo, hi := hi, wr := j.tpl.store }]
       | none => [])
      ++ (if j.tpl.store then [bindFoot j.tpl.rk (s.bnd j.tpl.rk j.tpl.frm j.tpl.bind) false]
          else j.tpl.branches.map (s.branchFoot j.tpl.rk))

/-- Is an access of a job inside its card (R166)? Derived footprints cover every access (log 65: DEDUCED). -/
def Job.allows (j : Job) (space idx lo n : Nat) (wr : Bool) : Bool :=
  match j.tpl.card with
  | none => true
  | some ws => (cardFeet j.tpl.rk j.tpl.pid ws).any (fun f => f.space == space && f.idx == idx && f.lo ≤ lo && lo + n ≤ f.hi && f.wr == wr)

/-! Jobs. -/

def State.jobAt (s : State) (i : Nat) : Option Job := s.jobs.find? (fun j => j.id == i)
def State.setJob (s : State) (j : Job) : State := { s with jobs := s.jobs.map (fun x => if x.id == j.id then j else x) }

/-- The region for which a job runs. -/
def Job.region (j : Job) : Nat := match j.tmov, j.ret with | some _, some t => t.rk | _, _ => j.tpl.rk

/-- A job taken away, with its words on their way. -/
def State.dropJob (s : State) (j : Job) : State :=
  { s with jobs := s.jobs.filter (fun x => x.id != j.id), words := s.words.filter (fun w => w.job != j.id) }

/-- DETAIL of a job's record: the GPA of the word that an uncorrectable error met (R242). -/
def State.jobDetail (s : State) (r : Nat) (c : FCode) (va : Option Nat) : Nat :=
  match c, va with
  | .ecc, some a => match s.stage1 r (s.who r) a {} with | .ok (g, _) => g | .error _ => 0
  | _, _ => 0

/-- A fault of a job with a DETAIL (R181): it stops; the fault is raised against the firing that formed it (R333), else against its
template. -/
def State.jobStop (s : State) (j : Job) (c : FCode) (va : Option Nat) (detail : Nat) : State :=
  let s := s.dropJob j
  let quit (x : XQueue) : XQueue := { x with waiting := x.waiting.filter (fun w => w.2 != j.id) }
  let s : State := { s with descs := s.descs.map (fun d : Nat × Desc => (d.1, { d.2 with xq := d.2.xq.map quit })) }
  let s := s.closeTemplates j.die j.edge
  match j.ret with
  | some t =>
    let x := s.jobRecord c t.rk t.frm t.e t.slot j.edge j.tslot none va
    (s.release t).raiseElem c t.e { x with src := 0, place := { x.place with eng := 0 }, detail := detail }
  | none => s.raiseAt c j.tpl.rk { s.jobRecord c j.tpl.rk j.tpl.frm j.tpl.e j.tpl.slot j.edge j.tslot j.ql va with detail := detail }

/-- A fault of a job, with the address it met (log 63: DEDUCED). -/
def State.jobFault (s : State) (j : Job) (c : FCode) (va : Option Nat) : State :=
  s.jobStop j c va (s.jobDetail (match j.ret with | some t => t.rk | none => j.tpl.rk) c va)

/-- The jobs accepted on a job's die before it. -/
def State.olderJobs (s : State) (j : Job) : List Job := (s.jobs.takeWhile (fun x => x.id != j.id)).filter (fun x => x.die == j.die)

/-- Is a region's VF in service (R181)? -/
def State.served (s : State) (r : Nat) : Bool :=
  match s.who r with
  | none => true
  | some pid => s.vfOn (pVf (s.part pid)) && !(s.vf (pVf (s.part pid))).disabling

/-- ENGINE_JOB_START: an accepted job starts after the older jobs of its template and those whose footprints meet its own, with a
credit where its template is gated (R166, R177, R180) (log 64: DEDUCED). -/
def execEngineJobStart (i : Nat) (s : State) : Host.Outcome State Fault Refusal :=
  match s.jobAt i with
  | none => .next s
  | some j =>
    let isl := s.island j.die j.edge
    let gated := j.tmov.isNone && j.tpl.cred != 0
    let credits := match isl.byId j.tpl.id with | some (_, t) => t.credits | none => 0
    let older := s.olderJobs j
    if j.started || !(s.moving j.region) || !(s.served j.region)
        || older.any (fun x => x.tmov.isNone && j.tmov.isNone && x.tpl.id == j.tpl.id)
        || older.any (fun x => (s.feet x).any (fun a => (s.feet j).any (footsClash a)))
        || (gated && credits == 0) then .next s
    else
      let s := s.setJob { j with started := true }
      let s := if gated then s.modIsland j.die j.edge (fun x => { x with
          tpls := x.tpls.map (fun t => (t.1, t.2.map (fun y => if y.id == j.tpl.id then { y with credits := y.credits - 1 } else y))) })
        else s
      .next (s.touch j.region)

/-! The units of a job (R178). -/

/-- The bytes of a unit, and the units of a tile. -/
def Template.unitBytes (t : Template) : Nat := max 4 t.esz
def Template.units (t : Template) : Nat := t.bytes / t.unitBytes

/-- Does a posted write of a die still wait at the die's egress queue for any of n bytes (R155)? (log 65: DEDUCED) -/
def State.deqHas (s : State) (r g a n : Nat) : Bool :=
  if 2 ^ 63 ≤ a then (s.farWrites r true).any (fun x => rangesMeet x.2 x.1.size g n) else s.nearPosted (rkDie r) none a n

/-- One tensor element read (R178, R166, R138): its bytes, or the GPA of another panel from which they have not come. -/
def State.readElement (s : State) (j : Job) (va : Nat) : Except FCode (List Byte ⊕ Nat) :=
  let n := j.tpl.esz
  if !(j.allows 0 j.tpl.pid va n false) then .error .bounds
  else do
    let (g, a) ← s.access j.tpl.rk va n needRead
    if 2 ^ 63 ≤ a then
      match j.got.find? (fun x => x.1 == g) with
      | some x => .ok (.inl (x.2.take n))
      | none => .ok (.inr g)
    else if s.marked a n then .error .align
    else .ok (.inl (s.nearBytes (rkDie j.tpl.rk) none a n))

/-- The bytes of one unit of a load, element by element, with the GPAs still to come; or the fault and its address. -/
def State.loadUnit (s : State) (j : Job) : Except (FCode × Nat) (List Byte × List Nat) :=
  let t := j.tpl
  let m := t.unitBytes / t.esz
  (List.range m).foldl (fun acc k =>
    match acc with
    | .error x => .error x
    | .ok (bs, gs) =>
      let c := t.coord j.origin (j.unit * m + k)
      if t.inside c then
        match s.readElement j (t.addr c) with
        | .error x => .error (x, t.addr c)
        | .ok (.inl v) => .ok (bs ++ v, gs)
        | .ok (.inr g) => .ok (bs, gs ++ [g])
      else .ok (bs ++ t.fillBytes, gs)) (.ok ([], []))

/-- The elements of a load that are on other panels are asked for over TRLS (R264, R265) (log 59: DESIGN CHOICE). -/
def State.askFar (s : State) (j : Job) (gs : List Nat) : State :=
  let vf := pVf (s.part j.tpl.pid)
  let new := gs.filter (fun g => !(j.asked.contains g) && !(s.streamFull (gpaPanel g) (trlsStream g)))
  (new.foldl (fun s g => s.trlsSend 0 g (reqPayload (jobTag j.id) j.tpl.esz vf 0 0 0 [])) s).setJob { j with asked := j.asked ++ new }

/-- What a buffer branch does with a unit: 0 write, 1 wait, or a fault (R132, R138, R176, R179) (log 66: DEDUCED). -/
def State.branchState (s : State) (j : Job) (b : Branch) : Except FCode Bool :=
  let t := j.tpl
  if b.kind == 0 then .ok true
  else
    let k := bufferKey t.rk b.kind b.idx
    let d := s.descs.get k
    match d.shape with
    | none => .error .bounds
    | some h =>
      let off := b.doff + j.unit * t.unitBytes
      if d.pid != t.pid || h.sub < b.doff + t.bytes then .error .bounds
      else if !(j.allows 2 k (d.ring.prod * h.sub + off) t.unitBytes true) then .error .bounds
      else if h.mode != 2 && notWritable d.ring.atProd.st then (if h.mode == 0 then .ok false else .error .bufState)
      else if s.marked (s.descBase k h + d.ring.prod * h.sub + off) t.unitBytes then .error .align
      else .ok (!(s.bufBlocked j.die (s.descBase k h + d.ring.prod * h.sub + off) t.unitBytes))

/-- A unit written to one branch: words on their way to a tile, or a write in a descriptor's producer sub-buffer (log 66: DEDUCED). -/
def State.writeBranch (s : State) (j : Job) (bs : List Byte) (b : Branch) : State :=
  let t := j.tpl
  let off := b.doff + j.unit * t.unitBytes
  if b.kind == 0 then
    { s with words := s.words ++ (List.range (t.unitBytes / 4)).map (fun k =>
        { job := j.id, rk := (s.branchRegion t.rk b).getD t.rk, tile := b.idx, tag := t.tag, off := off + 4 * k,
          val := BitVec.ofNat 32 (bytesVal ((bs.drop (4 * k)).take 4)) }) }
  else
    let k := bufferKey t.rk b.kind b.idx
    match (s.descs.get k).shape with
    | none => s
    | some h =>
      let x := (s.descs.get k).ring
      let s := s.putHome (s.descBase k h + x.prod * h.sub + off) bs
      if h.mode == 2 then s
      else { s with descs := s.descs.modify k (fun d => { d with ring := x.wrote (off + t.unitBytes) }) }

/-- One unit of a load. -/
def State.loadStep (s : State) (j : Job) : State :=
  let bad := j.tpl.branches.findSome? (fun b => match s.branchState j b with | .error c => some c | .ok _ => none)
  match bad with
  | some c => s.jobFault j c none
  | none =>
    if j.tpl.branches.any (fun b => match s.branchState j b with | .ok w => !w | .error _ => false) then s
    else match s.loadUnit j with
      | .error (c, va) => s.jobFault j c (some va)
      | .ok (bs, []) =>
        (j.tpl.branches.foldl (fun s b => s.writeBranch j bs b) s).setJob { j with unit := j.unit + 1, asked := [], got := [] }
      | .ok (_, gs) => s.askFar j gs

/-- Bytes of a binding as an engine of a die reads them: at the tile's bank, or from the die's egress queue and the controller
(R155) (log 21: DESIGN CHOICE; log 65: DEDUCED). -/
def State.engineBytes (s : State) (v : BView) (die a n : Nat) : List Byte :=
  if v.tile then memBytes s.mem a n else s.nearBytes die none a n

/-- The bytes of a store's source from an offset. -/
def State.sourceBytes (s : State) (v : BView) (die off n : Nat) : List Byte := s.engineBytes v die (v.consAt off) n

/-- The view of a job's source binding. -/
def State.jobView (s : State) (j : Job) : BView :=
  let b := s.bnd j.tpl.rk j.tpl.frm j.tpl.bind
  { b := b, ring := s.ringOf j.tpl.rk j.tpl.frm j.tpl.bind, base := s.bndBase j.tpl.rk b }

/-- The exchange queue whose descriptor's range holds a key (R212). -/
def State.xqAt (s : State) (a : Nat) : Option Nat :=
  (s.descs.find? (fun d => d.2.xq.isSome && (match d.2.shape with
    | some h => s.descBase d.1 h ≤ a && a < s.descBase d.1 h + h.size
    | none => false))).map (fun d => d.1)

/-- The first in-tensor element of a job. -/
def Job.firstInside (j : Job) : Option Nat :=
  ((List.range j.tpl.count).find? (fun i => j.tpl.inside (j.tpl.coord j.origin i))).map (fun i => j.tpl.addr (j.tpl.coord j.origin i))

/-- The exchange queue that a store job's message goes to (R212). -/
def State.jobQueue (s : State) (j : Job) : Option Nat :=
  match j.firstInside with
  | none => none
  | some va => match s.access j.tpl.rk va j.tpl.esz needWrite with
    | .ok (_, a) => s.xqAt a
    | .error _ => none

/-- One tensor element written. -/
def State.writeElement (s : State) (j : Job) (va : Nat) (bs : List Byte) : Except FCode (Option (State × List (Nat × Nat))) :=
  let n := j.tpl.esz
  if !(j.allows 0 j.tpl.pid va n true) then .error .bounds
  else do
    let (g, a) ← s.access j.tpl.rk va n needWrite
    if a < 2 ^ 63 && s.marked a n then .error .align
    else if s.deqHas j.tpl.rk g a n || (2 ^ 63 ≤ a && s.streamFull (gpaPanel g) (trlsStream g)) then .ok none
    else .ok (some (s.putAny (pVf (s.part j.tpl.pid)) (jobTag j.id) g a bs, if 2 ^ 63 ≤ a then [(g, va)] else []))

/-- The elements of one unit of a store written in order; none while one must wait. -/
def State.storeUnit (s : State) (j : Job) (bs : List Byte) : Except (FCode × Nat) (Option (State × List (Nat × Nat))) :=
  let t := j.tpl
  let m := t.unitBytes / t.esz
  (List.range m).foldl (fun acc k =>
    match acc with
    | .ok (some (s, far)) =>
      let c := t.coord j.origin (j.unit * m + k)
      if t.inside c then
        match s.writeElement j (t.addr c) ((bs.drop (k * t.esz)).take t.esz) with
        | .error x => .error (x, t.addr c)
        | .ok none => .ok none
        | .ok (some (s', f)) => .ok (some (s', far ++ f))
      else .ok (some (s, far))
    | x => x) (.ok (some (s, [])))

/-- One unit of a store, or the whole tile as a message to an exchange queue. -/
def State.storeStep (s : State) (j : Job) : State :=
  let v := s.jobView j
  let t := j.tpl
  let p := bindPlace t.rk v.b
  if notReadable v.ring.atCons.st || s.bufHidden j.die none (v.consAt 0) t.bytes then s
  else if v.ring.atCons.mark < t.bytes then s.jobFault j .bounds none
  else if !(j.allows p.1 p.2.1 (p.2.2 + v.ring.cons * v.sub + j.unit * t.unitBytes) t.unitBytes false) then s.jobFault j .bounds none
  else if s.bufMarked v.b (v.consAt (j.unit * t.unitBytes)) t.unitBytes then s.jobFault j .align none
  else if s.eccBad (v.consAt (j.unit * t.unitBytes)) t.unitBytes then 
    s.jobStop j .ecc none (s.eccGpa (v.consAt (j.unit * t.unitBytes)) t.unitBytes)
  else match (if j.unit == 0 then s.jobQueue j else none) with
    | some k =>
      if !(j.allows p.1 p.2.1 (p.2.2 + v.ring.cons * v.sub) t.bytes false)
          || !(j.firstInside.all (fun va => j.allows 0 t.pid va t.esz true)) then s.jobFault j .bounds none
      else s.setJob { j with
        xq := k + 1, unit := t.units,
        msg := (List.range (t.bytes / 4)).map (fun i => BitVec.ofNat 32 (bytesVal (s.sourceBytes v j.die (4 * i) 4))) }
    | none =>
      match s.storeUnit j (s.sourceBytes v j.die (j.unit * t.unitBytes) t.unitBytes) with
      | .error (c, va) => s.jobFault j c (some va)
      | .ok none => s
      | .ok (some (s', far)) => s'.setJob { j with unit := j.unit + 1, far := j.far || !far.isEmpty, sent := j.sent ++ far }

/-- A TMOV's sub-buffer moved (R182). -/
def State.moveStep (s : State) (j : Job) (src dst : Nat) (t : Ret) : State :=
  let one (k : Nat) : BView := { b := s.bnd t.rk t.frm k, ring := s.ringOf t.rk t.frm k, base := s.bndBase t.rk (s.bnd t.rk t.frm k) }
  let a := one src
  let b := one dst
  let n := a.ring.atCons.mark
  if notReadable a.ring.atCons.st || b.ring.atProd.st != .empty || s.bufHidden j.die none (a.consAt 0) n || s.bufBlocked j.die (b.prodAt 0) n then s
  else if b.sub < n then s.jobFault j .bounds none
  else if s.bufMarked a.b (a.consAt 0) n || s.bufMarked b.b (b.prodAt 0) n then s.jobFault j .align none
  else if s.eccBad (a.consAt 0) n then s.jobStop j .ecc none (s.eccGpa (a.consAt 0) n)
  else
    let s := s.putHome (b.prodAt 0) (s.engineBytes a j.die (a.consAt 0) n)
    let s := s.setRing t.rk t.frm src (a.ring.drain a.b.shape.depth)
    let ring := s.ringOf t.rk t.frm dst
    (s.setRing t.rk t.frm dst (ring.fill b.b.shape.depth n)).setJob { j with unit := n, done := true }

/-- Has a job moved everything? -/
def Job.moved (j : Job) : Bool := if j.tmov.isSome then j.done else j.unit == j.tpl.units && (j.xq == 0 || j.done)

/-- The address of a job's access to a GPA of another panel (R181, R242). -/
def State.jobVa (s : State) (j : Job) (g : Nat) : Option Nat :=
  match j.sent.find? (fun x => x.1 == g) with
  | some x => some x.2
  | none =>
    let t := j.tpl
    ((List.range (t.unitBytes / t.esz)).map (fun k => t.addr (t.coord j.origin (j.unit * (t.unitBytes / t.esz) + k)))).find? (fun va =>
      match s.stage1 t.rk (s.who t.rk) va needRead with
      | .ok (x, _) => x == g
      | .error _ => false)

/-- The fault that a job still has to raise, from an access to another panel whose answer came while its partition was SAVED (R173,
R181). -/
def State.jobLate (s : State) (j : Job) : Option State := j.late.map (fun x => s.jobFault j x.1 (s.jobVa j x.2))

/-- A job's next unit, or its late fault (R178, R182). -/
def State.jobStep (s : State) (j : Job) : State :=
  match s.jobLate j with
  | some t => t
  | none =>
    match j.tmov, j.ret with
    | some (a, b), some ret => s.moveStep j a b ret
    | _, _ => if j.tpl.store then s.storeStep j else s.loadStep j

/-- COPY_JOB: a started job does its next unit (R178, R182) (log 63: DEDUCED). -/
def execCopyJob (i : Nat) (s : State) : Host.Outcome State Fault Refusal :=
  match s.jobAt i with
  | none => .next s
  | some j =>
    if !j.started || j.moved || !(s.moving j.region) || (j.tmov.isNone && j.unit == j.tpl.units) then .next s
    else .next ((s.jobStep j).drawn.touch j.region)

/-! Tag counters (R136). -/

/-- The token of a completed count sent to its receiver: it releases what the jobs whose words it counts do (R158). -/
def State.tagToken (s : State) (r frm : Nat) (t : TagUse) (fills : Nat) (cov : List Nat) : State :=
  { s with net := s.net ++ [{ pkt := { lanes := [BitVec.ofNat 32 fills], cov := s.live cov }, rk := r, frm := frm,
                              dst := .field (ekOf r t.teidx) t.tslot t.tfld }] }

/-- A word written and counted (R136). -/
def State.countWord (s : State) (w : TagWord) (frm k : Nat) (t : TagUse) (cov : List Nat) : State :=
  let b := s.bnd w.rk frm k
  let ring := b.ring.wrote (w.off + 4)
  let s := s.write (tileKey w.rk w.tile (b.shape.base + b.ring.prod * b.shape.sub + w.off)) (valBytes 4 w.val.toNat)
  let cov := (b.cov ++ cov).eraseDups
  if b.count + 1 == t.wpf then
    (s.modBnd w.rk frm k (fun y => { y with
      ring := ring.fill y.shape.depth ring.atProd.mark, count := 0, fills := y.fills + 1, cov := [] })).tagToken w.rk frm t b.fills cov
  else s.modBnd w.rk frm k (fun y => { y with ring := ring, count := y.count + 1, cov := s.live cov })

/-- TAG_WORD_ARRIVE: word i on its way from a copy job reaches its tile (R136). -/
def execTagWordArrive (i : Nat) (s : State) : Host.Outcome State Fault Refusal :=
  match s.words[i]? with
  | none => .next s
  | some w =>
    match s.jobAt w.job with
    | none => .next { s with words := s.words.eraseIdx i }
    | some j =>
      if !(s.moving w.rk) then .next s
      else match s.tagOwner w.rk w.tile w.tag with
        | none => .next (s.jobFault j .tagCount none)
        | some (frm, k) =>
          let b := s.bnd w.rk frm k
          let t := b.tag.getD {}
          if b.fills == t.nfill then .next (s.jobFault j .tagCount none)
          else if notWritable b.ring.atProd.st then
            (if b.shape.mode == 0 then .next s else .next (s.jobFault j .bufState none))
          else if b.shape.sub < w.off + 4
              || !(j.allows 1 (8 * w.rk + w.tile) (b.shape.base + b.ring.prod * b.shape.sub + w.off) 4 true) then
            .next (s.jobFault j .bounds none)
          else .next ((({ s with words := s.words.eraseIdx i } : State).countWord w frm k t j.cov).touch w.rk)

/-! Completion (R179). -/

/-- No TRLS packet of the panel waits for its acknowledgement. -/
def State.trlsQuiet (s : State) : Bool := s.panel.root.streams.all (fun x => x.2.unacked.isEmpty)

/-- The SYNC increment of a job: checked now, then on its way to its word (R179, R139) (log 57: DEDUCED). -/
def State.jobSync (s : State) (j : Job) : Except FCode (Option State) := do
  let r := j.tpl.rk
  let va := j.tpl.sync
  let (g, a) ← s.access r va 16 needSync
  let q : Req := { id := s.nextId, op := .syadd j.tpl.bytes, va := va, gpa := g, size := 16, cov := s.live j.cov, word := a,
                   who := .job j.die j.edge j.tslot j.tpl.e j.tpl.slot (match j.ql with
                    | some n => n + 1
                    | none => 0), ret := { e := j.tpl.e, slot := j.tpl.slot, rk := r, frm := j.tpl.frm } }
  if 2 ^ 63 ≤ a then
    if !(s.performed 5 q.cov) || s.streamFull (gpaPanel g) (trlsStream g) then .ok none else .ok (some ((({ s with reqs := s.reqs ++ [{ q with phase := .remote }] } : State).sendRemote q).noteSync r va).fresh)
  else if !(s.marked a 16) then .error .align
  else if !(s.performed (syncScope (syncVal s.mem a)) q.cov) then .ok none
  else .ok (some (({ s with reqs := s.reqs ++ [{ q with phase := .wait }] } : State).noteSync r va).fresh)

/-- The source of a store goes to EMPTY (R179) (log 60: DEDUCED). -/
def State.drainSource (s : State) (j : Job) : State :=
  if j.tmov.isNone && j.tpl.store then
    s.setRing j.tpl.rk j.tpl.frm j.tpl.bind
      ((s.ringOf j.tpl.rk j.tpl.frm j.tpl.bind).drain (s.bnd j.tpl.rk j.tpl.frm j.tpl.bind).shape.depth)
  else s

/-- A finished job counted, at its template and its launch, answered and taken away. -/
def State.finishJob (s : State) (j : Job) : State :=
  let s := s.dropJob j
  let s := if j.tmov.isSome then s else
    let s := s.modIsland j.die j.edge (fun x => { x with
      tpls := x.tpls.map (fun t => (t.1, t.2.map (fun y => if y.id == j.tpl.id then { y with jobs := y.jobs + 1 } else y))) })
    if isStw j.tpl.rk then s.modDie (rkDie j.tpl.rk) (fun d => { d with stw := match d.stw with
        | k :: ks => { k with launch := { k.launch with jobs := k.launch.jobs + 1 } } :: ks
        | [] => [] })
    else s.modLaunch j.tpl.pid j.tpl.lnch (fun l => { l with jobs := l.jobs + 1 })
  let s := match j.ret with
    | some t => s.postAnswer t { resPk (.pkt t.hdr) .n32 [BitVec.ofNat 32 (if j.tmov.isSome then j.unit else j.tpl.bytes)] with cov := [] }
    | none => s
  s.closeTemplates j.die j.edge

/-- COPY_JOB_COMPLETE: every word of a job is at its home; its source is EMPTY, its increment is posted, its token leaves (R179,
R164). -/
def execCopyJobComplete (i : Nat) (s : State) : Host.Outcome State Fault Refusal :=
  match s.jobAt i with
  | none => .next s
  | some j =>
    if !j.started || !j.moved || !(s.moving j.region) || s.words.any (fun w => w.job == i) || (j.far && !s.trlsQuiet) then .next s
    else if j.late.isSome then .next (((s.jobLate j).getD s).drawn)
    else if j.tmov.isSome || j.tpl.sync == 0 then .next (((s.drainSource j).finishJob j).touch j.region)
    else match s.jobSync j with
      | .error c => .next (((s.drainSource j).jobFault j c (some j.tpl.sync)).drawn)
      | .ok none => .next s
      | .ok (some t) => .next ((((t.drainSource j).finishJob j).drawn).touch j.region)

/-! Exchange queues (R212, R213). -/

/-- The queue of a descriptor changed. -/
def State.modXq (s : State) (k : Nat) (f : XQueue → XQueue) : State :=
  { s with descs := s.descs.modify k (fun d => { d with xq := d.xq.map f }) }

/-- A message written in the producer sub-buffer of a descriptor, which becomes FULL (R212). -/
def State.putMessage (s : State) (k : Nat) (h : Shape) (ls : List Lane) : State :=
  let x := (s.descs.get k).ring
  let s := s.putHome (s.descBase k h + x.prod * h.sub) (laneBytes ls)
  { s with descs := s.descs.modify k (fun d => { d with ring := x.fill h.depth (4 * ls.length) }) }

/-- A waiting message's job may complete. -/
def State.jobSent (s : State) (id : Nat) : State :=
  { s with jobs := s.jobs.map (fun j => if j.id == id then { j with done := true } else j) }

/-- The refill of an EMPTY producer sub-buffer (R213): the oldest diverted record, else the oldest waiting message (log 60: DEDUCED). -/
def State.refill (s : State) (k : Nat) (h : Shape) (x : XQueue) : State :=
  match x.records, x.waiting with
  | (off, n) :: rest, _ =>
    match s.ringBody x.pid off (n / 4) with
    | .error _ => s
    | .ok ls => (((s.putMessage k h ls).ringFree x.pid off).modXq k (fun y => { y with records := rest }))
  | [], (ls, id) :: rest => ((s.putMessage k h ls).modXq k (fun y => { y with waiting := rest })).jobSent id
  | [], [] => s

/-- The controller's turn: refills while the producer sub-buffer is EMPTY, at most n times. -/
def State.refillAll (s : State) (k : Nat) (h : Shape) : Nat → State
  | 0 => s
  | n + 1 =>
    let d := s.descs.get k
    match d.xq with
    | none => s
    | some x =>
      if d.ring.atProd.st == .empty && !(x.records.isEmpty && x.waiting.isEmpty)
          && !(s.bufBlocked (rkDie x.rk) (s.descBase k h + d.ring.prod * h.sub) h.sub) then (s.refill k h x).refillAll k h n
      else s

/-- Is a queue registered by a frame? -/
def XQueue.ofFrame (r frm : Nat) (x : XQueue) : Bool := x.rk == r && x.frm == frm

/-- The queues of a frame that XQDEL closes and that hold nothing are deregistered; the answer follows the last (R215)
(log 115: DESIGN CHOICE). -/
def State.closeQueues (s : State) (r frm : Nat) : State :=
  let done (d : Nat × Desc) : Bool := match d.2.xq with
    | some x => x.ofFrame r frm && !x.closing.isEmpty && x.waiting.isEmpty && x.records.isEmpty
    | none => false
  let rets (d : Nat × Desc) : List Ret := match d.2.xq with | some x => x.closing | none => []
  let closed := ((s.descs.filter done).flatMap rets).eraseDups
  let s := { s with descs := s.descs.map (fun d => if done d then (d.1, { d.2 with xq := none }) else d) }
  (closed.filter (fun t => !(s.descs.flatMap rets).contains t)).foldl (fun s t => s.postAnswer t (resPk (.pkt t.hdr) .n32 [0])) s

/-- XQ_MESSAGE: the message of a job reaches its queue: it is written where the sub-buffer is EMPTY and nothing stands before it,
else it waits (R212, R213) (log 118: DESIGN CHOICE). -/
def execXqMessage (i : Nat) (s : State) : Host.Outcome State Fault Refusal :=
  match s.jobAt i with
  | none => .next s
  | some j =>
    if j.xq == 0 || j.queued || j.done || !(s.moving j.region) then .next s
    else
      let k := j.xq - 1
      let d := s.descs.get k
      match d.shape, d.xq with
      | some h, some x =>
        if h.sub < 4 * j.msg.length then .next (s.jobFault j .bounds none)
        else if s.marked (s.descBase k h + d.ring.prod * h.sub) (4 * j.msg.length) then .next (s.jobFault j .align none)
        else .next (((((s.setJob { j with queued := true }).modXq k (fun y => { y with waiting := y.waiting ++ [(j.msg, j.id)] })).refillAll k h
          (x.records.length + x.waiting.length + 1)).closeQueues x.rk x.frm).touch j.region)
      | _, _ => .next (s.jobFault j .bounds none)

/-- The header of a diverted message's record after doubleword 0 (R210). -/
def messageHead (k n : Nat) : List Nat :=
  let vdn := if k < 2 ^ 20 then k / 1024 else (k - 2 ^ 20) / 1024
  let lvl := if k < 2 ^ 20 then 0 else 1
  let idx := if k < 2 ^ 20 then k % 256 else (k - 2 ^ 20) % 1024
  [field n 32 32 + field vdn 25 7, 0, 0, 0, field vdn 57 7 + field lvl 56 1 + field idx 46 10, 0, 0]

/-- A fault of a queue's controller: F_SPILLEX names the queue's registering slot and the record's bytes (R211) (log 62: DEDUCED). -/
def State.raiseQueue (s : State) (c : FCode) (x : XQueue) (len : Nat) : State :=
  s.raiseAt c x.rk { s.recordAt c x.rk (s.frame x.rk x.frm).soff
      { ex := ekX x.e, ey := ekY x.e, slot := x.slot, frm := x.frm, eng := 0x40 } with
    src := 3, detail := if c == .spillEx then len else if c == .ecc then s.ringBad x.pid else 0 }

/-- XQ_DIVERT: the controller refills an EMPTY sub-buffer; else the oldest message has waited 2^DWE cycles and goes to the grounds
ring, and its sender's job completes (R212, R213) (log 13: DEDUCED; log 60: DEDUCED). -/
def execXqDivert (_die desc : Nat) (s : State) : Host.Outcome State Fault Refusal :=
  let d := s.descs.get desc
  match d.shape, d.xq with
  | some h, some x =>
    if !(s.moving x.rk) then .next s
    else if d.ring.atProd.st == .empty then .next (((s.refillAll desc h (x.records.length + x.waiting.length)).closeQueues x.rk x.frm).touch x.rk)
    else match x.waiting with
      | [] => .next s
      | (ls, id) :: rest =>
        let y := s.ringAppend x.pid 1 (messageHead desc (4 * ls.length)) ls
        match y.2 with
        | .error c => .next (y.1.raiseQueue c x (recordLen ls.length))
        | .ok off => .next (((y.1.modXq desc (fun z => { z with
            waiting := rest, records := z.records ++ [(off, 4 * ls.length)], total := min (2 ^ 32 - 1) (z.total + 1) })).jobSent id).touch x.rk)
  | _, _ => .next s

end Sys2Proof.Machine
end

