-- ==== Sys2Proof/Machine/FloatAct.lean ====
section
/-! DEFINITION. What the floating-point arithmetic, inspection and conversion instructions compute (R340, R341, R343). -/

namespace Sys2Proof.Machine

/-- fval of a value of the source type, in the firing's block. -/
def fv (e : Env) (t : Ty) (x : Nat) : FVal := fval t e.ftz e.inf8 x

/-- round_T of a value with NV when the operation was invalid or an operand was a signalling NaN. -/
def roundRes (e : Env) (t : Ty) (r : Rnd) (v : FVal × Bool) : Nat × BitVec 32 :=
  let x := roundTy t { rnd := r } e.ftz e.inf8 v.1
  (x.1, x.2 ||| flagIf v.2 esNV)

/-- A two-source floating-point operation that rounds (R340). -/
def floatTwo (ok : Ty → Bool) (f : Fn) (e : Env) (g : Bool → FVal → FVal → FVal × Bool) : Except FCode Act :=
  let r := fnRnd e f
  valuewiseIf ok .float f e [e.a, e.b] (fun t vs => roundRes e t r (g (r == .rdn) (fv e t (col vs 0)) (fv e t (col vs 1))))

def faddAct (f : Fn) (e : Env) : Except FCode Act := floatTwo (fun _ => true) f e fAdd
def fsubAct (f : Fn) (e : Env) : Except FCode Act := floatTwo (fun _ => true) f e (fun d x y => fAdd d x (fNegate y))

/-- FMUL, a multiplying instruction (R100, R340). -/
def fmulAct (f : Fn) (e : Env) : Except FCode Act := floatTwo (mulOk f e false) f e (fun _ x y => fMul x y)

/-- x × y + z with one rounding; 0 × ∞ is invalid even when z is a quiet NaN (R340). -/
def fmaVal (rdn : Bool) (x y z : FVal) : FVal × Bool :=
  let p := fMul x y
  let s := fAdd rdn p.1 z
  (s.1, p.2 || s.2)

/-- FMA and FNMA (R340). -/
def fmaWise (neg : Bool) (f : Fn) (e : Env) : Except FCode Act :=
  let r := fnRnd e f
  valuewiseIf (mulOk f e false) .float f e [e.a, e.b, thirdOp e] (fun t vs =>
    let x := fv e t (col vs 0)
    roundRes e t r (fmaVal (r == .rdn) (if neg then fNegate x else x) (fv e t (col vs 1)) (fv e t (col vs 2))))

def fmaAct (f : Fn) (e : Env) : Except FCode Act := fmaWise false f e
def fnmaAct (f : Fn) (e : Env) : Except FCode Act := fmaWise true f e

/-- The smaller or the larger of two values, −0 below +0, NaN when either is NaN (R340). -/
def minMax (larger : Bool) (x y : FVal) : FVal × Bool :=
  if isNan x || isNan y then (.nan false, isSnan x || isSnan y)
  else if larger then (if fBelow x y then y else x, false)
  else (if fBelow y x then y else x, false)

def fminAct (f : Fn) (e : Env) : Except FCode Act :=
  valuewise .float f e [e.a, e.b] (fun t vs => roundRes e t .rne (minMax false (fv e t (col vs 0)) (fv e t (col vs 1))))
def fmaxAct (f : Fn) (e : Env) : Except FCode Act :=
  valuewise .float f e [e.a, e.b] (fun t vs => roundRes e t .rne (minMax true (fv e t (col vs 0)) (fv e t (col vs 1))))

/-- The canonical NaN in place of NaN, NV for a signalling one. -/
def quiet (v : FVal) : FVal × Bool := (if isNan v then .nan false else v, isSnan v)

def fabsAct (f : Fn) (e : Env) : Except FCode Act :=
  valuewise .floatSignedAny f e [e.a] (fun t vs => roundRes e t .rne (quiet (fAbsolute (fv e t (col vs 0)))))
def fnegAct (f : Fn) (e : Env) : Except FCode Act :=
  valuewise .floatSignedAny f e [e.a] (fun t vs => roundRes e t .rne (quiet (fNegate (fv e t (col vs 0)))))

/-! Inspection (R341). -/

/-- The integer type of a width, unsigned or signed, that an inspection returns (R341). -/
def widthTy (signed : Bool) (w : Nat) : Ty :=
  if w == 32 then (if signed then .s32 else .n32)
  else if w == 16 then (if signed then .s16 else .n16)
  else (if signed then .s8 else .n8)

/-- The condition of FCMP (R341): with a NaN only .ne and .un hold. -/
def fcmpHolds (cc : Nat) (x y : FVal) : Bool :=
  if isNan x || isNan y then cc == 1 || cc == 6
  else
    let o := fOrder x y
    match cc with
    | 0 => o == 0
    | 1 => o != 0
    | 2 => decide (o < 0)
    | 3 => decide (o ≤ 0)
    | 4 => decide (0 < o)
    | 5 => decide (0 ≤ o)
    | 6 => false
    | _ => true

/-- An inspection: one result value of the source's width in an integer type (R341). -/
def inspect (signed : Bool) (f : Fn) (e : Env) (srcs : List Operand) (g : Ty → List Nat → Nat × BitVec 32) :
    Except FCode Act := do
  let (t, n, cols) ← gather .float f e srcs
  let r := eachVal (g t) cols
  let rt := widthTy signed (tyWidth t)
  pure { out := some (resPk e.a rt (packLanes rt n r.1)), flags := r.2 }

def fcmpAct (f : Fn) (e : Env) : Except FCode Act :=
  inspect false f e [e.a, e.b] (fun t vs =>
    let x := fv e t (col vs 0)
    let y := fv e t (col vs 1)
    (ones (tyWidth t) (fcmpHolds (fnSub f) x y), flagIf (isSnan x || isSnan y) esNV))

/-- The class code of an encoding; FTZ does not act (R341). -/
def classCode (t : Ty) (inf8 : Bool) (x : Nat) : Nat :=
  match ffmt t with
  | none => 9
  | some k =>
    match fDecode k inf8 x with
    | .nan s => if s then 8 else 9
    | .inf n => if n then 0 else 7
    | .fin n m _ =>
      if m == 0 then (if n then 3 else 4)
      else if fSubnormal k x then (if n then 2 else 5)
      else (if n then 1 else 6)

def fclassAct (f : Fn) (e : Env) : Except FCode Act :=
  inspect false f e [e.a] (fun t vs => (classCode t e.inf8 (col vs 0), 0))

/-- FEXPN: floor(log2 |x|); zero and NaN give the least value, ∞ the largest, with NV (R341). -/
def fexpnAct (f : Fn) (e : Env) : Except FCode Act :=
  inspect true f e [e.a] (fun t vs =>
    let w := tyWidth t
    match fv e t (col vs 0) with
    | .fin _ m x => if m == 0 then (wrapTo w (intLo w true), esNV) else (wrapTo w (expOf m x), 0)
    | .nan _ => (wrapTo w (intLo w true), esNV)
    | .inf _ => (wrapTo w (intHi w true), esNV))

/-! Conversion (R343). -/

/-- A source whose type is taken from its own header (R343, R337): its length, its type within a set, its scale tag. -/
def headerSrc (set : Ty → Bool) (o : Operand) : Except FCode (Ty × List Nat) :=
  let p := rawPk o
  if !ownLenOk p then .error .pkLen
  else match tyOfFmt p.fmt p.fpx with
    | none => .error .fmt
    | some t => if !set t then .error .fmt else if p.sc then .error .scaleTag else .ok (t, laneVals t p.lanes)

/-- The random bits of stochastic rounding for value i of a source type (R113): w = min(24, 32 / v) bits of P's lane. -/
def srMode (t : Ty) (p : List Lane) (i : Nat) : RMode :=
  let v := perLane t
  let w := min 24 (32 / v)
  { rnd := .sr, rw := w, rbits := (p.getD (i / v) 0).toNat / 2 ^ (w * (i % v)) % 2 ^ w }

/-- The length, FMT and scale checks of the random packet P (R343, R380): .n32 and of a's length. -/
def srPk (e : Env) : Packet := rawPk (thirdOp e)

/-- The packing of N result values in order (R343). -/
def packRes (o : Operand) (t : Ty) (vs : List Nat) : Packet := resPk o t (packVals t vs)

/-- FCVT and FICV: each value of a, of the header's type, converted to the result type; a result of more than 8 lanes
faults; under .sr field P supplies the bits (R343, R113). -/
def convert (set : Ty → Bool) (f : Fn) (e : Env) : Except FCode Act :=
  let rt := fnTy f
  let r := fnRnd e f
  let sr := r == .sr
  let pk := rawPk e.a
  let p := srPk e
  let nvals := match tyOfFmt pk.fmt pk.fpx with
    | some t => (laneVals t pk.lanes).length
    | none => 0
  if !ownLenOk pk || (sr && p.lanes.length != pk.lanes.length) || 8 < lanesFor rt nvals then .error .pkLen
  else match headerSrc set e.a with
    | .error .scaleTag => if sr && !hasTy .n32 p then .error .fmt else .error .scaleTag
    | .error x => .error x
    | .ok (t, vals) =>
      if sr && !hasTy .n32 p then .error .fmt
      else if sr && p.sc then .error .scaleTag
      else
        let rs := (List.range vals.length).map (fun i =>
          let m := if sr then srMode t p.lanes i else { rnd := r : RMode }
          let v := quiet (fv e t (vals.getD i 0))
          let x := roundTy rt m e.ftz e.inf8 v.1
          (x.1, x.2 ||| flagIf v.2 esNV))
        .ok { out := some (packRes e.a rt (rs.map (·.1))), flags := rs.foldl (fun fl x => fl ||| x.2) 0 }

def fcvtAct (f : Fn) (e : Env) : Except FCode Act := convert tyIsFloat f e
/-- FICV: integers to a float, or the float set to an integer (R343, R116). -/
def ficvAct (f : Fn) (e : Env) : Except FCode Act :=
  convert (if tyIsInt (fnTy f) then tyIsFloat else tyIsInt) f e

/-- The integral value of x in a mode, as an exact value; inexact when it differs (R343). -/
def integral (r : Rnd) (v : FVal) : FVal × Bool :=
  match v with
  | .fin n m x =>
    if m == 0 then (v, false)
    else
      let a := roundMul { rnd := r } n m x 0
      (.fin n a.1 0, a.2)
  | v => (v, false)

def frndAct (f : Fn) (e : Env) : Except FCode Act :=
  let r := fnRnd e f
  valuewise .float f e [e.a] (fun t vs =>
    let q := quiet (fv e t (col vs 0))
    let i := integral r q.1
    let x := roundTy t { rnd := r } e.ftz e.inf8 i.1
    (x.1, x.2 ||| flagIf q.2 esNV ||| flagIf i.2 esNX))

/-- The packet checks of FSCL's b: a length-1 .s32 packet (R343). -/
def scaleStep (f : Fn) (e : Env) : Except FCode Int :=
  let b := litPk (fnTy f) e.b
  if b.lanes.length != 1 then .error .pkLen
  else if !hasTy .s32 b then .error .fmt
  else if b.sc then .error .scaleTag
  else .ok (b.lanes.headD 0).toInt

/-- FSCL: x × 2^n for the n of a length-1 .s32 packet b (R343). -/
def fsclAct (f : Fn) (e : Env) : Except FCode Act := do
  let r ← both (gather .float f e [e.a]) (scaleStep f e)
  let t := r.1.1
  let x := eachVal (fun vs =>
    let q := quiet (fv e t (col vs 0))
    roundRes e t (fnRnd e f) (fScale q.1 r.2, q.2)) r.1.2.2
  pure { out := some (resPk e.a t (packLanes t r.1.2.1 x.1)), flags := x.2 }

end Sys2Proof.Machine
end

