-- ==== Sys2Proof/Machine/SpecialAct.lean ====
section
/-! DEFINITION. The special functions (R124, R342). FDIV and FSQRT are correctly rounded. The others return one of the two
binary32 neighbours of the exact value; which one is a free value, `Config.upperNeighbour`. The exact value is found in fixed
point with 900 fraction bits, far finer than the neighbours' spacing. -/

namespace Sys2Proof.Machine

/-- Fraction bits of the fixed-point values below. -/
def fxBits : Nat := 900

/-- π × 2^1200, rounded down. -/
def fxPi : Nat :=
  0x3243f6a8885a308d313198a2e03707344a4093822299f31d0082efa98ec4e6c89452821e638d01377be5466cf34e90c6cc0ac29b7c97c50dd3f84d5b5b54709179216d5d98979fb1bd1310ba698dfb5ac2ffd72dbd01adfb7b8e1afed6a267e96ba7c9045f12c7f9924a19947b3916cf70801f2e2858efc16636920d871574e69a458fea3f4933d7e0d95748f728eb658718bcd588215

/-- ln 2 × 2^1200, rounded down. -/
def fxLn2 : Nat :=
  0xb17217f7d1cf79abc9e3b39803f2f6af40f343267298b62d8a0d175b8baafa2be7b876206debac98559552fb4afa1b10ed2eae35c138214427573b291169b8253e96ca16224ae8c51acbda11317c387eb9ea9bc3b136603b256fa0ec7657f74b72ce87b19d6548caf5dfa6bd38303248655fa1872f20e3a2da2d97c50f3fd5c607f4ca11fb5bfb90610d30f88fe551a2ee569d6dfc1e

/-- The product of two fixed-point values. -/
def fxMul (a b : Int) : Int := (a * b).fdiv (2 ^ fxBits : Nat)

/-- A series whose terms are each the last one times z over a divisor: the sum of n terms from the one given. `d k` is the
divisor between term k and the next. -/
def fxSeries (z : Int) (d : Nat → Int) : Nat → Nat → Int → Int → Int
  | 0, _, _, s => s
  | n + 1, k, term, s => fxSeries z d n (k + 1) ((fxMul term z).tdiv (d k)) (s + term)

/-- sin r and cos r for |r| at most π / 4, by their Taylor series (log 17: UNVERIFIED). -/
def fxSin (r : Int) : Int := fxSeries (-(fxMul r r)) (fun k => ((2 * k + 2) * (2 * k + 3) : Nat)) 95 0 r 0
def fxCos (r : Int) : Int := fxSeries (-(fxMul r r)) (fun k => ((2 * k + 1) * (2 * k + 2) : Nat)) 95 0 (2 ^ fxBits : Nat) 0

/-- 2^f for f in [0, 1): the exponential series of f ln 2 (log 17: UNVERIFIED). -/
def fxExp2 (f : Int) : Int :=
  fxSeries ((f * fxLn2).fdiv (2 ^ 1200 : Nat)) (fun k => (k + 1 : Nat)) 190 0 (2 ^ fxBits : Nat) 0

/-- The sum of z^(2k+1) / (2k+1) from k on: atanh z. -/
def fxAtanh (z2 : Int) : Nat → Nat → Int → Int → Int
  | 0, _, _, s => s
  | n + 1, k, p, s => fxAtanh z2 n (k + 1) (fxMul p z2) (s + p.tdiv ((2 * k + 1 : Nat) : Int))

/-- log2 of m / 2^k, a value in [1, 2): 2 atanh((x − 1) / (x + 1)) / ln 2 (log 17: UNVERIFIED). -/
def fxLog2 (m k : Nat) : Int :=
  let z : Int := (((m - 2 ^ k) * 2 ^ fxBits / (m + 2 ^ k) : Nat) : Int)
  (2 * fxAtanh (fxMul z z) 300 0 z 0 * (2 ^ 1200 : Nat)).fdiv fxLn2

/-- The integer square root by Newton's steps from above. -/
def isqrtStep (n : Nat) : Nat → Nat → Nat
  | 0, x => x
  | k + 1, x => let y := (x + n / x) / 2; if y < x then isqrtStep n k y else x
def isqrt (n : Nat) : Nat := if n == 0 then 0 else isqrtStep n 64 (2 ^ (ilog2 n / 2 + 1))

/-! Results. -/

/-- Which special function, as the free choice names it; FSNCS shares those of FSIN and FCOS (R124). -/
def codeSin : Nat := 0
def codeCos : Nat := 1
def codeExp2 : Nat := 2
def codeLog2 : Nat := 3
def codeRcp : Nat := 4
def codeRsq : Nat := 5

/-- One of the two binary32 neighbours of (−1)^neg × m × 2^e, which no binary32 value equals; above the largest finite value they
are that value and the infinity (log 17: UNVERIFIED). -/
def neighbour (e : Env) (code : Nat) (x : Lane) (neg : Bool) (m : Nat) (ex : Int) : Nat × BitVec 32 :=
  let r : Rnd := if Config.upperNeighbour code x then (if neg then .rdn else .rup) else .rtz
  roundTy .f32 { rnd := r } e.ftz e.inf8 (.fin neg m ex)

/-- An exact result. -/
def exactRes (e : Env) (v : FVal) : Nat × BitVec 32 := roundTy .f32 { rnd := .rne } e.ftz e.inf8 v

/-- NaN and its flag: an invalid operation sets NV, and so does a signalling operand (R103). -/
def nanRes (nv : Bool) : Nat × BitVec 32 := (0x7FC00000, flagIf nv esNV)

/-- The reduced argument of (−1)^neg × m × 2^e: the quadrant and the rest, in fixed point. -/
def reduce (neg : Bool) (m : Nat) (ex : Int) : Nat × Int :=
  let xs : Int := (m * 2 ^ (ex + 1200).toNat : Nat)
  let x := if neg then -xs else xs
  let hp : Int := (fxPi / 2 : Nat)
  let k := (x + hp / 2).fdiv hp
  ((k % 4).toNat, (x - k * hp).fdiv (2 ^ 300 : Nat))

/-- sin or cos of a finite nonzero value. -/
def circular (e : Env) (cosine : Bool) (x : Lane) (neg : Bool) (m : Nat) (ex : Int) : Nat × BitVec 32 :=
  let q := reduce neg m ex
  let v := match (q.1 + (if cosine then 1 else 0)) % 4 with
    | 0 => fxSin q.2
    | 1 => fxCos q.2
    | 2 => -(fxSin q.2)
    | _ => -(fxCos q.2)
  neighbour e (if cosine then codeCos else codeSin) x (decide (v < 0)) v.natAbs (-(fxBits : Int))

def sinVal (e : Env) (x : Nat) : Nat × BitVec 32 :=
  match fv e .f32 x with
  | .nan s => nanRes s
  | .inf _ => nanRes true
  | .fin n m ex => if m == 0 then exactRes e (.fin n 0 0) else circular e false (BitVec.ofNat 32 x) n m ex

def cosVal (e : Env) (x : Nat) : Nat × BitVec 32 :=
  match fv e .f32 x with
  | .nan s => nanRes s
  | .inf _ => nanRes true
  | .fin n m ex => if m == 0 then exactRes e (.fin false 1 0) else circular e true (BitVec.ofNat 32 x) n m ex

/-- FEXP2 of a value: exact at an integer, else a neighbour; an overflow, from x = 128 on, is the largest finite value or the infinity (R124)
(log 17: UNVERIFIED). -/
def exp2Val (e : Env) (x : Nat) : Nat × BitVec 32 :=
  match fv e .f32 x with
  | .nan s => nanRes s
  | .inf n => exactRes e (if n then .fin false 0 0 else .inf false)
  | .fin n m ex =>
    if m == 0 then exactRes e (.fin false 1 0)
    else if 7 ≤ expOf m ex then
      -- |x| ≥ 128: an overflow, or a value below 2^-127 that may lie under every subnormal
      if !n then neighbour e codeExp2 (BitVec.ofNat 32 x) false 1 1000
      else if 10 ≤ expOf m ex then neighbour e codeExp2 (BitVec.ofNat 32 x) false 1 (-1000)
      else exp2Fin e x n m ex
    else exp2Fin e x n m ex
where
  /-- 2^x for |x| below 1024. -/
  exp2Fin (e : Env) (x : Nat) (n : Bool) (m : Nat) (ex : Int) : Nat × BitVec 32 :=
    let xs : Int := (m * 2 ^ (ex + fxBits).toNat : Nat)
    let v := if n then -xs else xs
    let k := v.fdiv (2 ^ fxBits : Nat)
    let f := v - k * (2 ^ fxBits : Nat)
    if f == 0 && decide (-149 ≤ k) then exactRes e (.fin false 1 k)
    else neighbour e codeExp2 (BitVec.ofNat 32 x) false (fxExp2 f).natAbs (k - fxBits)

def log2Val (e : Env) (x : Nat) : Nat × BitVec 32 :=
  match fv e .f32 x with
  | .nan s => nanRes s
  | .inf n => if n then nanRes true else exactRes e (.inf false)
  | .fin n m ex =>
    if m == 0 then (0xFF800000, esDZ)
    else if n then nanRes true
    else
      let k := ilog2 m
      if m == 2 ^ k then exactRes e (ofInt (k + ex) 0 false)
      else
        let v := (k + ex) * (2 ^ fxBits : Nat) + fxLog2 m k
        neighbour e codeLog2 (BitVec.ofNat 32 x) (decide (v < 0)) v.natAbs (-(fxBits : Int))

/-- FRCP of a value: exact at a power of two whose inverse is in range, else a neighbour (R124) (log 17: UNVERIFIED). -/
def rcpVal (e : Env) (x : Nat) : Nat × BitVec 32 :=
  match fv e .f32 x with
  | .nan s => nanRes s
  | .inf n => exactRes e (.fin n 0 0)
  | .fin n m ex =>
    if m == 0 then ((exactRes e (.inf n)).1, esDZ)
    else if m == 2 ^ ilog2 m && decide (-128 < expOf m ex) then exactRes e (.fin n 1 (-(expOf m ex)))
    else if m == 2 ^ ilog2 m then neighbour e codeRcp (BitVec.ofNat 32 x) n 1 (-(expOf m ex))
    else neighbour e codeRcp (BitVec.ofNat 32 x) n (2 ^ fxBits / m) (-(fxBits : Int) - ex)

/-- A significand and exponent with the exponent even. -/
def evenExp (m : Nat) (ex : Int) : Nat × Int := if ex % 2 == 0 then (m, ex) else (2 * m, ex - 1)

/-- FRSQ of a value (R124) (log 17: UNVERIFIED). -/
def rsqVal (e : Env) (x : Nat) : Nat × BitVec 32 :=
  match fv e .f32 x with
  | .nan s => nanRes s
  | .inf n => if n then nanRes true else exactRes e (.fin false 0 0)
  | .fin n m ex =>
    if m == 0 then ((exactRes e (.inf n)).1, esDZ)
    else if n then nanRes true
    else if m == 2 ^ ilog2 m && expOf m ex % 2 == 0 then exactRes e (.fin false 1 (-(expOf m ex / 2)))
    else
      let p := evenExp m ex
      neighbour e codeRsq (BitVec.ofNat 32 x) false (isqrt (2 ^ (2 * fxBits) / p.1)) (-(fxBits : Int) - p.2 / 2)

/-- FSQRT, correctly rounded (R124): the root with a last bit that says whether anything lies below it. -/
def sqrtVal (e : Env) (r : Rnd) (x : Nat) : Nat × BitVec 32 :=
  match fv e .f32 x with
  | .nan s => nanRes s
  | .inf n => if n then nanRes true else exactRes e (.inf false)
  | .fin n m ex =>
    if m == 0 then exactRes e (.fin n 0 0)
    else if n then nanRes true
    else
      let p := evenExp m ex
      let s := isqrt (p.1 * 2 ^ 80)
      let st := if s * s == p.1 * 2 ^ 80 then 0 else 1
      roundTy .f32 { rnd := r } e.ftz e.inf8 (.fin false (2 * s + st) (p.2 / 2 - 41))

/-- FDIV, correctly rounded, with the special cases of R103 and R342. -/
def divVal (e : Env) (r : Rnd) (x y : Nat) : Nat × BitVec 32 :=
  let a := fv e .f32 x
  let b := fv e .f32 y
  match a, b with
  | .nan _, _ => nanRes (isSnan a || isSnan b)
  | _, .nan _ => nanRes (isSnan a || isSnan b)
  | .inf _, .inf _ => nanRes true
  | .inf n, .fin k _ _ => exactRes e (.inf (n != k))
  | .fin n _ _, .inf k => exactRes e (.fin (n != k) 0 0)
  | .fin n m ex, .fin k d dx =>
    if d == 0 then
      if m == 0 then nanRes true else ((exactRes e (.inf (n != k))).1, esDZ)
    else if m == 0 then exactRes e (.fin (n != k) 0 0)
    else
      let q := m * 2 ^ 64 / d
      let st := if m * 2 ^ 64 % d == 0 then 0 else 1
      roundTy .f32 { rnd := r } e.ftz e.inf8 (.fin (n != k) (2 * q + st) (ex - dx - 65))

/-- A one-source special function (R342). -/
def specialOne (f : Fn) (e : Env) (g : Env → Nat → Nat × BitVec 32) : Except FCode Act :=
  valuewise .f32 f e [e.a] (fun _ vs => g e (col vs 0))

def fsinAct (f : Fn) (e : Env) : Except FCode Act := specialOne f e sinVal
def fcosAct (f : Fn) (e : Env) : Except FCode Act := specialOne f e cosVal
def fexp2Act (f : Fn) (e : Env) : Except FCode Act := specialOne f e exp2Val
def flog2Act (f : Fn) (e : Env) : Except FCode Act := specialOne f e log2Val
def frcpAct (f : Fn) (e : Env) : Except FCode Act := specialOne f e rcpVal
def frsqAct (f : Fn) (e : Env) : Except FCode Act := specialOne f e rsqVal
def fsqrtAct (f : Fn) (e : Env) : Except FCode Act := specialOne f e (fun e => sqrtVal e (fnRnd e f))
def fdivAct (f : Fn) (e : Env) : Except FCode Act :=
  valuewise .f32 f e [e.a, e.b] (fun _ vs => divVal e (fnRnd e f) (col vs 0) (col vs 1))

/-- FSNCS: the sine through DT and the cosine through TT (R342). -/
def fsncsAct (f : Fn) (e : Env) : Except FCode Act := do
  let s ← specialOne f e sinVal
  let c ← specialOne f e cosVal
  pure { s with second := c.out, flags := s.flags ||| c.flags }

end Sys2Proof.Machine
end

