-- ==== Sys2Proof/Machine/Floating.lean ====
section
/-! DEFINITION. The meanings of the floating-point instructions. What each computes stands in FloatAct.lean and SpecialAct.lean. -/

namespace Sys2Proof.Machine

/-- FADD (R340). -/
def execFadd (o : Slot) (f : Fn) (s : State) : Host.Outcome State Fault Refusal := fire o f faddAct s

/-- FSUB (R340). -/
def execFsub (o : Slot) (f : Fn) (s : State) : Host.Outcome State Fault Refusal := fire o f fsubAct s

/-- FMUL (R340). -/
def execFmul (o : Slot) (f : Fn) (s : State) : Host.Outcome State Fault Refusal := fire o f fmulAct s

/-- FMA (R340). -/
def execFma (o : Slot) (f : Fn) (s : State) : Host.Outcome State Fault Refusal := fire o f fmaAct s

/-- FNMA (R340). -/
def execFnma (o : Slot) (f : Fn) (s : State) : Host.Outcome State Fault Refusal := fire o f fnmaAct s

/-- FMIN (R340). -/
def execFmin (o : Slot) (f : Fn) (s : State) : Host.Outcome State Fault Refusal := fire o f fminAct s

/-- FMAX (R340). -/
def execFmax (o : Slot) (f : Fn) (s : State) : Host.Outcome State Fault Refusal := fire o f fmaxAct s

/-- FABS (R340). -/
def execFabs (o : Slot) (f : Fn) (s : State) : Host.Outcome State Fault Refusal := fire o f fabsAct s

/-- FNEG (R340). -/
def execFneg (o : Slot) (f : Fn) (s : State) : Host.Outcome State Fault Refusal := fire o f fnegAct s

/-- FCMP (R341). -/
def execFcmp (o : Slot) (f : Fn) (s : State) : Host.Outcome State Fault Refusal := fire o f fcmpAct s

/-- FCLASS (R341). -/
def execFclass (o : Slot) (f : Fn) (s : State) : Host.Outcome State Fault Refusal := fire o f fclassAct s

/-- FRND (R343). -/
def execFrnd (o : Slot) (f : Fn) (s : State) : Host.Outcome State Fault Refusal := fire o f frndAct s

/-- FCVT (R343). -/
def execFcvt (o : Slot) (f : Fn) (s : State) : Host.Outcome State Fault Refusal := fire o f fcvtAct s

/-- FSCL (R343). -/
def execFscl (o : Slot) (f : Fn) (s : State) : Host.Outcome State Fault Refusal := fire o f fsclAct s

/-- FEXPN (R341). -/
def execFexpn (o : Slot) (f : Fn) (s : State) : Host.Outcome State Fault Refusal := fire o f fexpnAct s

/-- FRCP (R342). -/
def execFrcp (o : Slot) (f : Fn) (s : State) : Host.Outcome State Fault Refusal := fire o f frcpAct s

/-- FRSQ (R342). -/
def execFrsq (o : Slot) (f : Fn) (s : State) : Host.Outcome State Fault Refusal := fire o f frsqAct s

/-- FSQRT (R342). -/
def execFsqrt (o : Slot) (f : Fn) (s : State) : Host.Outcome State Fault Refusal := fire o f fsqrtAct s

/-- FDIV (R342). -/
def execFdiv (o : Slot) (f : Fn) (s : State) : Host.Outcome State Fault Refusal := fire o f fdivAct s

/-- FEXP2 (R342). -/
def execFexp2 (o : Slot) (f : Fn) (s : State) : Host.Outcome State Fault Refusal := fire o f fexp2Act s

/-- FLOG2 (R342). -/
def execFlog2 (o : Slot) (f : Fn) (s : State) : Host.Outcome State Fault Refusal := fire o f flog2Act s

/-- FSIN (R342). -/
def execFsin (o : Slot) (f : Fn) (s : State) : Host.Outcome State Fault Refusal := fire o f fsinAct s

/-- FCOS (R342). -/
def execFcos (o : Slot) (f : Fn) (s : State) : Host.Outcome State Fault Refusal := fire o f fcosAct s

/-- FSNCS (R342). -/
def execFsncs (o : Slot) (f : Fn) (s : State) : Host.Outcome State Fault Refusal := fire o f fsncsAct s

/-- FICV (R343). -/
def execFicv (o : Slot) (f : Fn) (s : State) : Host.Outcome State Fault Refusal := fire o f ficvAct s

end Sys2Proof.Machine
end

