-- ==== Sys2Proof/Machine/LaneAct.lean ====
section
/-! DEFINITION. What the packet, lane, forwarding and bit-level instructions compute (R125, R126, R193, R194, R329, R338,
R346, R349, R351, R352, R356, R360, R364, R365, R372 to R374, R384, R392, R393, R396). -/

namespace Sys2Proof.Machine

/-- A packet's LEN field (R83). -/
def lenOf (p : Packet) : Nat := p.lanes.length - 1

/-- A packet that is forwarded, with its SEQ or EOF perhaps changed. -/
def fwdAct (_f : Fn) (e : Env) : Except FCode Act := .ok { out := some (keepPk e.a) }

/-- EOFM: op 0 sets EOF, 1 takes the larger, 2 the smaller (R338). -/
def eofmAct (f : Fn) (e : Env) : Except FCode Act :=
  let p := keepPk e.a
  let level := fnIm f % 4
  let v := match fnIm f / 4 % 4 with
    | 0 => level
    | 1 => max p.eof.toNat level
    | _ => min p.eof.toNat level
  .ok { out := some { p with eof := BitVec.ofNat 2 v } }

/-- PKLEN.get (R373). -/
def pklenGetAct (_f : Fn) (e : Env) : Except FCode Act := do
  let p ← readPk e.a
  pure { out := some { word32 e.a p.lanes.length with kind := 0, sc := false, sce := 0 } }

/-- PKLEN.set: truncated, or padded with zero lanes (R373). -/
def pklenSetAct (f : Fn) (e : Env) : Except FCode Act := do
  let p ← readPk e.a
  let n := fnIm f % 8 + 1
  let q := { p with lanes := (p.lanes ++ List.replicate 8 0).take n }
  if ownLenOk q then pure { out := some q } else .error .pkLen

/-- PKSPL: lanes below k through DT with EOF 0, the rest through TT (R373). -/
def pksplAct (f : Fn) (e : Env) : Except FCode Act := do
  let p ← readPk e.a
  let k := fnIm f % 8
  if lenOf p < k then .error .bounds
  else if (p.fmt == 6 || p.fmt == 7) && k % 2 == 1 then .error .bounds
  else if p.fmt == 13 && !(p.lanes.length == 6 && k == 3) then .error .bounds
  else pure { out := some { p with lanes := p.lanes.take k, eof := 0 }, second := some { p with lanes := p.lanes.drop k } }

/-- PKMRG (R374): lanes held in Dn, whose SEQ[3:0] counts them, then those of a; full packets and a flush at end of fibre
(log 32: DEDUCED). -/
def pkmrgAct (f : Fn) (e : Env) : Except FCode Act :=
  let a := keepPk e.a
  let n := fnIm f % 4
  let held : Packet := (PMap.get e.d n).getD { lanes := [] }
  let h := if (PMap.get e.d n).isSome then held.seq.toNat % 16 else 0
  let cap := if a.fmt == 13 then 6 else 8
  let m := if a.kind == 2 then 0 else a.lanes.length
  if m != 0 && !ownLenOk a then .error .pkLen
  else if h != 0 && m != 0 && !(a.fmt == held.fmt && a.fpx == held.fpx) then .error .fmt
  else if h != 0 && m != 0 && !(a.sc == held.sc && a.sce == held.sce) then .error .scaleTag
  else
    let buf := held.lanes.take h ++ (if m != 0 then a.lanes else [])
    let full := cap ≤ buf.length
    let rest := if full then buf.drop cap else buf
    let data (ls : List Lane) (eof : BitVec 2) : Packet :=
      if m != 0 then { a with lanes := ls, eof := eof }
      else { held with lanes := ls, eof := eof, seq := a.seq, tag := a.tag, cov := [] }
    let first := if full then [data (buf.take cap) 0] else []
    let flush := a.eof != 0
    let queue : List Packet :=
      if !flush then first
      else if !rest.isEmpty then first ++ [data rest a.eof]
      else if full then [data (buf.take cap) a.eof]
      else [{ word32 e.a 0 with kind := 2, eof := a.eof }]
    let keep := if flush then [] else rest
    let hdr : Packet := if m != 0 then { held with fmt := a.fmt, fpx := a.fpx, sc := a.sc, sce := a.sce, kind := a.kind } else held
    let d : Packet := { hdr with
      lanes := if keep.isEmpty then [0] else keep,
      seq := BitVec.ofNat 16 (held.seq.toNat / 16 * 16 + keep.length), cov := [] }
    .ok { queue := queue, dreg := some (n, d) }

/-! Lane moves (R351). -/

/-- LBCAST: n copies of lane k. -/
def lbcastAct (f : Fn) (e : Env) : Except FCode Act := do
  let p ← readPk e.a
  let k := fnIm f / 8 % 8
  if lenOf p < k then .error .bounds
  else pure { out := some { p with lanes := List.replicate (fnIm f % 8 + 1) (p.lanes.getD k 0) } }

/-- LEXT: lane k, or lanes k and k + 1 for a 64-bit type. -/
def lextAct (f : Fn) (e : Env) : Except FCode Act := do
  let p ← readPk e.a
  let t := fnTy f
  let k := fnSub f
  let n := if tyIs64 t then 2 else 1
  if lenOf p < k || (tyIs64 t && (k % 2 == 1 || lenOf p < k + 1)) then .error .bounds
  else pure { out := some { resPk e.a t ((p.lanes.drop k).take n) with kind := 0, sc := false, sce := 0 } }

/-- LINS: lane k replaced by b's lane, or b's lane appended. -/
def linsAct (f : Fn) (e : Env) : Except FCode Act := do
  let p ← readPk e.a
  let b ← readPk e.b
  let k := fnIm f % 8
  if b.lanes.length != 1 then .error .pkLen
  else if lenOf p + 1 < k then .error .bounds
  else
    let v := b.lanes.headD 0
    pure { out := some { p with lanes := if k == p.lanes.length then p.lanes ++ [v] else p.lanes.set k v } }

/-- LPERM: lane i is lane s_i, the indexes in a control operand. -/
def lpermAct (_f : Fn) (e : Env) : Except FCode Act := do
  let (p, v) ← both (readPk e.a) (control 0xFFFFFF e.b)
  let idx := (List.range p.lanes.length).map (fun i => v / 2 ^ (3 * i) % 8)
  if idx.any (fun s => decide (lenOf p < s)) then .error .bounds
  else pure { out := some { p with lanes := idx.map (fun s => p.lanes.getD s 0) } }

/-- A lane with its top bit inverted. -/
def flipTop (v : Lane) : Lane := v ^^^ 0x80000000

/-- Pairs of lanes swapped, the top bit of the lower lane of each pair inverted under .neg. -/
def swapPairs (neg : Bool) : List Lane → List Lane
  | x :: y :: r => (if neg then flipTop y else y) :: x :: swapPairs neg r
  | r => r

/-- LSWAP: units swapped as g gives; then .neg inverts the top bit of the lower unit of each pair. -/
def lswapAct (f : Fn) (e : Env) : Except FCode Act := do
  let p ← readPk e.a
  let g := fnIm f % 4
  let neg := fnIm f / 4 % 2 == 1
  if 2 ≤ g && p.lanes.length % 2 == 1 then .error .pkLen
  else
    let half := p.lanes.length / 2
    let ls := match g with
      | 0 => p.lanes.map (fun v => (v.extractLsb' 0 16 ++ v.extractLsb' 16 16 : BitVec 32) ^^^ (if neg then 0x8000 else 0))
      | 1 => p.lanes.map (fun v =>
          (v.extractLsb' 16 8 ++ v.extractLsb' 24 8 ++ v.extractLsb' 0 8 ++ v.extractLsb' 8 8 : BitVec 32)
            ^^^ (if neg then 0x00800080 else 0))
      | 2 => swapPairs neg p.lanes
      | _ => (p.lanes.drop half).map (fun v => if neg then flipTop v else v) ++ p.lanes.take half
    pure { out := some { p with lanes := ls } }

/-! Folds (R352). -/

/-- One step of a fold on encodings: integers by their operation, floats under round_T with BLK, or FMIN and FMAX. -/
def foldStep (e : Env) (t : Ty) (op : Nat) (x y : Nat) : Nat × BitVec 32 :=
  if tyIsFloat t then
    match op with
    | 0 => roundRes e t e.rnd (fAdd (e.rnd == .rdn) (fv e t x) (fv e t y))
    | 1 => roundRes e t .rne (minMax false (fv e t x) (fv e t y))
    | _ => roundRes e t .rne (minMax true (fv e t x) (fv e t y))
  else
    match op with
    | 0 => wrapRes t (ival t x + ival t y)
    | 1 => (if ival t y < ival t x then y else x, 0)
    | 2 => (if ival t x < ival t y then y else x, 0)
    | 3 => (x &&& y, 0)
    | 4 => (x ||| y, 0)
    | _ => (x ^^^ y, 0)

/-- The running results of a fold from the left, and its flags. -/
def scanFrom (e : Env) (t : Ty) (op : Nat) : Nat → BitVec 32 → List Nat → List Nat × BitVec 32
  | s, fl, [] => ([s], fl)
  | s, fl, v :: vs =>
    let r := foldStep e t op s v
    let rest := scanFrom e t op r.1 (fl ||| r.2) vs
    (s :: rest.1, rest.2)

/-- The first running result of a fold: the value itself; of a float the value as a result of its type, a NaN canonical and a
subnormal flushed (R103, R114). -/
def scanFirst (e : Env) (t : Ty) (x : Nat) : Nat × BitVec 32 :=
  if tyIsFloat t then roundRes e t .rne (quiet (fv e t x)) else (x, 0)

/-- The checks and the running results of LRED and LSCAN. -/
def scanAll (f : Fn) (e : Env) : Except FCode (Ty × Nat × List Nat × BitVec 32) := do
  let (t, n, cols) ← gatherIf (fun t => !(tyIsFloat t) || fnSub f < 3) .fold f e [e.a]
  let vs := cols.headD []
  let x := scanFirst e t (vs.headD 0)
  let r := scanFrom e t (fnSub f) x.1 x.2 (vs.drop 1)
  pure (t, n, r.1, r.2)

def lredAct (f : Fn) (e : Env) : Except FCode Act := do
  let (t, _, ss, fl) ← scanAll f e
  pure { out := some (resPk e.a t (packLanes t (if tyIs64 t then 2 else 1) [ss.getLastD 0])), flags := fl }

def lscanAct (f : Fn) (e : Env) : Except FCode Act := do
  let (t, n, ss, fl) ← scanAll f e
  pure { out := some (resPk e.a t (packLanes t n ss)), flags := fl }

/-! SEQ, steering and merging. -/

/-- SEQT.cnt: SEQ := E, then E := E + 1 (R392). -/
def seqtCntAct (_f : Fn) (e : Env) : Except FCode Act :=
  .ok { out := some { keepPk e.a with seq := e.ctr }, ctr := some (e.ctr + 1) }
def seqtSetAct (_f : Fn) (e : Env) : Except FCode Act := do
  let v ← control 0xFFFF e.b
  pure { out := some { keepPk e.a with seq := BitVec.ofNat 16 v } }
def seqtGetAct (_f : Fn) (e : Env) : Except FCode Act :=
  .ok { out := some { word32 e.a (keepPk e.a).seq.toNat with kind := 0, sc := false, sce := 0 } }

/-- SPLT: stamped with E and sent through entry j of k (R393); its source is unscaled (R87). -/
def spltAct (f : Fn) (e : Env) : Except FCode Act := do
  let p ← plainPk e.a
  pure {
    out := some { p with seq := e.ctr }, via := some e.ptr, ctr := some (e.ctr + 1)
    ptr := some ((e.ptr + 1) % (fnIm f % 4 + 1)) }

/-- STEER: sent through entry i of k, i from a control operand (R396) (log 136: DEDUCED). -/
def steerAct (f : Fn) (e : Env) : Except FCode Act := do
  let (p, i) ← both (plainPk e.a) (control 3 e.b)
  if fnIm f % 4 < i then .error .bounds
  else pure { out := some p, via := some i }

/-- The next channel of a mask after one, in ascending order and wrapping (R360). -/
def nextChannel (mask c : Nat) : Nat :=
  (([c + 1, c + 2, c + 3, c + 4].map (· % 4)).find? (fun i => mask.testBit i)).getD c

/-- MRG: the packet of the channel taken, unchanged; E or the pointer moves on (R360, R361). -/
def mrgAct (f : Fn) (e : Env) : Except FCode Act :=
  if fnIm f / 16 % 2 == 1 then .ok { out := some (keepPk e.a), ptr := some (nextChannel (fnIm f % 16) e.ptr) }
  else .ok { out := some (keepPk e.a), ctr := some (e.ctr + 1) }

/-- JOIN: one permit packet (R349). -/
def joinAct (_f : Fn) (e : Env) : Except FCode Act :=
  .ok { out := some { kind := 3, tag := (hdrOf e.a).tag } }

/-- STSET and STXOR: bits of ST from a control operand (R398). -/
def stsetAct (f : Fn) (e : Env) : Except FCode Act := do
  let x ← control 0x3F e.a
  pure { stMask := BitVec.ofNat 6 (fnIm f), stVal := BitVec.ofNat 6 x }

/-! Bit-level instructions. -/

/-- An .n32 source of any length with SC = 0. -/
def wordsSrc (o : Operand) : Except FCode (List Lane) :=
  let p := rawPk o
  if !ownLenOk p then .error .pkLen else if !hasTy .n32 p then .error .fmt else if p.sc then .error .scaleTag else .ok p.lanes

/-- BSPL: n lanes, lane i the bit b + i of a's lane 0 (R329). -/
def bsplAct (f : Fn) (e : Env) : Except FCode Act := do
  let ls ← wordsSrc e.a
  let pos := fnIm f / 8
  let v := (ls.headD 0).toNat
  pure { out := some (words32 e.a ((List.range (fnIm f % 8 + 1)).map (fun i => v / 2 ^ (pos + i) % 2))) }

/-- BJN: b's lane with bits from pos on replaced by bit 0 of a's lanes (R329). -/
def bjnAct (f : Fn) (e : Env) : Except FCode Act :=
  let a := rawPk e.a
  let b := rawPk e.b
  let n := fnIm f % 8 + 1
  let pos := fnIm f / 8
  if a.lanes.length != n || b.lanes.length != 1 || !(ownLenOk a && ownLenOk b) then .error .pkLen
  else if !(hasTy .n32 a && hasTy .n32 b) then .error .fmt
  else if a.sc || b.sc then .error .scaleTag
  else
    let v := (b.lanes.headD 0).toNat
    let keep := v - (v / 2 ^ pos % 2 ^ n) * 2 ^ pos
    let ins := valsBits 1 (a.lanes.map (fun l => l.toNat % 2))
    .ok { out := some (word32 e.a (keep + ins * 2 ^ pos)) }

/-- The pins and cells of a LUT image over 64 input bits: bit s is what a select of s names (R193). -/
def lutCells : List (BitVec 16 × List Nat) → Nat → Nat → Nat
  | [], _, s => s
  | (tt, sel) :: cs, i, s =>
    let ix := valsBits 1 (sel.map (fun j => if s.testBit j then 1 else 0))
    lutCells cs (i + 1) (if tt.getLsbD ix then s + 2 ^ (64 + i) else s)

/-- 32 outputs of a LUT image for two input words (R193, R194). -/
def lutEval (m : LutImage) (hi : Bool) (a b : Nat) : Nat :=
  let s := lutCells m.cells 0 (a + 2 ^ 32 * b)
  valsBits 1 (((m.outs.drop (if hi then 32 else 0)).take 32).map (fun j => if s.testBit j then 1 else 0))

/-- LUTX (R356). -/
def lutxAct (f : Fn) (e : Env) : Except FCode Act := do
  let (_, n, cols) ← gather .int (.ty .n32 0) e [e.a, e.b]
  let img := e.lut.getD {}
  let r := eachVal (fun vs => (lutEval img (fnIm f == 1) (col vs 0) (col vs 1), 0)) cols
  pure { out := some (resPk e.a .n32 (packLanes .n32 n r.1)) }

/-- One round of Philox4x32 on a counter under a key (R125). -/
def philoxRound (c : Nat × Nat × Nat × Nat) (k : Nat × Nat) : Nat × Nat × Nat × Nat :=
  let p0 := 0xD2511F53 * c.1
  let p1 := 0xCD9E8D57 * c.2.2.1
  ((p1 / 2 ^ 32) ^^^ c.2.1 ^^^ k.1, p1 % 2 ^ 32, (p0 / 2 ^ 32) ^^^ c.2.2.2 ^^^ k.2, p0 % 2 ^ 32)

/-- The rounds of Philox4x32, the key stepped before every round but the first (R125). -/
def philox : Nat → Nat × Nat × Nat × Nat → Nat × Nat → Nat × Nat × Nat × Nat
  | 0, c, _ => c
  | n + 1, c, k => philox n (philoxRound c k) ((k.1 + 0x9E3779B9) % 2 ^ 32, (k.2 + 0xBB67AE85) % 2 ^ 32)

/-- The four output words of one counter (R125). -/
def philoxWords (c : List Nat) (k0 k1 : Nat) : List Nat :=
  let r := philox 10 (c.getD 0 0, c.getD 1 0, c.getD 2 0, c.getD 3 0) (k0, k1)
  [r.1, r.2.1, r.2.2.1, r.2.2.2]

/-- PHLX: one or two counters under the key K(2q), K(2q+1) (R372). -/
def phlxAct (f : Fn) (e : Env) : Except FCode Act :=
  let p := rawPk e.a
  let n := p.lanes.length
  if !(n == 4 || n == 8) || !ownLenOk p then .error .pkLen
  else if !hasTy .n32 p then .error .fmt
  else if p.sc then .error .scaleTag
  else
    let q := fnIm f / 32
    let k0 := (PMap.get e.k (2 * q)).toNat
    let k1 := (PMap.get e.k (2 * q + 1)).toNat
    let c := p.lanes.map BitVec.toNat
    .ok { out := some (words32 e.a (philoxWords (c.take 4) k0 k1 ++ (if n == 8 then philoxWords (c.drop 4) k0 k1 else []))) }

/-- RNGF: each lane x to (x >> 8) × 2^−24 (R126, R384). -/
def rngfAct (_f : Fn) (e : Env) : Except FCode Act := do
  let ls ← wordsSrc e.a
  let v := ls.map (fun l => (roundTy .f32 { rnd := .rne } false false (.fin false (l.toNat / 256) (-24))).1)
  pure { out := some (resPk e.a .f32 (v.map (BitVec.ofNat 32))) }

/-- MXTOK: the token of a constant template, ABASE and ACC replaced under .ovr (R364, R365). -/
def mxtokAct (f : Fn) (e : Env) : Except FCode Act := do
  let q := fnIm f / 32
  let hi := PMap.get e.k (2 * q)
  let lo := PMap.get e.k (2 * q + 1)
  let ovr := fnIm f / 16 % 2 == 1
  let v ← if ovr then control 0x1FFF e.a else pure 0
  if ovr && v / 4096 % 2 == 1 && (hi.extractLsb' 26 6) == 5 then .error .bounds
  else
    let lo' : Lane := if ovr then
        (BitVec.ofBool (v / 4096 % 2 == 1) ++ lo.extractLsb' 28 3 ++ BitVec.ofNat 12 (v % 4096) ++ lo.extractLsb' 0 16 : BitVec 32)
      else lo
    pure { out := some { resPk e.a .n64 [lo', hi] with kind := 2 } }

end Sys2Proof.Machine
end

