-- ==== Sys2Proof/Machine/Flow.lean ====
section
/-! DEFINITION. The meanings of the instructions that forward, steer, merge, number and end: FWD to BRK, the bit-level
instructions, and MXTOK. What each computes stands in LaneAct.lean. -/

namespace Sys2Proof.Machine

/-- FWD (R346). -/
def execFwd (o : Slot) (f : Fn) (s : State) : Host.Outcome State Fault Refusal := fire o f fwdAct s
/-- STEER (R396). -/
def execSteer (o : Slot) (f : Fn) (s : State) : Host.Outcome State Fault Refusal := fire o f steerAct s
/-- SPLT (R393). -/
def execSplt (o : Slot) (f : Fn) (s : State) : Host.Outcome State Fault Refusal := fire o f spltAct s
/-- JOIN (R349). -/
def execJoin (o : Slot) (f : Fn) (s : State) : Host.Outcome State Fault Refusal := fire o f joinAct s
/-- SEQT.cnt (R392). -/
def execSeqtCnt (o : Slot) (f : Fn) (s : State) : Host.Outcome State Fault Refusal := fire o f seqtCntAct s
/-- SEQT.set (R392). -/
def execSeqtSet (o : Slot) (f : Fn) (s : State) : Host.Outcome State Fault Refusal := fire o f seqtSetAct s
/-- SEQT.get (R392). -/
def execSeqtGet (o : Slot) (f : Fn) (s : State) : Host.Outcome State Fault Refusal := fire o f seqtGetAct s
/-- LUTX (R356). -/
def execLutx (o : Slot) (f : Fn) (s : State) : Host.Outcome State Fault Refusal := fire o f lutxAct s
/-- BSPL (R329). -/
def execBspl (o : Slot) (f : Fn) (s : State) : Host.Outcome State Fault Refusal := fire o f bsplAct s
/-- BJN (R329). -/
def execBjn (o : Slot) (f : Fn) (s : State) : Host.Outcome State Fault Refusal := fire o f bjnAct s
/-- PHLX (R372). -/
def execPhlx (o : Slot) (f : Fn) (s : State) : Host.Outcome State Fault Refusal := fire o f phlxAct s
/-- RNGF (R384). -/
def execRngf (o : Slot) (f : Fn) (s : State) : Host.Outcome State Fault Refusal := fire o f rngfAct s
/-- MXTOK (R364, R365). -/
def execMxtok (o : Slot) (f : Fn) (s : State) : Host.Outcome State Fault Refusal := fire o f mxtokAct s

/-- MRG: the firing dequeues one channel of its mask, the one that its mode names, and no other (R360). -/
def execMrg (o : Slot) (f : Fn) (s : State) : Host.Outcome State Fault Refusal :=
  let e := s.cur.1
  let n := s.cur.2
  match mrgChannel (s.elem e) n f with
  | none => .next s
  | some c =>
    let env := { s.envOf e n o f with a := heldOp (((s.elem e).ins.get c).q.head?), ptr := c }
    match (do let a ← mrgAct f env; s.leaving e (a.entries o) (fun s' => s'.complete e n o a)) with
    | .error x => .next (s.raiseSlot x e n)
    | .ok k => .next (k (s.trigger e n o (1#4 <<< c)))

/-- STSET (R398). -/
def execStset (o : Slot) (f : Fn) (s : State) : Host.Outcome State Fault Refusal := fire o f stsetAct s

/-- STXOR: flips bits of ST as the firing's next-state write leaves it (R398). -/
def execStxor (o : Slot) (f : Fn) (s : State) : Host.Outcome State Fault Refusal :=
  fireWith o f (fun _ e n env => (stsetAct f env).map (fun a s' =>
    s'.complete e n o { a with stVal := (s'.elem e).st ^^^ a.stVal })) s

/-- A firing that computes and sends nothing (R335). -/
def fireNone (o : Slot) (f : Fn) (s : State) : Host.Outcome State Fault Refusal :=
  fireWith o f (fun _ _ _ _ => .ok id) s

/-- NOP (R366). -/
def execNop (o : Slot) (f : Fn) (s : State) : Host.Outcome State Fault Refusal := fireNone o f s

/-- An exit counted in a frame (R339): at the exit count the frame enters draining (R52). -/
def Frame.exit (x : Frame) (code : Nat) : Frame :=
  let n := x.exits + 1
  { x with exits := n, code := max x.code code, st := if n == x.flags.exitc then .draining else x.st }

/-- EXIT (R339, R55): past the exit count it faults. -/
def execExit (o : Slot) (f : Fn) (s : State) : Host.Outcome State Fault Refusal :=
  fireWith o f (fun s e n _ =>
    let r := ekRegion e
    let frm := s.slotFrame e n
    if (s.frame r frm).exits == (s.frame r frm).flags.exitc then .error .bounds
    else .ok (fun s' => s'.modFrame r frm (fun x => x.exit (fnIm f)))) s

/-- BRK: its trigger effects stand, then it raises F_BRK (R331). -/
def execBrk (o : Slot) (f : Fn) (s : State) : Host.Outcome State Fault Refusal :=
  fireWith o f (fun _ e n _ => .ok (fun s' => s'.raiseSlot .brk e n)) s

/-- The operand of TRAP as DETAIL (R405). -/
def trapDetail (a : Operand) : Nat := lanesNat ((rawPk a).lanes.take 2)

/-- TRAP: its trigger effects stand, then it raises F_TRAP with its operand, which holds only its element (R405, R244). Its source
is checked as R84 and R87 have every source checked. -/
def execTrap (o : Slot) (f : Fn) (s : State) : Host.Outcome State Fault Refusal :=
  fireWith o f (fun _ e n env => do
    let _ ← plainPk env.a
    .ok (fun s' => s'.raiseTrap e n (trapDetail env.a))) s

/-- BND: the packet waits until what its release covers is performed at the tier named; of a tier below quad it leaves at once
(R330, R163). -/
def execBnd (o : Slot) (f : Fn) (s : State) : Host.Outcome State Fault Refusal :=
  fireWith o f (fun s e n env =>
    if fnIm f % 8 ≤ 1 then
      s.leaving e (entriesOf o.dt o.tt) (fun s' => s'.deliver e n (s'.slotFrame e n) o.dt o.tt (keepPk env.a))
    else .ok (fun s' =>
      let p := { keepPk env.a with cov := s'.live (s'.elem e).cov }
      let t := s'.retOf e n o p
      let s'' := s'.reserve e o.dt o.tt
      { s'' with bnds := s''.bnds ++ [(fnIm f % 8, p.cov, t)] })) s

end Sys2Proof.Machine
end

