-- ==== Sys2Proof/Machine/Flags.lean ====
section
/-! DEFINITION. The flags of ES (R69): sticky, set by arithmetic, cleared at the start of a pass and by a steward's write. The
flags that each operation raises are computed beside it (Numeric.lean, IntegerAct.lean, FloatAct.lean, QuantAct.lean). -/

namespace Sys2Proof.Machine

/-- The seven flags of ES; bits [31:7] read as zero (R69). -/
def esMask : BitVec 32 := 0x7F

/-- Flags added to an element's ES: a flag once set stays set (R69). -/
def Elem.addFlags (el : Elem) (fl : BitVec 32) : Elem := { el with es := el.es ||| (fl &&& esMask) }

/-- Flags added to the ES of an element of the machine. -/
def State.addFlags (s : State) (e : Nat) (fl : BitVec 32) : State := s.modElem e (fun el => el.addFlags fl)

/-- ES written by a steward's SCWR (R69, R390). -/
def Elem.writeFlags (el : Elem) (v : BitVec 32) : Elem := { el with es := v &&& esMask }

/-- ST written by a steward's SCWR (R68, R390). -/
def Elem.writeSt (el : Elem) (v : BitVec 32) : Elem := { el with st := v.setWidth 6 }

/-- What the start of a pass does to an element: ST and ES zero, D0 to D3 clear (R71). -/
def Elem.startPass (el : Elem) : Elem := { el with st := 0, es := 0, d := [] }

end Sys2Proof.Machine
end

