-- ==== Sys2Proof/Machine/Matrix.lean ====
section
/-! DEFINITION. Matrix nodes (R184 to R192, R362, R363): MXCFG, MXDRN, the commands of a node's queue, and what it sends. The node of a
command is `s.cur.1`, its anchor. -/

namespace Sys2Proof.Machine

/-! The node. -/

def State.node (s : State) (e : Nat) : Node := s.nodes.get e
def State.modNode (s : State) (e : Nat) (f : Node → Node) : State := { s with nodes := s.nodes.set e (f (s.node e)) }

/-- The constant K10, the notify entry and a route of a node. -/
def Node.k10 (n : Node) : Nat := (n.k.getD 0 0).toNat
def Node.nte (n : Node) : Bool := n.k10 / 2 ^ 13 % 2 == 1
def Node.scl (n : Node) : Bool := n.k10 / 64 % 2 == 1
def Node.notify (n : Node) : Lane := n.k.getD 1 0
def Node.route (n : Node) (i : Nat) : Lane := n.k.getD (2 + i) 0

/-- Accumulators of a node. -/
def Node.accs (n : Node) : Nat := 64 * n.size * n.size

/-- The element of accumulator a, and its bank entry (R184). -/
def accElem (e size a : Nat) : Nat := e + 8 * (a % (size * size) / size) + a % size
def accEntry (size a : Nat) : Nat := a / (size * size)

def State.nodeAcc (s : State) (e size a : Nat) : Acc := (s.elem (accElem e size a)).acc.get (accEntry size a)
def State.setNodeAcc (s : State) (e size a : Nat) (v : Acc) : State :=
  s.modElem (accElem e size a) (fun el => { el with acc := el.acc.set (accEntry size a) v })

/-- Accumulators written. -/
def State.putAccs (s : State) (e size : Nat) (vs : List (Nat × Acc)) : State :=
  vs.foldl (fun s x => s.setNodeAcc e size x.1 x.2) s

/-- A binding of a node's frame, as its commands read it. -/
def State.nodeView (s : State) (n : Node) (b : Nat) : BView :=
  { b := s.bnd n.rk n.frm b, ring := s.ringOf n.rk n.frm b, base := s.bndBase n.rk (s.bnd n.rk n.frm b) }

/-- The GPA of the first word with an uncorrectable error in the sub-buffers that a node reads (R242). -/
def State.nodeBad (s : State) (n : Node) : Nat :=
  let at' (b : Nat) : Option Nat :=
    let v := s.nodeView n b
    ((List.range (v.b.shape.sub / 8)).find? (fun i => s.eccBad (v.consAt (8 * i)) 8)).map (fun i => s.windowGpa (v.consAt (8 * i)))
  ([n.k10 % 8, n.k10 / 8 % 8, n.k10 / 128 % 8, n.k10 / 1024 % 8].findSome? at').getD 0

/-- A fault of a node (R192): against its anchor and MXCFG slot. -/
def State.nodeFault (s : State) (c : FCode) (e : Nat) : State :=
  let n := s.node e
  s.raiseAt c n.rk { s.recordAt c n.rk (s.frame n.rk n.frm).soff
    { ex := ekX e, ey := ekY e, slot := n.slot, frm := n.frm, eng := 0x30 } with src := 2, detail := if c == .ecc then s.nodeBad n else 0 }

/-- The writes that a command's token released. -/
def NodeCmd.cov : NodeCmd → List Nat
  | .tok p => p.cov
  | .drain _ _ _ _ _ _ _ _ => []

/-- The command at the head of a node's queue done: its consumption acquires what its token released (R158, R162). -/
def State.dropCmd (s : State) (e : Nat) : State :=
  (s.dropLines (s.node e).rk).modNode e (fun n => { n with
    cmds := n.cmds.drop 1, cov := (n.cov ++ n.cmds.head?.toList.flatMap NodeCmd.cov).eraseDups })

/-! MXCFG and MXDRN. -/

/-- MXCFG (R184, R362): forms the node; a route whose channel already has a feeder faults (R82) (log 38: DEDUCED). -/
def execMxcfg (o : Slot) (f : Fn) (s : State) : Host.Outcome State Fault Refusal :=
  fireWith o f (fun s e n env =>
    let el := s.elem e
    let size := 2 ^ (fnIm f % 4)
    let node : Node := { size := size, rk := ekRegion e, frm := s.slotFrame e n, slot := n,
                         k := [10, 11, 12, 13, 14, 15].map (fun i => el.k.get i), cov := s.live el.cov }
    let chans := (s.nodeChannels e node).eraseDups
    if (s.node e).k != [] || chans.any s.markedChannel then .error .bounds
    else s.leaving e (entriesOf o.dt o.tt) (fun s' =>
      let s' := chans.foldl (fun s c => s.modElem (c / 4) (fun el =>
        { el with ins := el.ins.modify (c % 4) (fun x => { x with mark := true }) })) s'
      ({ s' with nodes := s'.nodes.set e node } : State).complete e n o { out := some (word32 env.a size) })) s

/-- Rows and columns by their codes (R185, R190). -/
def tileDim (c : Nat) : Nat := 8 * 2 ^ c

/-- MXDRN (R190, R363): the drain enters the node's queue; while that holds 4 commands the firing waits. -/
def execMxdrn (o : Slot) (f : Fn) (s : State) : Host.Outcome State Fault Refusal :=
  if 4 ≤ (s.node s.cur.1).cmds.length then .next s
  else fireWith o f (fun s e n env => do
    let a := rawPk env.a
    pkChecks [{ pk := a, len := 2, fmtOk := hasTy .n32 a }]
    let node := s.node e
    let route := (a.lanes.getD 0 0).toNat
    let w := (a.lanes.getD 1 0).toNat
    let mc := w % 4
    let nc := w / 4 % 4
    let abase := w / 16 % 2 ^ 12
    let rnd := w / 2 ^ 21 % 8
    if node.k == [] then .error .bounds
    else if 3 < route || 2 ^ 25 ≤ w || 6 ≤ rnd || (drainTy (w / 2 ^ 16 % 32)).isNone then .error .illegal
    else if node.accs < abase + tileDim mc * tileDim nc then .error .bounds
    else .ok (fun s' => (s'.reserve e o.dt o.tt).modNode e (fun x => { x with
      cov := (x.cov ++ s'.live (s'.elem e).cov).eraseDups
      cmds := x.cmds ++ [.drain route mc nc abase (w / 2 ^ 16 % 32) rnd (w / 2 ^ 24 % 2 == 1) (s'.retOf e n o (hdrOf env.a))] }))) s

/-! Operands. -/

/-- A node's read of n bytes of a binding (R188): a stream read, or a read from byte 0 that changes nothing; none while the
sub-buffer is neither FULL nor DRAINING. -/
def State.nodeRead (s : State) (n : Node) (b len : Nat) : Except (Option FCode) (State × List Byte) :=
  let v := s.nodeView n b
  let off := if v.b.shape.mode == 0 then v.ring.ccur else 0
  if notReadable v.ring.atCons.st || s.bufHidden (rkDie n.rk) (some n.rk) (v.consAt off) len then .error none
  else if v.ring.atCons.mark < off + len then .error (some .bounds)
  else if s.bufMarked v.b (v.consAt off) len then .error (some .align)
  else if s.eccBad (v.consAt off) len then .error (some .ecc)
  else
    let bs := if v.tile then memBytes s.mem (v.consAt off) len else s.nearBytes (rkDie n.rk) (some n.rk) (v.consAt off) len
    if v.b.shape.mode == 0 then
      .ok ((s.setRing n.rk n.frm b (v.ring.streamRead v.b.shape.depth (len / 4))).modBnd n.rk n.frm b
        (fun y => { y with ahead := y.ahead - len / 4 }), bs)
    else .ok (s, bs)

/-- Values of b bits from a byte string (R109). -/
def valuesOf (b n : Nat) (bs : List Byte) : List Nat := bitVals b n (bytesVal bs)

/-! Compressed weights (R189). -/

/-- The pattern of NMS: marks in each row and column, and the block's side. -/
def patternOf (nms : Nat) : Nat × Nat :=
  match nms with
  | 0 => (1, 4)
  | 1 => (2, 4)
  | 2 => (2, 8)
  | _ => (4, 8)

/-- The bytes of a block's bitmap, and of a whole block. -/
def blockBits (nms : Nat) : Nat := (patternOf nms).2 * (patternOf nms).2 / 8
def blockBytes (nms b : Nat) : Nat := blockBits nms + ((patternOf nms).1 * (patternOf nms).2 * b + 7) / 8

/-- Has a bitmap its marks in every row and column? -/
def bitmapOk (nms m : Nat) : Bool :=
  let g := (patternOf nms).2
  let bit (r c : Nat) : Nat := m / 2 ^ (g * r + c) % 2
  (List.range g).all (fun i =>
    (List.range g).foldl (fun a j => a + bit i j) 0 == (patternOf nms).1
      && (List.range g).foldl (fun a j => a + bit j i) 0 == (patternOf nms).1)

/-- The values of a block at its marked positions, by position; zero elsewhere. -/
def blockValues (nms b : Nat) (bs : List Byte) : List Nat :=
  let g := (patternOf nms).2
  let m := bytesVal (bs.take (blockBits nms))
  let vs := valuesOf b ((patternOf nms).1 * g) (bs.drop (blockBits nms))
  ((List.range (g * g)).foldl (fun (acc : List Nat × Nat) i =>
    if m / 2 ^ i % 2 == 1 then (acc.1 ++ [vs.getD acc.2 0], acc.2 + 1) else (acc.1 ++ [0], acc.2)) ([], 0)).1

/-- The weight at row r and column c of the stored matrix, of so many columns. -/
def weightAt (nms b cols : Nat) (bs : List Byte) (r c : Nat) : Nat :=
  let g := (patternOf nms).2
  let blk := r / g * (cols / g) + c / g
  (blockValues nms b ((bs.drop (blk * blockBytes nms b)).take (blockBytes nms b))).getD (g * (r % g) + c % g) 0

/-- Are all bitmaps of n blocks whole? -/
def weightsOk (nms b n : Nat) (bs : List Byte) : Bool :=
  (List.range n).all (fun i => bitmapOk nms (bytesVal ((bs.drop (i * blockBytes nms b)).take (blockBits nms))))

/-! The commands. -/

/-- The checks of R192 on a multiply command, after the shape: the formats (log 68: DEDUCED). -/
def mulFmts (opc : Nat) (fcw : BitVec 32) (t : MTok) : Option (MFmt × MFmt) :=
  let mode := fcwMode fcw
  let eff := if opc == 2 then (if mode == 2 then 3 else 1) else opc
  let modeOk := match eff with | 1 => mode == 1 | 3 => mode == 2 | _ => mode == 0
  match mfmtOf t.fa.toNat, mfmtOf t.fb.toNat with
  | some a, some b =>
    if modeOk && mfmtAllowed opc t.fa.toNat && mfmtAllowed opc t.fb.toNat && mfmtAllowed eff t.fa.toNat && mfmtAllowed eff t.fb.toNat
        && a.width ≤ fcwA fcw && b.width ≤ fcwB fcw
        && (mode != 0 || (fcw.getLsbD 21 == a.signed && fcw.getLsbD 22 == b.signed)) then some (a, b)
    else none
  | _, _ => none

/-- Does a command run with scales? -/
def isScaled (opc : Nat) (fcw : BitVec 32) : Bool := opc == 3 || (opc == 2 && fcwMode fcw == 2)

/-- The checks of R192, in its order (log 68: DEDUCED). -/
def nodeCheck (n : Node) (fcw : BitVec 32) (opc : Nat) (t : MTok) : Except FCode Unit :=
  if !(tokShape opc t) || (t.ntf && !n.nte) then .error .illegal
  else if (match opc with
      | 5 => false
      | 6 => !(tokFmts 6 t)
      | _ => (mulFmts opc fcw t).isNone) then .error .fmt
  else if n.accs < t.abase.toNat + tileDim t.mc.toNat * tileDim t.nc.toNat then .error .bounds
  else if 1 ≤ opc && opc ≤ 3 && isScaled opc fcw != n.scl then .error .scaleTag
  else .ok ()

/-- One accumulator of a multiply command: the K-blocks in order (R117 to R120). -/
def dotAccum (integer : Bool) (ftz inf8 : Bool) (a b : MFmt) (size : Nat) (scales : List (Nat × Nat)) :
    Nat → Acc → List (Nat × Nat) → Acc × BitVec 32
  | blk, acc, ps =>
    let parts := blocksOf size ps.length ps
    let step (x : (Acc × BitVec 32) × Nat) (part : List (Nat × Nat)) : (Acc × BitVec 32) × Nat :=
      let sc := scales.getD (x.2 * size / 32) (127, 127)
      let r := if integer then accumBlockInt x.1.1 (part.map (fun p => (a.int p.1, b.int p.2)))
        else accumBlock x.1.1 (part.map (fun p => (a.val ftz inf8 p.1, b.val ftz inf8 p.2)))
          ((sc.1 : Int) + (sc.2 : Int) - 254) (sc.1 == 0xFF || sc.2 == 0xFF)
      ((r.1, x.1.2 ||| r.2), x.2 + 1)
    (parts.foldl step ((acc, 0), blk)).1

/-- What a multiply command has read. -/
structure MulIn where
  a : MFmt
  b : MFmt
  va : List Nat
  vb : List Byte
  sa : List Byte
  sb : List Byte

/-- Bytes of operand A, and of operand B. -/
def bytesA (t : MTok) (a : MFmt) : Nat := tileDim t.mc.toNat * (32 * t.kb.toNat) * a.bits / 8
def bytesB (opc : Nat) (t : MTok) (b : MFmt) : Nat :=
  let n := tileDim t.nc.toNat
  let k := 32 * t.kb.toNat
  if opc == 2 then
    let g := (patternOf t.nms.toNat).2
    n * k / (g * g) * blockBytes t.nms.toNat b.bits
  else n * k * b.bits / 8

/-- The operands of a multiply command read, each from its binding (R188). -/
def State.readOperands (s : State) (n : Node) (opc : Nat) (t : MTok) (fcw : BitVec 32) (a b : MFmt) :
    Except (Option FCode) (State × MulIn) := do
  let k10 := n.k10
  let (s, xa) ← s.nodeRead n (k10 % 8) (bytesA t a)
  let (s, xb) ← s.nodeRead n (k10 / 8 % 8) (bytesB opc t b)
  let va := valuesOf a.bits (tileDim t.mc.toNat * (32 * t.kb.toNat)) xa
  if isScaled opc fcw then
    let (s, sa) ← s.nodeRead n (k10 / 128 % 8) (tileDim t.mc.toNat * t.kb.toNat)
    let (s, sb) ← s.nodeRead n (k10 / 1024 % 8) (tileDim t.nc.toNat * t.kb.toNat)
    .ok (s, { a := a, b := b, va := va, vb := xb, sa := sa, sb := sb })
  else .ok (s, { a := a, b := b, va := va, vb := xb, sa := [], sb := [] })

/-- Element B[k][j] of a multiply command (R188, R189). -/
def MulIn.valueB (m : MulIn) (opc : Nat) (t : MTok) (dense : List Nat) (k j : Nat) : Nat :=
  if opc == 2 then
    if t.tr then weightAt t.nms.toNat m.b.bits (tileDim t.nc.toNat) m.vb k j
    else weightAt t.nms.toNat m.b.bits (32 * t.kb.toNat) m.vb j k
  else dense.getD (j * (32 * t.kb.toNat) + k) 0

/-- The accumulators and flags of a multiply command (R187). -/
def State.mulTile (s : State) (e : Nat) (n : Node) (opc : Nat) (t : MTok) (m : MulIn) (integer ftz inf8 : Bool) :
    List (Nat × Acc) × BitVec 32 :=
  let rows := tileDim t.mc.toNat
  let cols := tileDim t.nc.toNat
  let kk := 32 * t.kb.toNat
  let size := kBlock m.a.ktype m.b.ktype
  let dense := if opc == 2 then [] else valuesOf m.b.bits (cols * kk) m.vb
  let colB := (List.range cols).map (fun j => (List.range kk).map (fun k => m.valueB opc t dense k j))
  let one (i j : Nat) : Nat × Acc × BitVec 32 :=
    let x := t.abase.toNat + i * cols + j
    let start : Acc := if t.acc then s.nodeAcc e n.size x else 0
    let ps := ((m.va.drop (i * kk)).take kk).zip (colB.getD j [])
    let scs := (List.range t.kb.toNat).map (fun b =>
      ((m.sa.getD (i * t.kb.toNat + b) 127).toNat, (m.sb.getD (j * t.kb.toNat + b) 127).toNat))
    let r := dotAccum integer ftz inf8 m.a m.b size (if m.sa.isEmpty then [] else scs) 0 start ps
    (x, r.1, r.2)
  let all := (List.range rows).flatMap (fun i => (List.range cols).map (fun j => one i j))
  (all.map (fun x => (x.1, x.2.1)), all.foldl (fun f x => f ||| x.2.2) 0)

/-- The end of a command: its head leaves the queue, its flags go to the anchor, and its notify token is to be sent (R187, R191)
(log 67: DEDUCED). -/
def State.endCmd (s : State) (e : Nat) (t : MTok) (fl : BitVec 32) : State :=
  let s := (s.dropCmd e).addFlags e fl
  let cov := s.live (s.node e).cov
  if t.ntf then s.modNode e (fun n => { n with sends := n.sends ++
      [({ lanes := [BitVec.ofNat 32 t.abase.toNat], cov := cov }, n.notify)] }) else s

/-- May the node of a command act: it exists, its region moves, and nothing it has to send waits? (log 67: DEDUCED) -/
def State.nodeFree (s : State) (e : Nat) : Bool :=
  let n := s.node e
  n.k != [] && s.moving n.rk && n.sends.isEmpty && n.result.isNone

/-- A multiply command (R187 to R189). -/
def mulCmd (opc : Nat) (t : MTok) (s : State) : Host.Outcome State Fault Refusal :=
  let e := s.cur.1
  let n := s.node e
  let fcw := (s.elem e).fcw
  if !(s.nodeFree e) then .next s
  else match nodeCheck n fcw opc t, mulFmts opc fcw t with
    | .error c, _ => .next ((s.nodeFault c e).dropCmd e)
    | .ok _, none => .next ((s.nodeFault .fmt e).dropCmd e)
    | .ok _, some (a, b) =>
      match s.readOperands n opc t fcw a b with
      | .error none => .next s
      | .error (some c) => .next ((s.nodeFault c e).dropCmd e)
      | .ok (s', m) =>
        let g := (patternOf t.nms.toNat).2
        if opc == 2 && !(weightsOk t.nms.toNat b.bits (tileDim t.nc.toNat * (32 * t.kb.toNat) / (g * g)) m.vb) then
          .next ((s.nodeFault .illegal e).dropCmd e)
        else
          let fr := s.frame n.rk n.frm
          let r := s.mulTile e n opc t m (fcwMode fcw == 0) fr.flags.ftz fr.flags.inf8
          .next (((s'.putAccs e n.size r.1).endCmd e t r.2).touch n.rk)

/-- MMA (R187). -/
def execMma (t : MTok) (s : State) : Host.Outcome State Fault Refusal := mulCmd 1 t s
/-- MMAS (R187, R189). -/
def execMmas (t : MTok) (s : State) : Host.Outcome State Fault Refusal := mulCmd 2 t s
/-- MMSC (R187). -/
def execMmsc (t : MTok) (s : State) : Host.Outcome State Fault Refusal := mulCmd 3 t s
/-- MMI (R187, R119). -/
def execMmi (t : MTok) (s : State) : Host.Outcome State Fault Refusal := mulCmd 4 t s

/-- The accumulators of a command's tile. -/
def tileAccs (t : MTok) : List Nat :=
  (List.range (tileDim t.mc.toNat * tileDim t.nc.toNat)).map (fun i => t.abase.toNat + i)

/-- MZERO (R187) (log 33: DEDUCED). -/
def execMzero (t : MTok) (s : State) : Host.Outcome State Fault Refusal :=
  let e := s.cur.1
  let n := s.node e
  if !(s.nodeFree e) then .next s
  else match nodeCheck n (s.elem e).fcw 5 t with
    | .error c => .next ((s.nodeFault c e).dropCmd e)
    | .ok _ => .next (((s.putAccs e n.size ((tileAccs t).map (fun a => (a, 0)))).endCmd e t 0).touch n.rk)

/-- The integer that a number is exactly; none for a fraction, an infinity or a NaN. -/
def exactInt : FVal → Option Int
  | .fin neg m x =>
    let v : Int := (m * 2 ^ x.toNat / 2 ^ (-x).toNat : Nat)
    if m * 2 ^ x.toNat % 2 ^ (-x).toNat == 0 then some (if neg then -v else v) else none
  | _ => none

/-- A value that MLDM loads or adds in the form of the node's EMODE (R187, R111): an integer under integer EMODE, A96 otherwise. A
binary32 value that is no integer has no exact conversion under integer EMODE, and leaves a free value (log 68: DEDUCED). -/
def loadAcc (f : MFmt) (integer ftz inf8 add : Bool) (old : Acc) (x : Nat) : Acc × BitVec 32 :=
  if integer then
    match (if f == .ty .f32 then exactInt (f.val ftz inf8 x) else some (f.int x)) with
    | some v => intAcc (if add then accInt old + v else v)
    | none => (Config.loadOpen (BitVec.ofNat 32 x) old, flagIf (isSnan (f.val ftz inf8 x)) esNV)
  else
    let v := f.val ftz inf8 x
    if add then
      let y := fAdd false (a96Val old) v
      let r := a96Round y.1
      (r.1, r.2 ||| flagIf y.2 esNV)
    else a96Round v

/-- MLDM (R187) (log 33: DEDUCED; log 68: DEDUCED). -/
def execMldm (t : MTok) (s : State) : Host.Outcome State Fault Refusal :=
  let e := s.cur.1
  let n := s.node e
  let fcw := (s.elem e).fcw
  if !(s.nodeFree e) then .next s
  else match nodeCheck n fcw 6 t, mfmtOf t.fa.toNat with
    | .error c, _ => .next ((s.nodeFault c e).dropCmd e)
    | .ok _, none => .next ((s.nodeFault .fmt e).dropCmd e)
    | .ok _, some f =>
      match s.nodeRead n (n.k10 % 8) (4 * (tileAccs t).length) with
      | .error none => .next s
      | .error (some c) => .next ((s.nodeFault c e).dropCmd e)
      | .ok (s', bs) =>
        let fr := s.frame n.rk n.frm
        let rs := ((tileAccs t).zip (valuesOf 32 (tileAccs t).length bs)).map (fun x =>
          (x.1, loadAcc f (fcwMode fcw == 0) fr.flags.ftz fr.flags.inf8 t.acc (s.nodeAcc e n.size x.1) x.2))
        .next (((s'.putAccs e n.size (rs.map (fun x => (x.1, x.2.1)))).endCmd e t (rs.foldl (fun fl x => fl ||| x.2.2) 0)).touch n.rk)

/-! Drains (R190). -/

/-- One accumulator drained to a type (log 67: DEDUCED). -/
def drainVal (t : Ty) (integer : Bool) (r : Rnd) (ftz inf8 : Bool) (x : Acc) : Nat × BitVec 32 :=
  if integer then
    (if tyIsInt t then satRes t (accInt x) else roundTy t { rnd := r } ftz inf8 (ofInt (accInt x) 0 false))
  else roundTy t { rnd := r } ftz inf8 (a96Val x)

/-- A list in packets of at most 8 lanes. -/
def lanePackets (ls : List Lane) : List (List Lane) := blocksOf 8 ls.length ls

/-- The packets of one row. -/
def rowPackets (t : Ty) (rows i : Nat) (cov : List Nat) (vs : List Nat) : List Packet :=
  let parts := lanePackets (packVals t vs)
  (List.range parts.length).map (fun p =>
    { fmt := tyFmt t, fpx := tyFpx t, seq := BitVec.ofNat 16 i, lanes := parts.getD p [], cov := cov,
      eof := if p + 1 == parts.length then (if i + 1 == rows then 2 else 1) else 0 })

/-- A drain at the head of the queue carried out: its packets are to be sent, then its result (R190, R363). -/
def State.startDrain (s : State) (e : Nat) (n : Node) (route mc nc abase fmt rnd : Nat) (zero : Bool) (ret : Ret) : State :=
  let fr := s.frame n.rk n.frm
  let t := (drainTy fmt).getD .n32
  let r := match rndOfCode rnd with | some .blk => fr.flags.rnd | some x => x | none => .rne
  let rows := tileDim mc
  let cols := tileDim nc
  let vals := (List.range rows).map (fun i => (List.range cols).map (fun j =>
    drainVal t (fcwMode (s.elem e).fcw == 0) r fr.flags.ftz fr.flags.inf8 (s.nodeAcc e n.size (abase + i * cols + j))))
  let cov := s.live (s.node e).cov
  let pks := (List.range rows).flatMap (fun i => rowPackets t rows i cov ((vals.getD i []).map (fun x => x.1)))
  let fl := vals.foldl (fun f row => row.foldl (fun f x => f ||| x.2) f) 0
  let s := if zero then s.putAccs e n.size ((List.range (rows * cols)).map (fun i => (abase + i, 0))) else s
  ((s.dropCmd e).addFlags e fl).modNode e (fun x => { x with
    sends := pks.map (fun p => (p, n.route route)), result := some (ret, pks.length) })

/-- The result of a drain once its last packet has left (R363). -/
def State.endDrain (s : State) (e : Nat) (ret : Ret) (k : Nat) : State :=
  ((s.modNode e (fun x => { x with result := none })).answer ret
    (resPk (.pkt ret.hdr) .n32 [BitVec.ofNat 32 k]))

/-- A packet of a node sent through a route or notify entry, whether or not its V is set: into the network when its
channel has room (R184); towards a die that is not ACTIVE it is discarded and F_QUARANTINE raised (R58), and one that leaves the region
has passed no BND (R163) (log 109: DESIGN CHOICE). -/
def State.nodeSend (s : State) (e : Nat) (p : Packet) (w : Lane) (rest : List (Packet × Lane)) : State :=
  let n := s.node e
  let s' := s.modNode e (fun x => { x with sends := rest })
  match s.destOf e w with
  | none => s'.nodeFault .bounds e
  | some d =>
    match s.sendStop e d with
    | some c => s'.nodeFault c e
    | none =>
      if 1 < s.entryScope (ekRegion e) (ekIdx e) w then s'.nodeFault .scope e
      else if !(s.consumerFree d p) then s.refuse d
      else { s' with net := s'.net ++ [{ pkt := tagged w p, src := some (e, 8), slot := n.slot, rk := n.rk, frm := n.frm, dst := d }] }

/-- NODE_ROUTE_SEND: a node sends its next packet, or begins the drain at the head of its queue, or answers the drain whose packets
have left (R184, R190, R191, R363). -/
def execNodeRouteSend (e : Nat) (s : State) : Host.Outcome State Fault Refusal :=
  let n := s.node e
  if n.k == [] || !(s.moving n.rk) then .next s
  else match n.sends, n.result with
    | (p, w) :: rest, _ => .next ((s.nodeSend e p w rest).touch n.rk)
    | [], some (ret, k) => .next ((s.endDrain e ret k).touch n.rk)
    | [], none =>
      match n.cmds with
      | .drain route mc nc abase fmt rnd zero ret :: _ => .next ((s.startDrain e n route mc nc abase fmt rnd zero ret).touch n.rk)
      | _ => .next s

/-- A control token that no command decodes: faulted at the node and dropped (R185, R187, R192). -/
def State.badToken (s : State) (e : Nat) (c : FCode) : State := (s.nodeFault c e).dropCmd e

/-- The word of a control token, or its fault (R185). -/
def tokenWord (p : Packet) : Except FCode Dword :=
  if p.lanes.length != 2 then .error .pkLen
  else if !(hasTy .n64 p) then .error .fmt
  else .ok (BitVec.ofNat 64 (lanesNat p.lanes))

end Sys2Proof.Machine
end

