-- ==== Sys2Proof/Machine/MergeOps.lean ====
section
/-! DEFINITION. Merge islands (R195 to R208, R214 to R218): sessions, leaf packets, the merger tree, the combine unit, spilled runs,
output packets; and the merge instructions. -/

namespace Sys2Proof.Machine

/-! Configuration (R197). -/

def Merge.lane0 (m : Merge) (lo n : Nat) : Nat := (m.cfg.getD 0 0).toNat / 2 ^ lo % 2 ^ n
def Merge.accum (m : Merge) : Bool := m.lane0 30 2 == 1
def Merge.desc (m : Merge) : Bool := m.lane0 29 1 == 1
def Merge.cmb (m : Merge) : Nat := m.lane0 25 4
def Merge.kwid (m : Merge) : Nat := m.lane0 18 7
def Merge.vt (m : Merge) : Nat := m.lane0 15 3
def Merge.lmsk (m : Merge) : Nat := (m.cfg.getD 1 0).toNat % 2 ^ 16
def Merge.oroute (m : Merge) : Lane := m.cfg.getD 2 0

/-- The leaves in use. -/
def Merge.used (m : Merge) : List Nat := (List.range 16).filter (fun l => m.lmsk / 2 ^ l % 2 == 1)

/-- Words of a stored value, and of an emitted one (R204, R207). -/
def Merge.heldWords (m : Merge) : Nat := if m.cmb == 2 then 3 else if m.cmb == 7 then 1 else m.valWords
def Merge.outWords (m : Merge) : Nat := if m.cmb == 2 || m.cmb == 7 then 1 else m.valWords

/-- The reserved bits, codes and ranges of a configuration, and what CMB asks of VT (R197, R198) (log 67: DEDUCED). -/
def mergeCfgOk (m : Merge) : Bool :=
  m.lane0 0 11 == 0 && m.oroute.extractLsb' 28 3 == 0 && m.lane0 30 2 < 2 && m.cmb < 8 && 16 ≤ m.kwid && m.kwid ≤ 64 && m.vt < 6 && m.lane0 11 4 ≤ 6
    && (m.cfg.getD 1 0).toNat < 2 ^ 16 && m.lmsk != 0
    && (if m.cmb == 1 || m.cmb == 2 then m.vt == 3 else if m.cmb == 7 then m.vt == 0
        else if m.cmb == 3 || m.cmb == 4 then 1 ≤ m.vt else true)

/-! Islands. -/

def State.merge (s : State) (d q : Nat) : Merge := (s.die d).merges.get q
def State.modMerge (s : State) (d q : Nat) (f : Merge → Merge) : State :=
  s.modDie d (fun x => { x with merges := x.merges.modify q f })
def State.setMerge (s : State) (d q : Nat) (m : Merge) : State := s.modMerge d q (fun _ => m)

/-- Does a partition hold quad q of a region's die (R195)? -/
def State.holdsQuad (s : State) (r q : Nat) : Bool :=
  !(isStw r) && ([0, 1, 4, 5].map (fun k => rkOf (rkDie r) (8 * (q / 2) + 2 * (q % 2) + k))).all (fun x => s.pidOf x == s.pidOf r)

/-- The channel that OROUTE names, as 4 × element key + channel, where it is one a session may use (R198). -/
def State.mergeChannel (s : State) (m : Merge) : Option Nat :=
  let w := m.oroute
  if !(tValid w) || w.extractLsb' 28 3 != 0 || tFld w != 3 || 3 < tPort w || tSlot w != 0 then none
  else match s.hop m.e (tDx w) (tDy w) with
    | none => none
    | some c =>
      let r := ekRegion c
      if rkDie r == rkDie m.rk && s.pidOf r == s.pidOf m.rk && !(s.region r).dark then some (4 * c + tPort w) else none

/-- The quadrant of a merge instruction. -/
def mgQuad (f : Fn) : Nat := fnIm f % 4
def mgsplQuad (f : Fn) : Nat := fnIm f / 8 % 4

/-- Does the firing's frame hold an open session on an island (R215)? -/
def State.mergeHeld (s : State) (e n q : Nat) : Bool :=
  let m := s.merge (ekDie e) q
  m.opened && m.rk == ekRegion e && m.frm == s.slotFrame e n

/-- MGOPEN (R198, R215) (log 69: DEDUCED). -/
def execMgopen (o : Slot) (f : Fn) (s : State) : Host.Outcome State Fault Refusal :=
  fireWith o f (fun s e n env =>
    let a := rawPk env.a
    let r := ekRegion e
    let q := mgQuad f
    let m : Merge := { opened := true, rk := r, frm := s.slotFrame e n, e := e, slot := n, pid := (s.pidOf r).getD 255,
                       lnch := (s.region r).lnch, cfg := a.lanes }
    if a.lanes.length != 3 then .error .pkLen
    else if !(hasTy .n32 a) then .error .fmt
    else if a.sc then .error .scaleTag
    else if !(mergeCfgOk m) then .error .illegal
    else match s.mergeChannel m with
      | none => .error .bounds
      | some c =>
        if s.markedChannel c || !(s.holdsQuad r q) || (s.merge (ekDie e) q).opened then .error .bounds
        else s.leaving e (entriesOf o.dt o.tt) (fun s' =>
          ((s'.modElem (c / 4) (fun el => { el with ins := el.ins.modify (c % 4) (fun x => { x with mark := true }) })).setMerge
            (ekDie e) q m).complete e n o { out := some (word32 env.a 0) })) s

/-- A session ended: its mark is cleared, its records in the ring are freed, the island is closed (R198, R215, R216). -/
def State.endSession (s : State) (d q : Nat) : State :=
  let m := s.merge d q
  let s := s.unmark (Merge.mark s m)
  let s := s.ringFreeAll m.pid ((m.runs.flatMap (fun r => r.segs) ++ m.segs ++ m.pass).map (fun x => x.1))
  s.modDie d (fun x => { x with merges := x.merges.set q {} })

/-- Have all leaves in use sent the end of their streams (R201)? (log 69: DEDUCED) -/
def Merge.ended (m : Merge) : Bool := m.used.all (fun l => (m.leaves.get l).sent3)

/-- MGCLOSE (R215). -/
def execMgclose (o : Slot) (f : Fn) (s : State) : Host.Outcome State Fault Refusal :=
  fireWith o f (fun s e n env =>
    let d := ekDie e
    let q := mgQuad f
    let m := s.merge d q
    if !(s.mergeHeld e n q) then .error .bounds
    else if m.ended && !m.sentEnd then
      .ok (fun s' => (s'.reserve e o.dt o.tt).modMerge d q (fun x => { x with closing := x.closing ++ [s'.retOf e n o (hdrOf env.a)] }))
    else s.leaving e (entriesOf o.dt o.tt) (fun s' => (s'.endSession d q).complete e n o { out := some (word32 env.a m.fibre) })) s

/-- MGSPL on an island: a flag of its session (R215). -/
def mgspl (o : Slot) (f : Fn) (g : Merge → Merge) (s : State) : Host.Outcome State Fault Refusal :=
  fireWith o f (fun s e n env =>
    let q := mgsplQuad f
    if !(s.mergeHeld e n q) then .error .bounds
    else s.leaving e (entriesOf o.dt o.tt) (fun s' => (s'.modMerge (ekDie e) q g).complete e n o { out := some (word32 env.a 0) })) s

/-- MGSPL ALLOW (R215). -/
def execMgsplAllow (o : Slot) (f : Fn) (s : State) : Host.Outcome State Fault Refusal :=
  mgspl o f (fun m => { m with forbid := false }) s
/-- MGSPL FORBID (R215). -/
def execMgsplForbid (o : Slot) (f : Fn) (s : State) : Host.Outcome State Fault Refusal :=
  mgspl o f (fun m => { m with forbid := true }) s
/-- MGSPL FORCE (R215) (log 70: DEDUCED). -/
def execMgsplForce (o : Slot) (f : Fn) (s : State) : Host.Outcome State Fault Refusal :=
  mgspl o f (fun m => if m.accum && !m.spilled then { m with force := true } else m) s

/-- MGSPL XQREG (R212, R215) (log 61: DEDUCED; log 117: DESIGN CHOICE). -/
def execMgsplXqreg (o : Slot) (f : Fn) (s : State) : Host.Outcome State Fault Refusal :=
  fireWith o f (fun s e n env => do
    let a := rawPk env.a
    pkChecks [{ pk := a, len := 2, fmtOk := hasTy .n32 a }]
    let r := ekRegion e
    let w := (a.lanes.getD 0 0).toNat
    let dwe := (a.lanes.getD 1 0).toNat
    let k := bufferKey r (if w / 1024 % 2 == 0 then 1 else 2) (w % 1024)
    let d := s.descs.get k
    let stream := match d.shape with | some h => h.mode == 0 | none => false
    if 2048 ≤ w || dwe < 8 || 20 < dwe || (w / 1024 == 0 && 256 ≤ w) || !stream || d.xq.isSome || d.pid != (s.pidOf r).getD 255 then
      .error .illegal
    else s.leaving e (entriesOf o.dt o.tt) (fun s' =>
      let x : XQueue := { pid := d.pid, lnch := (s.region r).lnch, rk := r, frm := s.slotFrame e n, e := e, slot := n, no := s'.nextId, dwe := dwe }
      (({ s' with descs := s'.descs.modify k (fun y => { y with xq := some x }) } : State).fresh).complete e n o
        { out := some (word32 env.a 0) })) s

/-- MGSPL XQDEL (R215) (log 61: DEDUCED; log 115: DESIGN CHOICE). -/
def execMgsplXqdel (o : Slot) (f : Fn) (s : State) : Host.Outcome State Fault Refusal :=
  fireWith o f (fun s e n env =>
    let r := ekRegion e
    let frm := s.slotFrame e n
    let mine := s.descs.any (fun d => match d.2.xq with | some x => x.ofFrame r frm | none => false)
    if !mine then s.leaving e (entriesOf o.dt o.tt) (fun s' => s'.complete e n o { out := some (word32 env.a 0) })
    else .ok (fun s' =>
      let ret := s'.retOf e n o (hdrOf env.a)
      let mark (x : XQueue) : XQueue := if x.ofFrame r frm then { x with closing := x.closing ++ [ret] } else x
      let t := s'.reserve e o.dt o.tt
      ({ t with descs := t.descs.map (fun d : Nat × Desc => (d.1, { d.2 with xq := d.2.xq.map mark })) } : State).closeQueues r frm)) s

/-- Does an island re-merge the runs of a fibre: at the fibre's end, or because its table is full (R206, R207, R218)? -/
def Merge.remerging (m : Merge) : Bool := m.remerge || 4096 ≤ m.runs.length || !m.pass.isEmpty

/-- A mask of the leaves in use that pass a test. -/
def Merge.maskOf (m : Merge) (p : Leaf → Bool) : Nat :=
  m.used.foldl (fun a l => if p (m.leaves.get l) then a + 2 ^ l else a) 0

/-- MGST of an island (R218) (log 114: DESIGN CHOICE). -/
def execMgstIsland (o : Slot) (f : Fn) (s : State) : Host.Outcome State Fault Refusal :=
  fireWith o f (fun s e n env =>
    let q := mgQuad f
    let m := s.merge (ekDie e) q
    if !(s.mergeHeld e n q) then .error .bounds
    else
      let st := if m.ended then 4 else if m.remerging then 3 else if m.spilled then 2 else 1
      s.leaving e (entriesOf o.dt o.tt) (fun s' => s'.complete e n o { out := some (words32 env.a
        [st * 2 ^ 29 + (m.buf ++ m.drain.getD []).length % 2 ^ 17, m.fibre, m.passes * 2 ^ 16 + m.runs.length % 2 ^ 13,
         m.maskOf Leaf.sent3 * 2 ^ 16 + m.maskOf Leaf.fend]) })) s

/-- The exchange queues of a frame in the order of their registrations. -/
def State.queuesOf (s : State) (r frm : Nat) : List XQueue :=
  sortOn (fun x => x.no) (s.descs.filterMap (fun d => match d.2.xq with | some x => if x.ofFrame r frm then some x else none | none => none))

/-- MGST of an exchange queue (R218). -/
def execMgstQueue (o : Slot) (f : Fn) (s : State) : Host.Outcome State Fault Refusal :=
  fireWith o f (fun s e n env =>
    match (s.queuesOf (ekRegion e) (s.slotFrame e n))[fnIm f / 8 % 8]? with
    | none => .error .bounds
    | some x => s.leaving e (entriesOf o.dt o.tt) (fun s' => s'.complete e n o { out := some (words32 env.a [x.records.length, x.waiting.length, x.total, 0]) })) s

/-! Leaf packets (R199, R200). -/

/-- A fault of an island (R200, R211): against its opener's slot; a leaf packet's names the leaf (log 62: DEDUCED). -/
def State.mergeFault (s : State) (c : FCode) (q : Nat) (m : Merge) (leaf : Option Nat) (detail : Nat) : State :=
  s.raiseAt c m.rk { s.recordAt c m.rk (s.frame m.rk m.frm).soff
    { ex := ekX m.e, ey := ekY m.e, slot := m.slot, frm := m.frm, eng := 0x20 + q, ql := leaf.getD 0, qlv := leaf.isSome } with
    src := if c == .spillEx then 3 else 2, detail := detail }

/-- The entries of a packet: keys and values, low word first (R199). -/
def Merge.entriesOf (m : Merge) (ls : List Lane) : List (Nat × Nat) :=
  (blocksOf m.entryLanes ls.length ls).map (fun x => (lanesNat (x.take m.keyWords), lanesNat (x.drop m.keyWords)))

/-- Does key a come before key b in ORD? -/
def Merge.first (m : Merge) (a b : Nat) : Bool := if m.desc then b < a else a < b

/-- The keys of a packet within KWID and in order after a last key (R200 check 6). -/
def Merge.keysOk (m : Merge) : Option Nat → List (Nat × Nat) → Bool
  | _, [] => true
  | last, (k, _) :: rest =>
    k < 2 ^ m.kwid && (match last with | some x => !(m.first k x) | none => true) && m.keysOk (some k) rest

/-- The checks of R200, in their order (log 69: DEDUCED). -/
def Merge.leafCheck (m : Merge) (l : Nat) (p : Packet) : Except FCode Unit :=
  let control := p.kind == 2
  if !m.opened || !(m.used.contains l) || (m.leaves.get l).sent3 then .error .bounds
  else if (if control then p.lanes.length != 1 else p.lanes.length % m.entryLanes != 0) then .error .pkLen
  else if !(control || p.kind == 1) || (!control && (!(p.fmt == 0 || p.fmt == 1 || p.fmt == 8) || p.fpx != 0)) then .error .fmt
  else if p.sc then .error .scaleTag
  else if control && (p.eof == 0 || p.lanes != [0]) then .error .illegal
  else if !control && !(m.keysOk (m.leaves.get l).last (m.entriesOf p.lanes)) then .error .bounds
  else .ok ()

/-- A leaf after a packet (R199). -/
def Merge.enter (m : Merge) (x : Leaf) (p : Packet) : Leaf :=
  let es := if p.kind == 2 then [] else m.entriesOf p.lanes
  let lvl := if !m.accum && p.eof == 1 then 2 else p.eof.toNat
  { x with
    win := x.win ++ es.map (fun e => .entry e.1 e.2) ++ (if p.eof == 0 then [] else [.stop lvl])
    last := if p.eof == 0 then (match es.getLast? with | some e => some e.1 | none => x.last) else none
    sent3 := x.sent3 || p.eof == 3 }

/-- The fault of a leaf packet that reaches an island with no session of its partition: the record names the island, the leaf, the
producing element and the slot whose firing produced the packet (R200) (log 134: DEDUCED). -/
def State.noSession (s : State) (q l : Nat) (f : Flit) : State :=
  let e := (f.src.getD (64 * f.rk, 0)).1
  s.raiseAt .bounds f.rk { s.recordAt .bounds f.rk (s.frame f.rk f.frm).soff
    { ex := ekX e, ey := ekY e, slot := f.slot, frm := f.frm, eng := 0x20 + q, ql := l, qlv := true } with src := 2 }

/-- MERGE_LEAF_PACKET: packet i of the network, on its way to a leaf, is checked and enters the leaf's window (R164, R196, R199,
R200) (log 134: DEDUCED). -/
def execMergeLeafPacket (i : Nat) (s : State) : Host.Outcome State Fault Refusal :=
  match s.flitAt i with
  | none => .next s
  | some f =>
    match f.dst with
    | .leaf d q l =>
      let m := s.merge d q
      let mine := m.opened && s.pidOf f.rk == s.pidOf m.rk
      if !(s.moving f.rk) || (mine && !(s.moving m.rk)) || !(s.performed 3 f.pkt.cov) then .next s
      else if !mine then .next ((s.dropFlit i).noSession q l f)
      else match m.leafCheck l f.pkt with
        | .error c => .next ((s.dropFlit i).mergeFault c q m (some l) 0)
        | .ok _ =>
          if m.window < (m.leaves.get l).count + m.entriesIn f.pkt then .next s
          else .next (((s.dropFlit i).modMerge d q (fun x =>
            { x with leaves := x.leaves.set l (x.enter (x.leaves.get l) f.pkt), cov := (x.cov ++ f.pkt.cov).eraseDups })).touch m.rk)
    | _ => .next s

/-! Combining (R203). -/

/-- The held form of an input value. -/
def Merge.held (m : Merge) (v : Nat) : Nat × BitVec 32 :=
  if m.cmb == 2 then
    let r := a96Round (fval .f32 false false v)
    (r.1.toNat, r.2)
  else if m.cmb == 7 then (1, 0)
  else (v, 0)

/-- MIN or MAX of two values in VT (R203). -/
def mergeMinMax (larger : Bool) (vt x y : Nat) : Nat × BitVec 32 :=
  if vt == 3 then
    let a := fval .f32 false false x
    let b := fval .f32 false false y
    if isNan a || isNan b then (0x7FC00000, esNV)
    else (if larger == fBelow a b then y else x, 0)
  else
    let bits := if 4 ≤ vt then 64 else 32
    let signed := vt == 2 || vt == 5
    let less := atomVal signed bits x < atomVal signed bits y
    (if larger == decide less then y else x, 0)

/-- x ⊕ y on held values, with flags (R203). -/
def Merge.fold (m : Merge) (x y : Nat) : Nat × BitVec 32 :=
  match m.cmb with
  | 1 => fadd32 x y
  | 2 =>
    let v := fAdd false (a96Val (BitVec.ofNat 96 x)) (a96Val (BitVec.ofNat 96 y))
    let r := a96Round v.1
    (r.1.toNat, r.2 ||| flagIf v.2 esNV)
  | 3 => mergeMinMax false m.vt x y
  | 4 => mergeMinMax true m.vt x y
  | 5 => (x, 0)
  | 6 => (y, 0)
  | 7 => if 2 ^ 32 ≤ x + y then (2 ^ 32 - 1, esSAT) else (x + y, 0)
  | _ => (y, 0)

/-- The emitted form of a held value. -/
def Merge.emitted (m : Merge) (v : Nat) : Nat × BitVec 32 :=
  if m.cmb == 2 then roundTy .f32 { rnd := .rne } false false (a96Val (BitVec.ofNat 96 v)) else (v, 0)

/-- An entry put into a list sorted in ORD: behind its equals in KEEP mode, else folded into the entry of its key. -/
def Merge.insert (m : Merge) (k v : Nat) : List (Nat × Nat) → List (Nat × Nat) × BitVec 32
  | [] => ([(k, v)], 0)
  | (j, u) :: rest =>
    if m.first k j then ((k, v) :: (j, u) :: rest, 0)
    else if j == k && m.cmb != 0 then ((j, (m.fold u v).1) :: rest, (m.fold u v).2)
    else
      let x := m.insert k v rest
      ((j, u) :: x.1, x.2)

/-! Output (R204). -/

/-- Entries of one packet. -/
def Merge.perPacket (m : Merge) : Nat := 8 / (m.keyWords + m.outWords)

/-- A packet of output entries. -/
def Merge.packet (m : Merge) (es : List (Nat × Nat)) (last : Bool) : Packet :=
  { kind := 1, seq := BitVec.ofNat 16 m.fibre, eof := if last then 1 else 0,
    lanes := es.flatMap (fun e => natLanes m.keyWords e.1 ++ natLanes m.outWords e.2) }

/-- A control packet. -/
def Merge.control (m : Merge) (eof : BitVec 2) : Packet := { kind := 2, seq := BitVec.ofNat 16 m.fibre, eof := eof, lanes := [0] }

/-- An emitted entry joins those to be packed; a full packet that is not the fibre's last leaves. -/
def Merge.push (m : Merge) (k v : Nat) : Merge :=
  let es := m.ents ++ [(k, v)]
  if m.perPacket < es.length then { m with ents := es.drop m.perPacket, out := m.out ++ [m.packet (es.take m.perPacket) false] }
  else { m with ents := es }

/-- An entry emitted, with the flags of its conversion. -/
def Merge.emit (m : Merge) (k v : Nat) : Merge × BitVec 32 :=
  let x := m.emitted v
  (m.push k x.1, x.2)

/-- May the root of a session emit: no packet of the island waits, and the consumer's input channel has room (R81, R204)? A way that
stops the packet is found when it is sent. -/
def State.rootRoom (s : State) (m : Merge) : Bool :=
  m.out.isEmpty && (match s.destOf m.e m.oroute with
    | none => true
    | some d => (s.sendStop m.e d).isSome || s.consumerFree d {})

/-- The end of a fibre (R201, R204): its last packet, the next fibre begun, and after the stream's end the final control packet
(log 116: DESIGN CHOICE). -/
def Merge.endFibre (m : Merge) : Merge :=
  let last := if m.ents.isEmpty then m.control 1 else m.packet m.ents true
  let done := m.used.all (fun l => (m.leaves.get l).past)
  let next (x : Leaf) : Leaf := { x with fend := x.past, rend := x.past }
  let m := { m with
    out := m.out ++ [last], ents := [], fibre := (m.fibre + 1) % 2 ^ 32, buf := [], hold := none, spilled := false, remerge := false,
    runs := [], segs := [], drain := none, leaves := m.leaves.map (fun x => (x.1, next x.2)), streamEnd := done }
  if done then { m with out := m.out ++ [m.control 3] } else m

/-! Spilling (R206, R210). -/

/-- Lanes of a stored entry. -/
def Merge.storedLanes (m : Merge) (e : Nat × Nat) : List Lane := natLanes m.keyWords e.1 ++ natLanes m.heldWords e.2

/-- A segment's header after doubleword 0. -/
def Merge.segHead (m : Merge) (d q seg : Nat) (last : Bool) (es : List (Nat × Nat)) : List Nat :=
  let a := (es.head?.map (fun e => e.1)).getD 0
  let b := (es.getLast?.map (fun e => e.1)).getD 0
  [field es.length 32 32 + field d 25 7 + field q 23 2 + field (m.keyWords + m.heldWords) 20 3, min a b, max a b,
   field m.fibre 32 32 + field m.runs.length 20 12 + field seg 4 16 + (if last then 1 else 0), 0, 0, 0]

/-- A segment of the run in progress written (R206). -/
def State.putSegment (s : State) (d q : Nat) (m : Merge) (last : Bool) (es : List (Nat × Nat)) : State × Except FCode (Nat × Nat) :=
  let x := s.ringAppend m.pid 0 (m.segHead d q m.segs.length last es) (es.flatMap m.storedLanes)
  (x.1, x.2.map (fun off => (off, es.length)))

/-- The bytes of a segment's record. -/
def Merge.segBytes (m : Merge) (n : Nat) : Nat := recordLen (n * (m.keyWords + m.heldWords))

/-- The buffer, empty or not, written as the last segment of a run, which enters the table. -/
def State.closeRun (s : State) (d q : Nat) (m : Merge) : State × Except FCode Merge :=
  let x := s.putSegment d q m true m.buf
  (x.1, x.2.map (fun g => { m with buf := [], segs := [], spilled := true, runs := m.runs ++ [{ segs := m.segs ++ [g] }] }))

/-- The buffer written as a segment of a run that goes on. -/
def State.openSegment (s : State) (d q : Nat) (m : Merge) : State × Except FCode Merge :=
  let x := s.putSegment d q m false m.buf
  (x.1, x.2.map (fun g => { m with buf := [], segs := m.segs ++ [g] }))

/-- The entries of the merge buffer (R195). -/
def bufferSize : Nat := 65536

/-- Would an entry need place 65,537? -/
def Merge.overflows (m : Merge) (k : Nat) : Bool :=
  bufferSize ≤ m.buf.length && (m.cmb == 0 || m.buf.all (fun e => e.1 != k))

/-- A completed key of a round put where it goes: out in STREAM mode, else into the buffer, which spills where it must (R205,
R206). -/
def State.putKey (s : State) (d q : Nat) (m : Merge) (k v : Nat) : State × Except FCode Merge :=
  if !m.accum then
    let x := m.emit k v
    (s.addFlags m.e x.2, .ok x.1)
  else if m.overflows k then
    if m.forbid && !m.spilled then (s, .error .spillEx)
    else
      let y := if m.spilled then s.openSegment d q m else s.closeRun d q m
      (y.1, y.2.map (fun m => { m with buf := [(k, v)] }))
  else
    let x := m.insert k v m.buf
    (s.addFlags m.e x.2, .ok { m with buf := x.1 })

/-- The held key flushed. -/
def State.flush (s : State) (d q : Nat) (m : Merge) : State × Except FCode Merge :=
  match m.hold with
  | none => (s, .ok m)
  | some (k, v) =>
    let x := s.putKey d q m k v
    (x.1, x.2.map (fun m => { m with hold := none }))

/-- One entry from the root passed to the combine unit (R202, R203). -/
def State.combine (s : State) (d q : Nat) (m : Merge) (k v : Nat) : State × Except FCode Merge :=
  let h := m.held v
  let s := s.addFlags m.e h.2
  match m.hold with
  | some (j, u) =>
    if j == k && m.cmb != 0 then
      let x := m.fold u h.1
      (s.addFlags m.e x.2, .ok { m with hold := some (j, x.1) })
    else
      let y := s.flush d q m
      (y.1, y.2.map (fun m => { m with hold := some (k, h.1) }))
  | none => (s, .ok { m with hold := some (k, h.1) })

/-! The tree (R201, R202). -/

/-- A leaf with a run's end at its head passes it. -/
def Leaf.passStop (x : Leaf) : Leaf :=
  match x.win with
  | .stop lvl :: rest => { x with win := rest, rend := true, fend := 2 ≤ lvl, past := lvl == 3 }
  | _ => x

/-- Has a leaf, still in the round, a run's end at its head; and an entry? -/
def Leaf.atStop (x : Leaf) : Bool := !x.rend && (match x.win.head? with | some (.stop _) => true | _ => false)
def Leaf.entry (x : Leaf) : Option (Nat × Nat) :=
  if x.rend then none else match x.win.head? with | some (.entry k v) => some (k, v) | _ => none

/-- The leaf whose entry comes first, the lower-numbered of equals (R202). -/
def Merge.best (m : Merge) : Option (Nat × Nat × Nat) :=
  m.used.foldl (fun b l =>
    match (m.leaves.get l).entry, b with
    | none, b => b
    | some (k, v), none => some (l, k, v)
    | some (k, v), some (l', k', v') => if m.first k k' then some (l, k, v) else some (l', k', v')) none

/-- The end of a round (R201, R206): the run of a spilled fibre is written; at the fibre's end its entries are to be emitted, or its runs
to be merged again (log 70: DEDUCED). -/
def State.endRound (s : State) (d q : Nat) (m : Merge) : State × Except FCode Merge :=
  let done := m.used.all (fun l => (m.leaves.get l).fend)
  let next (x : Leaf) : Leaf := { x with rend := x.fend }
  let go (m : Merge) : Merge := { m with leaves := m.leaves.map (fun x => (x.1, next x.2)) }
  if !m.accum then (s, .ok m.endFibre)
  else if m.spilled then
    let x := s.closeRun d q m
    (x.1, x.2.map (fun m => if done then { m with remerge := true } else go m))
  else if done then (s, .ok { m with drain := some m.buf, buf := [] })
  else if m.force then
    let x := s.closeRun d q m
    (x.1, x.2.map (fun m => go { m with force := false }))
  else (s, .ok (go m))

/-- A step of an island that may fail at the ring: on a failure the island keeps its place, to try again after the thaw (R211). -/
def State.mergeStep (s : State) (d q : Nat) (m : Merge) (x : State × Except FCode Merge) (len : Nat) : State :=
  match x.2 with
  | .ok m' => (x.1.setMerge d q m').touch m.rk
  | .error .spillEx => ({ s with mem := x.1.mem } : State).mergeFault .spillEx q m none len
  | .error c => s.mergeFault c q m none (if c == .ecc then s.ringBad m.pid else 0)

/-- The root emits the next entry of an ended fibre, and with the last the fibre is done (R204, R205). -/
def State.emitNext (s : State) (d q : Nat) (m : Merge) : List (Nat × Nat) → State
  | [] => s.setMerge d q m.endFibre
  | (k, v) :: rest =>
    let x := m.emit k v
    (s.addFlags m.e x.2).setMerge d q { x.1 with drain := some rest }

/-- MERGE_ROOT_EMIT: the tree passes run ends, or its next entry, or ends the round (R201, R202, R205). What goes to the output waits for
room at the consumer, and holds the tree (R204). -/
def execMergeRootEmit (die q : Nat) (s : State) : Host.Outcome State Fault Refusal :=
  let m := s.merge die q
  let leaves := m.used.map (fun l => m.leaves.get l)
  if !m.opened || !(s.moving m.rk) || m.streamEnd then .next s
  else match m.drain with
  | some es => .next (if s.rootRoom m then (s.emitNext die q m es).touch m.rk else s)
  | none =>
  if m.remerging then .next s
  else if leaves.any Leaf.atStop then
    .next ((s.setMerge die q { m with leaves := m.used.foldl (fun t l =>
      if (t.get l).atStop then t.modify l Leaf.passStop else t) m.leaves }).touch m.rk)
  else if !m.accum && !(s.rootRoom m) then .next s
  else if leaves.all Leaf.rend then
    let x := s.flush die q m
    match x.2 with
    | .error _ => .next (s.mergeStep die q m x (m.segBytes m.buf.length))
    | .ok m' =>
      if m.hold.isSome then .next ((x.1.setMerge die q m').touch m.rk)
      else .next (s.mergeStep die q m (s.endRound die q m) (m.segBytes m.buf.length))
  else if leaves.any (fun x => !x.rend && x.win.isEmpty) then .next s
  else match m.best with
    | none => .next s
    | some (l, k, v) =>
      let m' := { m with leaves := m.leaves.modify l (fun x => { x with win := x.win.drop 1 }) }
      .next (s.mergeStep die q m (s.combine die q m' k v) (m.segBytes m.buf.length))

/-! Passes (R207). -/

/-- The entries of a run read back. -/
def State.runEntries (s : State) (m : Merge) (r : Run) : Except FCode (List (Nat × Nat)) :=
  r.segs.foldl (fun acc g => do
    let es ← acc
    let ls ← s.ringBody m.pid g.1 (g.2 * (m.keyWords + m.heldWords))
    .ok (es ++ (blocksOf (m.keyWords + m.heldWords) ls.length ls).map (fun x => (lanesNat (x.take m.keyWords), lanesNat (x.drop m.keyWords)))))
    (.ok [])

/-- Runs folded in run order, each as one round (R207, R208). -/
def Merge.foldRuns (m : Merge) : List (Nat × Nat) → List (Nat × Nat) → List (Nat × Nat) × BitVec 32
  | acc, [] => (acc, 0)
  | acc, (k, v) :: rest =>
    let x := m.insert k v acc
    let y := m.foldRuns x.1 rest
    (y.1, x.2 ||| y.2)

/-- The runs that a pass merges, folded: the entries and the flags. -/
def State.passEntries (s : State) (m : Merge) : Except FCode (List (Nat × Nat) × BitVec 32) := do
  let es ← (m.runs.take 16).foldl (fun acc r => do
    let es ← acc
    let xs ← s.runEntries m r
    .ok (es ++ xs)) (.ok [])
  .ok (m.foldRuns [] es)

/-- The entries of the next segment that a pass writes, and whether it is the last. -/
def Merge.passBlock (m : Merge) (es : List (Nat × Nat)) : List (Nat × Nat) × Bool :=
  let bs := blocksOf bufferSize es.length es
  (bs.getD m.pass.length [], bs.length ≤ m.pass.length + 1)

/-- One step of a pass over the first 16 runs: the next segment of the new run is written, and with the last the run takes their place and
their records are freed; of the final pass, what it is to emit (R207). -/
def State.mergePass (s : State) (d q : Nat) (m : Merge) : State × Except FCode Merge :=
  match s.passEntries m with
  | .error c => (s, .error c)
  | .ok x =>
    let offs := ((m.runs.take 16).flatMap (fun r => r.segs)).map (fun g => g.1)
    let passes := min 0xFFFF (m.passes + 1)
    if m.runs.length ≤ 16 && m.remerge then
      (((s.ringFreeAll m.pid offs).addFlags m.e x.2), .ok { m with passes := passes, runs := [], drain := some x.1 })
    else
      let b := m.passBlock x.1
      let z := s.putSegment d q { m with runs := [], segs := m.pass } b.2 b.1
      match z.2 with
      | .error c => (z.1, .error c)
      | .ok g =>
        if b.2 then ((z.1.ringFreeAll m.pid offs).addFlags m.e x.2,
          .ok { m with passes := passes, pass := [], runs := { segs := m.pass ++ [g] } :: m.runs.drop 16 })
        else (z.1, .ok { m with pass := m.pass ++ [g] })

/-- The bytes of the record that a step of a pass reserves (R211). -/
def State.passBytes (s : State) (m : Merge) : Nat :=
  match s.passEntries m with
  | .ok x => m.segBytes (m.passBlock x.1).1.length
  | .error _ => 0

/-- MERGE_REMERGE_PASS: a spilled fibre that has ended, or a full run table, is merged 16 runs at a time (R206, R207). -/
def execMergeRemergePass (die q : Nat) (s : State) : Host.Outcome State Fault Refusal :=
  let m := s.merge die q
  if !m.opened || !(s.moving m.rk) || m.drain.isSome || !m.remerging then .next s
  else .next (s.mergeStep die q m (s.mergePass die q m) (s.passBytes m))

/-! Output. -/

/-- A session that has sent its final packet and that MGCLOSE awaits is freed, and MGCLOSE has its result (R215). -/
def State.closeMerge (s : State) (d q : Nat) : State :=
  let m := s.merge d q
  if m.closing.isEmpty || !m.sentEnd then s
  else m.closing.foldl (fun s t => s.postAnswer t (resPk (.pkt t.hdr) .n32 [BitVec.ofNat 32 m.fibre])) (s.endSession d q)

/-- MERGE_OUTPUT_SEND: the island's next packet leaves when its channel has room (R204). -/
def execMergeOutputSend (die q : Nat) (s : State) : Host.Outcome State Fault Refusal :=
  let m := s.merge die q
  match m.out with
  | [] => .next s
  | p :: rest =>
    match s.destOf m.e m.oroute with
    | none => .next s
    | some d =>
      let sent (t : State) : State :=
        (t.modMerge die q (fun x => { x with out := rest, sentEnd := x.sentEnd || (p.kind == 2 && p.eof == 3) })).closeMerge die q
      if !(s.moving m.rk) then .next s
      else match s.sendStop m.e d with
        | some c => .next ((sent s).mergeFault c q m none 0)
        | none =>
          if !(s.consumerFree d p) then .next (s.refuse d)
          else
            let f : Flit := { pkt := tagged m.oroute { p with cov := s.live m.cov }, src := some (m.e, 9 + q), slot := m.slot,
                              rk := m.rk, frm := m.frm, dst := d }
            .next ((sent { s with net := s.net ++ [f] }).touch m.rk)

end Sys2Proof.Machine
end

