-- ==== Sys2Proof/Machine/Context.lean ====
section
/-! DEFINITION. What is written on a partition's behalf (R439): the progress record (R243); and the saved context: what a partition
holds, taken out of its regions, put back, and scrubbed (R233, R237, R238). -/

namespace Sys2Proof.Machine

/-! Save areas of launches (R439). -/

/-- A doubleword written at a VA of a partition; the code met where it is not. -/
def State.saveWord (s : State) (pid va : Nat) (w : Dword) : Except FCode State :=
  match s.partAccess pid va 8 needWrite with
  | .error c => .error c
  | .ok a => .ok (s.putAny (pVf (s.part pid)) noTag (a % 2 ^ 63) a (valBytes 8 w.toNat))

/-- Doublewords written where each can be, with the first failure. -/
def State.saveWords (s : State) (pid : Nat) (ws : List (Nat × Dword)) : State × Option (FCode × Nat) :=
  ws.foldl (fun acc w =>
    match acc.1.saveWord pid w.1 w.2 with
    | .ok t => (t, acc.2)
    | .error c => (acc.1, match acc.2 with | some x => some x | none => some (c, w.1))) (s, none)

/-- The record of a write that failed (R439) (log 74: DEDUCED). -/
def State.missRecord (s : State) (pid lnch : Nat) (c : FCode) (va : Nat) : Record :=
  { code := c.num, vf := pVf (s.part pid), pid := pid, src := 1, vav := true, lnch := lnch, va := va, place := { vdn := s.homeDie pid },
    still := true }

/-- Doublewords written to a launch's save area; the first failure raises one further record (log 74: DEDUCED). -/
def State.saveAll (s : State) (pid lnch : Nat) (ws : List (Nat × Dword)) : State :=
  let x := s.saveWords pid ws
  match x.2 with
  | none => x.1
  | some (c, va) => x.1.report (s.homeDie pid) (s.missRecord pid lnch c va)

/-- The regions of a launch in the order of R297's directory: by footprint slot, then row by row. -/
def State.orderedRegions (s : State) (l : Launch) : List Nat :=
  (List.range l.nslots).flatMap (fun n => (s.launchSlot l n).map (fun x => x.1))

/-- Template entries of a launch's progress record (R243). -/
def State.templateWords (s : State) (pid : Nat) (l : Launch) : List Dword :=
  let ds := (s.launchRegions l).map rkDie
  ((List.range s.ndies).filter (fun d => ds.contains d)).flatMap (fun d => (List.range 4).flatMap (fun edge =>
    (List.range 64).filterMap (fun n =>
      match (s.island d edge).tpls.get n with
      | some t => if t.pid == pid && t.lnch == l.lnch && s.pidOf t.rk == some pid then
          some (BitVec.ofNat 64 (field d 57 7 + field edge 55 2 + field n 49 6 + field t.jobs 0 32)) else none
      | none => none)))

/-- Sync-word entries of a launch's progress record: the VA, and the generation and count as they stand (R243); of a word of another
panel as that panel answers (log 74: DEDUCED). -/
def State.syncWords (s : State) (pid : Nat) (l : Launch) : List Dword :=
  (l.syncs.take 256).flatMap (fun va =>
    let w := match s.partAccess pid va 16 needRead with
      | .ok a => if a < 2 ^ 63 then syncVal s.mem a
        else bytesVal ((List.range 16).map (fun i => Config.remoteByte s.draws (a - 2 ^ 63 + i)))
      | .error _ => 0
    [BitVec.ofNat 64 va, BitVec.ofNat 64 (field (syncGen w) 48 16 + field (syncCnt w) 8 40)])

/-- The progress record of a launch (R243). -/
def State.progressWords (s : State) (pid : Nat) (l : Launch) : List Dword :=
  let rs := (s.orderedRegions l).filter (fun r => s.pidOf r == some pid && !(s.region r).order.isEmpty)
  let regs := rs.map (fun r => BitVec.ofNat 64 (field (s.gxOf r) 59 5 + field (s.gyOf r) 53 6 + field (s.region r).commits.toNat 16 32
    + field (s.region r).mark.toNat 0 16))
  let tpls := s.templateWords pid l
  BitVec.ofNat 64 (field regs.length 48 16 + field tpls.length 32 16 + field (min 256 l.syncs.length) 16 16
    + (if 256 < l.syncs.length then 1 else 0)) :: (regs ++ tpls ++ s.syncWords pid l)

/-- The progress record written (R243) (log 74: DEDUCED). -/
def State.progress (s : State) (pid : Nat) (l : Launch) : State :=
  let ws := s.progressWords pid l
  s.drawn.saveAll pid l.lnch ((List.range ws.length).map (fun i => ((l.word 5).toNat + 0x1000 + 8 * i, ws.getD i 0)))

/-! The end of a launch that does not complete (R52, R233 steps 2 to 4). -/

/-- The regions that a launch of a partition holds: none while the partition is SAVED. -/
def State.heldRegions (s : State) (pid : Nat) (l : Launch) : List Nat :=
  (s.launchRegions l).filter (fun r => s.pidOf r == some pid)

/-- Is a job one of a launch's? -/
def State.jobOf (s : State) (pid : Nat) (l : Launch) (j : Job) : Bool := (s.heldRegions pid l).contains j.region

/-- One unit of a job in progress. -/
def State.jobUnit (s : State) (i : Nat) : State :=
  match s.jobAt i with
  | none => s
  | some j => if j.moved || (j.tmov.isNone && j.unit == j.tpl.units) then s else (s.jobStep j).drawn

/-- The jobs of a launch: one in progress finishes its tile, and all are taken away (R181, R233 step 3) (log 75: DEDUCED). -/
def State.stopJobs (s : State) (pid : Nat) (l : Launch) : State :=
  let js := s.jobs.filter (s.jobOf pid l)
  let s := (js.filter (fun j => j.started)).foldl (fun s j => (List.range (max 1 j.tpl.units)).foldl (fun s _ => s.jobUnit j.id) s) s
  { s with jobs := s.jobs.filter (fun j => !(js.any (fun x => x.id == j.id))),
           words := s.words.filter (fun w => !(js.any (fun x => x.id == w.job))) }

/-- A posted write completed (R233 step 4) (log 75: DEDUCED). -/
def State.completeWrite (s : State) (q : Req) : State :=
  if s.isRemote q.gpa then s.sendRemote q
  else match s.homeKey q with
    | .error _ => s
    | .ok a => if s.marked a q.size then s else s.putHome a q.data

/-- The requests of a launch: posted writes are completed, every other is answered to nobody (R233 step 4) (log 75: DEDUCED). -/
def State.stopReqs (s : State) (pid : Nat) (l : Launch) : State :=
  let rs := s.heldRegions pid l
  let s := (s.reqs.filter (fun q => rs.contains q.ret.rk && posted q)).foldl (fun s q => s.completeWrite q) s
  { s with reqs := s.reqs.filter (fun q => !(rs.contains q.ret.rk)) }

/-- Is a request a write to another panel that is not yet done (R233 step 4)? -/
def State.farWrite (s : State) (q : Req) : Bool := isStore q.op && s.isRemote q.gpa && (posted q || q.phase == .remote)

/-- The writes to other panels that a partition has outstanding, and its copy jobs (R242). -/
def State.partWrites (s : State) (pid : Nat) : Nat :=
  ((s.reqs.filter (fun q => s.pidOf q.ret.rk == some pid) ++ (match (s.part pid).saved with | some c => c.reqs | none => [])).filter s.farWrite).length
def State.partJobs (s : State) (pid : Nat) : Nat :=
  (s.jobs.filter (fun j => s.pidOf j.region == some pid)).length + (match (s.part pid).saved with | some c => c.jobs.length | none => 0)

/-- An element when its frames are gone: what no frame owns stays (R52, R67). -/
def Elem.abandoned (el : Elem) : Elem :=
  { ({} : Elem) with st := el.st, es := el.es, fcw := el.fcw, d := el.d, k := el.k, t := el.t, acc := el.acc, lastSel := el.lastSel }

/-- The exchange queues that a region's frames registered, with their records, are given up. -/
def State.dropQueues (s : State) (r : Nat) : State :=
  let one (s : State) (d : Nat × Desc) : State := match d.2.xq with
    | some x => if x.rk == r then (s.ringFreeAll x.pid (x.records.map (fun y => y.1))) else s
    | none => s
  let t := s.descs.foldl one s
  { t with descs := t.descs.map (fun d : Nat × Desc => (d.1, { d.2 with
      xq := match d.2.xq with | some x => if x.rk == r then none else some x | none => none })) }

/-- The frames of a region released without commit, and its tokens dropped (R52). -/
def State.dropFrames (s : State) (r : Nat) : State :=
  let s := s.dropQueues r
  let s := ((s.die (rkDie r)).merges.filter (fun m => m.2.opened && m.2.rk == r)).foldl (fun s m => s.endSession (rkDie r) m.1) s
  let s := (s.region r).order.foldl (fun s f => s.freeFrame r f) s
  let keep (i : Nat × Island) : Nat × Island := (i.1, { i.2 with
    queues := i.2.queues.map (fun q => (q.1, { q.2 with q := q.2.q.filter (fun t => t.f.rk != r) })) })
  let s := s.modDie (rkDie r) (fun d => { d with islands := d.islands.map keep })
  let s : State := { s with
    net := s.net.filter (fun f => f.rk != r), creds := s.creds.filter (fun c => ekRegion c.1 != r),
    bnds := s.bnds.filter (fun b => b.2.2.rk != r), tileQ := s.tileQ.filter (fun q => q.1 / 8 != r),
    nodes := s.nodes.filter (fun n => ekRegion n.1 != r) }
  { s with elems := s.elems.map (fun x => if ekRegion x.1 == r then (x.1, x.2.abandoned) else x) }

/-- A launch ended by its policy, a release or a disable: progress, jobs, requests, frames; then its end is reported (R48, R233)
(log 75: DEDUCED). -/
def State.endLaunch (s : State) (pid : Nat) (l : Launch) (status fcode : Nat) : State :=
  let s := s.progress pid l
  let s := (s.stopJobs pid l).stopReqs pid l
  let s := (s.heldRegions pid l).foldl State.dropFrames s
  let left := ((s.part pid).launches.filter (fun x => x.lnch == l.lnch)).flatMap (fun x => x.left)
  ((s.ringFreeAll pid left).removeLaunch pid l).reportEnd pid l status fcode []

/-- Is a partition resident: IDLE, RUNNING or FROZEN (R235)? -/
def resident (p : Part) : Bool := pState p == 1 || pState p == 2 || pState p == 3

/-! Contexts (R237, R238). -/

/-- The regions of a partition's rectangle, while they are the partition's (R222, R237). -/
def State.partRegions (s : State) (pid : Nat) : List Nat :=
  (s.rectRegions (pRect (s.part pid))).filter (fun r => s.pidOf r == some pid)

/-- Memory, marks, versions and error flags of keys lo to hi − 1 as a scrub leaves them. -/
def State.zeroRange (s : State) (lo hi : Nat) : State :=
  { s with mem := s.mem.filter (fun c => c.1 < lo || hi ≤ c.1),
           marks := s.marks.filter (fun c => c.1 < lo / 16 || hi ≤ 16 * c.1),
           vers := s.vers.filter (fun c => c.1 < lo / 8 || hi ≤ 8 * c.1),
           ecc := s.ecc.filter (fun c => c.1 < lo / 8 || hi ≤ 8 * c.1),
           relCov := s.relCov.filter (fun c => c.1 < lo || hi ≤ c.1) }

/-- The eight tiles of a region. -/
def tilesLo (r : Nat) : Nat := tileKey r 0 0
def tilesHi (r : Nat) : Nat := tileKey r 0 0 + 2 ^ 20

/-- The live sub-buffers of a descriptor: offset in its range, and bytes (R237) (log 77: DEDUCED). -/
def State.liveSubs (s : State) (k : Nat) (d : Desc) : List (Nat × Nat × List Byte) :=
  match d.shape with
  | none => []
  | some h => (List.range (max 1 h.depth)).filterMap (fun i =>
      if h.mode == 2 || (d.ring.sub i).st != .empty then
        some (k, i * h.sub, memBytes s.mem (s.descBase k h + i * h.sub) h.sub) else none)

/-- The entries of a table, one for each u bytes, that lie in a descriptor's range: the descriptor, the offset, the entry. -/
def State.inDesc {α : Type} (s : State) (k : Nat) (d : Desc) (u : Nat) (m : PMap α) : List (Nat × Nat × α) :=
  match d.shape with
  | none => []
  | some h =>
    let lo := s.descBase k h
    (m.filter (fun c => lo ≤ u * c.1 && u * c.1 < lo + h.size)).map (fun c => (k, u * c.1 - lo, c.2))

/-- Entries put back in the ranges of descriptors. -/
def State.putDesc {α : Type} [Inhabited α] [DecidableEq α] (s : State) (u : Nat) (m : PMap α) (xs : List (Nat × Nat × α)) : PMap α :=
  xs.foldl (fun m x => match (s.descs.get x.1).shape with
    | some h => PMap.set m ((s.descBase x.1 h + x.2.1) / u) x.2.2
    | none => m) m

/-- What an island holds of some regions. -/
def Island.only (i : Island) (mine : Nat → Bool) : Island :=
  { tpls := i.tpls.filter (fun t => match t.2 with | some x => mine x.rk | none => false)
    queues := i.queues.filter (fun q => (q.2.tpl != 0 && mine q.2.rk) || q.2.q.any (fun t => mine t.f.rk)) }

/-- The islands and merge sessions of some regions, keyed by 4 × VDN + edge or quadrant. -/
def State.islandsOf (s : State) (ds : List Nat) (mine : Nat → Bool) : PMap Island :=
  ds.foldl (fun m d => (List.range 4).foldl (fun m e => PMap.set m (4 * d + e) ((s.island d e).only mine)) m) []
def State.mergesOf (s : State) (ds : List Nat) (mine : Nat → Bool) : PMap Merge :=
  ds.foldl (fun m d => (List.range 4).foldl (fun m q =>
    if (s.merge d q).opened && mine (s.merge d q).rk then PMap.set m (4 * d + q) (s.merge d q) else m) m) []

/-- What a partition holds (R236, R237) (log 77: DEDUCED). -/
def State.contextOf (s : State) (pid : Nat) : Saved :=
  let rs := s.partRegions pid
  let ds := s.rectDies (pRect (s.part pid))
  let mine (r : Nat) : Bool := rs.contains r
  let tile (a : Nat) : Bool := rs.any (fun r => tilesLo r ≤ a && a < tilesHi r)
  let descs := s.descs.filter (fun d => d.2.pid == pid && d.2.shape.isSome)
  { regions := (s.regions.filter (fun x => mine x.1)).map (fun x => (x.1, { x.2 with tlb := [] }))
    elems := s.elems.filter (fun x => mine (ekRegion x.1))
    nodes := s.nodes.filter (fun x => mine (ekRegion x.1))
    descs := descs
    bufs := descs.flatMap (fun d => s.liveSubs d.1 d.2)
    tiles := s.mem.filter (fun c => tile c.1)
    marks := s.marks.filter (fun c => tile (16 * c.1))
    vers := s.vers.filter (fun c => tile (8 * c.1))
    rels := s.relCov.filter (fun c => tile c.1)
    bufVers := descs.flatMap (fun d => s.inDesc d.1 d.2 8 s.vers)
    bufMarks := (descs.flatMap (fun d => s.inDesc d.1 d.2 16 s.marks)).map (fun x => (x.1, x.2.1))
    bufRels := descs.flatMap (fun d => s.inDesc d.1 d.2 1 s.relCov)
    islands := s.islandsOf ds mine
    merges := s.mergesOf ds mine
    net := s.net.filter (fun f => mine f.rk)
    creds := s.creds.filter (fun c => mine (ekRegion c.1))
    bnds := s.bnds.filter (fun b => mine b.2.2.rk)
    reqs := s.reqs.filter (fun q => mine q.ret.rk)
    tileQ := s.tileQ.filter (fun q => mine (q.1 / 8))
    jobs := s.jobs.filter (fun j => mine j.region)
    words := s.words.filter (fun w => mine w.rk) }

/-- An island without what some regions hold. -/
def Island.except (i : Island) (mine : Nat → Bool) : Island :=
  { tpls := i.tpls.filter (fun t => match t.2 with | some x => !(mine x.rk) | none => false)
    queues := i.queues.filter (fun q => !((q.2.tpl != 0 && mine q.2.rk) || q.2.q.any (fun t => mine t.f.rk))) }

/-- A region that holds nothing but what its die gives it. -/
def Region.emptied (x : Region) : Region := { x.cleared with dark := x.dark, fused := x.fused, pid := 0, tlb := [] }

/-- A die without what some regions hold of its islands. -/
def Die.without (d : Die) (mine : Nat → Bool) : Die :=
  { d with islands := d.islands.map (fun i => (i.1, i.2.except mine)),
           merges := d.merges.filter (fun m => !(m.2.opened && mine m.2.rk)) }

/-- The regions of a partition hold nothing of it (R237). -/
def State.clearContext (s : State) (pid : Nat) : State :=
  let rs := s.partRegions pid
  let mine (r : Nat) : Bool := rs.contains r
  let owned := resident (s.part pid)
  let s := (s.rectDies (pRect (s.part pid))).foldl (fun s d => s.modDie d (fun x => x.without mine)) s
  let t : State := { s with
    elems := s.elems.filter (fun x => !(mine (ekRegion x.1)))
    nodes := s.nodes.filter (fun x => !(mine (ekRegion x.1)))
    descs := if owned then s.descs.filter (fun d => !(d.2.pid == pid && d.2.shape.isSome)) else s.descs
    net := s.net.filter (fun f => !(mine f.rk))
    creds := s.creds.filter (fun c => !(mine (ekRegion c.1)))
    bnds := s.bnds.filter (fun b => !(mine b.2.2.rk))
    reqs := s.reqs.filter (fun q => !(mine q.ret.rk))
    tileQ := s.tileQ.filter (fun q => !(mine (q.1 / 8)))
    jobs := s.jobs.filter (fun j => !(mine j.region))
    words := s.words.filter (fun w => !(mine w.rk)) }
  rs.foldl (fun s r => (s.modRegion r Region.emptied).zeroRange (tilesLo r) (tilesHi r)) t

/-- Tables laid over others. -/
def layOver {α : Type} [Inhabited α] [DecidableEq α] (m : PMap α) (n : PMap α) : PMap α := n.foldl (fun m x => PMap.set m x.1 x.2) m

/-- An island with a saved one's part put back. -/
def Island.join (i j : Island) : Island := { tpls := layOver i.tpls j.tpls, queues := layOver i.queues j.queues }

/-- A context written back (R238) (log 77: DEDUCED). -/
def State.putContext (s : State) (c : Saved) : State :=
  let s := c.islands.foldl (fun s x => s.modIsland (x.1 / 4) (x.1 % 4) (fun i => i.join x.2)) s
  let s := c.merges.foldl (fun s x => s.setMerge (x.1 / 4) (x.1 % 4) x.2) s
  let s := c.regions.foldl (fun s x => s.modRegion x.1 (fun y => { x.2 with dark := y.dark, fused := y.fused })) s
  let s := c.tiles.foldl (fun s x => s.write x.1 [x.2]) s
  let t : State := { s with
    elems := layOver s.elems c.elems, nodes := layOver s.nodes c.nodes, descs := layOver s.descs c.descs,
    marks := layOver s.marks c.marks, vers := layOver s.vers c.vers, relCov := layOver s.relCov c.rels,
    net := s.net ++ c.net, creds := s.creds ++ c.creds, bnds := s.bnds ++ c.bnds, reqs := s.reqs ++ c.reqs,
    tileQ := layOver s.tileQ c.tileQ, jobs := s.jobs ++ c.jobs, words := s.words ++ c.words }
  let t : State := { t with
    vers := t.putDesc 8 t.vers c.bufVers, marks := t.putDesc 16 t.marks (c.bufMarks.map (fun x => (x.1, x.2, true))),
    relCov := t.putDesc 1 t.relCov c.bufRels }
  c.bufs.foldl (fun s b => match (s.descs.get b.1).shape with
    | some h => s.write (s.descBase b.1 h + b.2.1) b.2.2
    | none => s) t

/-! The partition save area (R237, R439). -/

/-- Logical links that a rectangle crosses (R221): east of die (c, r), or north, as 2 × VDN and 2 × VDN + 1. -/
def State.crossed (s : State) (q : Rect) : List Nat :=
  let ds := s.rectDies q
  ds.flatMap (fun d => (if (d + 1) % s.cols != 0 && ds.contains (d + 1) then [2 * d] else [])
    ++ (if ds.contains (d + s.cols) then [2 * d + 1] else []))

/-- Where the descriptors and their live sub-buffers lie in the save area, from an offset on: a descriptor's 64 bytes, and each sub-buffer. -/
def bufPlaces (start : Nat) (ds : PMap Desc) (bufs : List (Nat × Nat × List Byte)) : List (Nat × Option (Nat × Nat × List Byte)) :=
  (ds.foldl (fun (acc : Nat × List (Nat × Option (Nat × Nat × List Byte))) d =>
    (bufs.filter (fun b => b.1 == d.1)).foldl (fun a b => (a.1 + b.2.2.length, a.2 ++ [(a.1, some b)]))
      (acc.1 + 64, acc.2 ++ [(acc.1, none)])) (start, [])).2

/-- The offset of the link buffers in the save area of a rectangle with n regions, and that of the descriptors (R237). -/
def areaLinks (n : Nat) : Nat := 0x1000 + n * 0x118000
def State.areaDescs (s : State) (q : Rect) (n : Nat) : Nat := areaLinks n + 0x10000 * (s.crossed q).length

/-- The bytes of the save area: the tiles where R237 places them; everything else as a layout that the spec does not give holds
it. -/
def State.areaBytes (s : State) (pid : Nat) : List (Nat × List Byte) :=
  let p := s.part pid
  let rs := s.partRegions pid
  let c := s.contextOf pid
  let hidden (off n : Nat) : Nat × List Byte := (off, (List.range n).map (fun i => Config.saveByte s.draws (off + i)))
  let regions := (List.range rs.length).flatMap (fun i =>
    [hidden (0x1000 + i * 0x118000) 0x18000,
     (0x1000 + i * 0x118000 + 0x18000, memBytes s.mem (tilesLo (rs.getD i 0)) 0x100000)])
  let links := areaLinks rs.length
  let descs := s.areaDescs (pRect p) rs.length
  let bufs := (bufPlaces descs c.descs c.bufs).map (fun x => match x.2 with | some b => (x.1, b.2.2) | none => hidden x.1 64)
  hidden 0 0x1000 :: regions ++ [hidden links (descs - links)] ++ bufs

/-- The bytes of a save area. -/
def State.areaSize (s : State) (pid : Nat) : Nat := (s.areaBytes pid).foldl (fun n x => max n (x.1 + x.2.length)) 0

/-- The GPA of a partition's save area. -/
def Part.area (p : Part) : Nat := bitsOf p.psave 12 44 * 4096

/-- Is every page of the save area mapped with W (R439)? Of an area on another panel only that panel knows
(log 21: DESIGN CHOICE; log 86: DESIGN CHOICE). -/
def State.areaMapped (s : State) (pid : Nat) : Bool :=
  let g := (s.part pid).area
  let n := s.areaSize pid
  if s.isRemote g then s.reachable (gpaPanel g) && Config.choice s.draws
  else (List.range ((g + n - 1) / 2 ^ 21 + 1 - g / 2 ^ 21)).all (fun i =>
    match s.stage2 (pVf (s.part pid)) ((g / 2 ^ 21 + i) * 2 ^ 21) needWrite with | .ok _ => true | .error _ => false)

/-- Bytes written at GPAs of a VF, four by four, where they lie. -/
def State.putGpa (s : State) (vf g : Nat) (bs : List Byte) : State :=
  (List.range ((bs.length + 3) / 4)).foldl (fun s i =>
    if s.isRemote (g + 4 * i) then s.putAny vf noTag (g + 4 * i) (remoteKey (g + 4 * i)) ((bs.drop (4 * i)).take 4)
    else match s.stage2 vf (g + 4 * i) needWrite with
    | .ok a => s.putHome a ((bs.drop (4 * i)).take 4)
    | .error _ => s) s

/-- The save area written, and the regions emptied: FROZEN to SAVED (R237) (log 22: DESIGN CHOICE). -/
def State.doSave (s : State) (pid : Nat) : State :=
  let p := s.part pid
  let c := s.contextOf pid
  let s := (s.areaBytes pid).foldl (fun s x => s.putGpa (pVf p) (p.area + x.1) x.2) s
  ((s.clearContext pid).modPart pid (fun p => { p.toState 4 with saved := some c, ending := 0, frozen := [] })).drawn

/-! Scrubbing (R224, R233). -/

/-- The records of a partition's grounds ring freed (R233 step 5). -/
def State.ringReset (s : State) (pid : Nat) : State :=
  match s.ringCb pid with
  | .error _ => s
  | .ok cb => match s.ringPut pid (s.ringBlock pid) { cb with head := cb.tail, used := 0 }.words with
    | .ok t => t
    | .error _ => s

/-- The bytes of a partition's live descriptors zeroed. -/
def State.zeroDescs (s : State) (pid : Nat) : State :=
  (s.descs.filter (fun d => d.2.pid == pid && resident (s.part pid))).foldl (fun s d => match d.2.shape with
    | some h => s.zeroRange (s.descBase d.1 h) (s.descBase d.1 h + h.size)
    | none => s) s

/-- The status of a launch that a release or a disable ends (R48). -/
def endStatus (l : Launch) : Nat × Nat := match l.fault with | some c => (0x07, c) | none => (0x06, 0)

/-- The posted writes of a SAVED partition completed (R233 step 4); those to its own buffers go with them. -/
def State.completeSaved (s : State) (pid : Nat) : State :=
  match (s.part pid).saved with
  | none => s
  | some c => (c.reqs.filter (fun q => posted q && q.op == .store)).foldl (fun s q => s.putGpa (pVf (s.part pid)) q.gpa q.data) s

/-- A partition's launches ended, its regions and descriptors zeroed: to SCRUBBING (R233, R378) (log 78: DEDUCED). -/
def State.doRelease (s : State) (pid : Nat) : State :=
  let s := (s.part pid).launches.foldl (fun s l => s.endLaunch pid l (endStatus l).1 (endStatus l).2) (s.completeSaved pid)
  let s := (s.zeroDescs pid).ringReset pid
  ((s.partRegions pid).foldl (fun s r => s.modRegion r (fun x => { x with pid := pid + 1 })) (s.clearContext pid)).modPart pid
    (fun p => { p.toState 5 with ending := 0, frozen := [], saved := none, launches := [], quiet := [] })

/-! Thawing and restoring. -/

/-- Is every die of a partition ACTIVE? -/
def State.partActive (s : State) (pid : Nat) : Bool := (s.rectDies (pRect (s.part pid))).all s.dieActive

/-- May a steward thaw a partition (R402, R246)? (log 76: DEDUCED) -/
def State.mayThaw (s : State) (pid : Nat) : Bool :=
  pState (s.part pid) == 3 && (s.part pid).ending == 0 && s.partActive pid 
    && !(bitsOf (s.part pid).pstat 0 1 == 1 && (s.rectDies (pRect (s.part pid))).any (fun d => (s.die d).storm))
    && !(s.vf (pVf (s.part pid))).disabling

/-- The slice group of a partition (R234). -/
def pGroup (p : Part) : Nat := bitsOf p.pts 56 8

/-- Partitions other than one, defined. -/
def State.others (s : State) (pid : Nat) : List (Nat × Part) := s.parts.filter (fun x => x.1 != pid && x.2.pdef.getLsbD 63)

/-- Is another member of a partition's slice group resident? -/
def State.groupBusy (s : State) (pid : Nat) : Bool :=
  (s.others pid).any (fun x => pGroup x.2 == pGroup (s.part pid) && resident x.2)

/-- Are two physical dies neighbours in the direction of their VDNs (R221)? -/
def State.shapeHolds (s : State) (q : Rect) : Bool :=
  (s.crossed q).all (fun k =>
    let a := s.physDie (k / 2)
    let b := s.physDie (if k % 2 == 0 then k / 2 + 1 else k / 2 + s.cols)
    if k % 2 == 0 then b == a + 1 && b % s.cols != 0 else b == a + s.cols)

/-- The first VDN at which the context of a partition cannot be formed (R238 checks 1 to 3). -/
def State.resumeBad (s : State) (pid : Nat) : Option Nat :=
  let q := pRect (s.part pid)
  let ds := s.rectDies q
  let c := (s.part pid).saved.getD {}
  match ds.find? (fun d => !(s.dieActive d)) with
  | some d => some d
  | none =>
    if !(s.shapeHolds q) then
      some (ds.find? (fun d => !((s.crossed q).all (fun k => k / 2 != d ||
        (let a := s.physDie (k / 2)
         let b := s.physDie (if k % 2 == 0 then k / 2 + 1 else k / 2 + s.cols)
         if k % 2 == 0 then b == a + 1 && b % s.cols != 0 else b == a + s.cols)))) |>.getD (ds.headD 0))
    else ((s.rectRegions q).find? (fun r => (s.region r).dark && !(c.regions.get r).order.isEmpty)).map rkDie

/-- Does a rectangle cross a link that another resident partition, of another group, crosses (R221, R238)? -/
def State.linkClash (s : State) (pid : Nat) (q : Rect) (p : Part → Bool) : Bool :=
  let ls := s.crossed q
  (s.others pid).any (fun x => pGroup x.2 != pGroup (s.part pid) && p x.2 && (s.crossed (pRect x.2)).any (fun k => ls.contains k))

/-- F_RESUME (R238, R241). -/
def State.resumeRecord (s : State) (pid d : Nat) : Record :=
  { code := FCode.resume.num, vf := pVf (s.part pid), pid := pid, src := 3, place := { vdn := s.homeDie pid }, detail := d }

/-- The region ports on the edge of a rectangle. -/
def State.edgePorts (s : State) (q : Rect) : List Nat :=
  (s.rectRegions q).flatMap (fun r =>
    let gx := s.gxOf r
    let gy := s.gyOf r
    let one (b : Bool) (e : Nat) : List Nat := if b then [portBits 0 (rkDie r) (rkReg r) e 0] else []
    one (gx == q.gx) 0 ++ one (gx + 1 == q.gx + q.w) 1 ++ one (gy == q.gy) 2 ++ one (gy + 1 == q.gy + q.h) 3)

/-- The bridge channels of the links that a rectangle crosses (R222). -/
def State.linkPorts (s : State) (q : Rect) : List Nat :=
  (s.crossed q).flatMap (fun k => s.linkWords (s.physDie (k / 2)) (k % 2 == 1))

/-- A route word (R375). -/
def routeWord (blk : Bool) (pid : Nat) : BitVec 32 := BitVec.ofNat 32 (2 ^ 31 + (if blk then 2 ^ 30 else 0) + pid % 256 * 2 ^ 22)

/-- The route words of a partition written, or cleared (R222, R378). -/
def State.setRoutes (s : State) (pid : Nat) (on : Bool) : State :=
  let q := pRect (s.part pid)
  let put (m : PMap (BitVec 32)) (k : Nat) (w : BitVec 32) : PMap (BitVec 32) :=
    if on then m.set k w
    else if (m.get k).getLsbD 31 && ((m.get k).extractLsb' 22 8).toNat == pid % 256 then m.set k 0 else m
  let m := (s.edgePorts q).foldl (fun m k => put m k (routeWord true pid)) s.panel.routes
  let m := (s.linkPorts q).foldl (fun m k => put m k (routeWord false pid)) m
  { s with panel := { s.panel with routes := m } }

/-- A byte of a partition's save area; another where the area cannot be read here. -/
def State.areaByte (s : State) (pid off : Nat) (other : Byte) : Byte :=
  let p := s.part pid
  match (if s.isRemote (p.area + off) then .error .link else s.stage2 (pVf p) (p.area + off) needWrite) with
  | .ok a => memByte s.mem a
  | .error _ => other

/-- The live sub-buffers of a saved context as its save area holds them (R237, R238). -/
def State.areaBufs (s : State) (pid : Nat) (c : Saved) : List (Nat × Nat × List Byte) :=
  let q := pRect (s.part pid)
  (bufPlaces (s.areaDescs q (s.rectRegions q).length) c.descs c.bufs).filterMap (fun x => x.2.map (fun b =>
    (b.1, b.2.1, (List.range b.2.2.length).map (fun i => s.areaByte pid (x.1 + i) (b.2.2.getD i 0)))))

/-- The tiles of a saved context as its save area holds them, region by region in the order of R237 (log 22: DESIGN CHOICE). -/
def State.areaTiles (s : State) (pid : Nat) (c : Saved) : List Host.Cell :=
  let p := s.part pid
  let rs := s.rectRegions (pRect p)
  (List.range rs.length).flatMap (fun i =>
    let lo := tilesLo (rs.getD i 0)
    (List.range 0x100000).map (fun off =>
      (lo + off, s.areaByte pid (0x1000 + i * 0x118000 + 0x18000 + off) (PMap.get c.tiles (lo + off)))))

/-- PTCT restore (R238): the status, and the machine after it (log 22: DESIGN CHOICE). -/
def State.doRestore (s : State) (pid : Nat) : State × Nat :=
  let p := s.part pid
  if pState p != 4 || s.groupBusy pid then (s, 5)
  else match s.resumeBad pid with
    | some d => (s.report (s.homeDie pid) (s.resumeRecord pid d), 7)
    | none =>
      if s.linkClash pid (pRect p) resident then (s, 3)
      else
        let c := p.saved.getD {}
        (((s.setRoutes pid true).putContext { c with tiles := s.areaTiles pid c, bufs := s.areaBufs pid c }).modPart pid (fun x =>
        { x.toState 3 with saved := none, frozen := s.rectDies (pRect p) }), 0)

end Sys2Proof.Machine
end

