-- ==== Sys2Proof/Machine/Freeze.lean ====
section
/-! DEFINITION. Records on their way and in their rings (R242 to R246), abandonment (R244), the arrival of a freeze (R236), slices
(R235), scrubs (R224) and the disable of a VF (R233). -/

namespace Sys2Proof.Machine

/-! Rings (R244, R245, R270). -/

def State.ring (s : State) (vf k : Nat) : VRing := (s.vf vf).rings.get k
def State.modRing (s : State) (vf k : Nat) (f : VRing → VRing) : State :=
  s.modVf vf (fun x => { x with rings := x.rings.modify k f })

/-- Records a ring holds: 256 for the event ring, 64 for a trap queue. -/
def ringRoom (k : Nat) : Nat := if k == 0 then 256 else 64

/-- Is there room in a ring? -/
def State.ringFreeRoom (s : State) (vf k : Nat) : Bool := (s.ring vf k).recs.length < ringRoom k

/-- The records of a ring not yet mirrored are written to the host, where it has named a live queue pair (R270, R271). -/
def State.mirrorRing (s : State) (vf k : Nat) : State :=
  let x := s.ring vf k
  match x.buf with
  | none => s
  | some b =>
    if !(s.panel.qps.get b.qpn).live then s
    else
      let n := x.tail - x.sent
      let fresh := x.recs.drop (x.recs.length - n)
      let s := (List.range fresh.length).foldl (fun s i =>
        s.emit (.record vf k { b with va := b.va + 64 * ((x.sent + i) % ringRoom k) } (((fresh[i]?).getD {}).words))) s
      s.modRing vf k (fun y => { y with sent := y.tail })

/-- A record entered into a ring. -/
def State.pushRing (s : State) (vf k : Nat) (x : Record) : State :=
  (s.modRing vf k (fun y => { y with recs := y.recs ++ [x], tail := y.tail + 1 })).mirrorRing vf k

/-- The next number of a die's records for a VF (R242). -/
def State.nextSeq (s : State) (d vf : Nat) : Nat := (s.die d).recSeq.get vf
def State.countSeq (s : State) (d vf : Nat) : State := s.modDie d (fun x => { x with recSeq := x.recSeq.modify vf (· + 1) })

/-! Abandonment (R35, R244). -/

/-- Is a record of a launch still on its way, or held in a local store, or counted by what a local store holds? -/
def State.recordPending (s : State) (pid lnch : Nat) : Bool :=
  s.recs.any (fun m => m.record.pid == pid && m.record.lnch == lnch && m.record.code != FCode.trap.num)
    || s.dies.any (fun d => d.2.store.any (fun x => (x.pid == pid && x.lnch == lnch) || x.also.contains (pid, lnch))
        || d.2.coal.any (fun c => c.also.contains (pid, lnch)))

/-- Does storm mode hold a partition's abandonment (R246)? -/
def State.stormHolds (s : State) (pid : Nat) : Bool :=
  (s.rectDies (pRect (s.part pid))).any (fun d => (s.die d).storm)

/-- The launches of a FROZEN partition that are to be abandoned are, once their records have entered the ring; then it thaws, unless
another launch is held (R244) (log 75: DEDUCED; log 76: DEDUCED). -/
def State.abandonAll (s : State) (pid : Nat) : State :=
  let p := s.part pid
  if pState p != 3 || !(s.allFrozen pid) || s.stormHolds pid || p.ending != 0 then s
  else
    let ls := p.launches.filter (fun l => l.abandon && !(s.recordPending pid l.lnch))
    if ls.isEmpty then s
    else
      let s := ls.foldl (fun s l => s.endLaunch pid l 0x06 0) s
      if (s.part pid).launches.any (fun l => l.abandon || l.fault.isSome) || !(s.partActive pid) then s else s.thawPart pid

/-! The local store of a steward (R245, R246). -/

/-- The class of a record. -/
def sameClass (x : Record) (vf code : Nat) : Bool := x.vf == vf && x.code == code

/-- A count that saturates at 2^32 − 1. -/
def satAdd (n k : Nat) : Nat := min (2 ^ 32 - 1) (n + k)

/-- A fault counted in storm mode: it freezes its partition at once and sets PSTAT.STORM (R246), unless it is a further fault that leaves
PSTAT as it was (R439). -/
def State.stormCount (s : State) (d : Nat) (x : Record) : State :=
  let s := s.modDie d (fun y => { y with stormCtr := y.stormCtr.modify x.code (fun n => satAdd n (max 1 x.count)) })
  if x.still then s
  else
    let s := s.freezePart x.pid 2 x.code
    if pState (s.part x.pid) == 3 then s.modPart x.pid (fun p => { p with pstat := putBits p.pstat 0 1 1 }) else s

/-- A new fault while the ring is full (R245). The counters stand in the order in which they were set (log 131: DESIGN CHOICE). -/
def State.holdRecord (s : State) (d : Nat) (x : Record) : State :=
  let y := s.die d
  if y.store.any (fun r => sameClass r x.vf x.code) then
    s.modDie d (fun y => { y with store := y.store.map (fun r =>
      if sameClass r x.vf x.code then { r with count := satAdd r.count 1, also := (x.pid, x.lnch) :: r.also } else r) })
  else if y.coal.any (fun c => c.vf == x.vf && c.code == x.code) then
    s.modDie d (fun y => { y with coal := y.coal.map (fun c =>
      if c.vf == x.vf && c.code == x.code then { c with count := satAdd c.count 1, also := (x.pid, x.lnch) :: c.also } else c) })
  else if y.store.length < 16 then
    (s.modDie d (fun y => { y with store := y.store ++ [{ x with held := true, seq := s.nextSeq d x.vf }] })).countSeq d x.vf
  else if y.coal.length < 8 then s.modDie d (fun y => { y with coal := y.coal ++ [{ vf := x.vf, code := x.code, count := 1, also := [(x.pid, x.lnch)] }] })
  else ((s.modDie d (fun y => { y with storm := true })).alert d x.vf x.code).stormCount d x

/-- Has a die items for a VF? -/
def State.holdsFor (s : State) (d vf : Nat) : Bool :=
  (s.die d).store.any (fun r => r.vf == vf) || (s.die d).coal.any (fun c => c.vf == vf)

/-- May a VF's own record, its last (R242), leave the store of a die: nothing else of the VF is held? -/
def State.lastNow (s : State) (d vf : Nat) : Bool :=
  (List.range s.ndies).all (fun x => x == d || !(s.holdsFor x vf))
    && (s.die d).store.all (fun r => r.vf != vf || r.evk) && (s.die d).coal.all (fun c => c.vf != vf)

/-- A VF's next item in the local store of a die, and the die without it (R245, R246, R344): records, counters, and while storm mode is
ending a STORM record for each counter (log 131: DESIGN CHOICE). -/
def State.storeItem (s : State) (d vf : Nat) : Option (Record × State) :=
  let y := s.die d
  match y.store.find? (fun r => r.vf == vf && (!r.evk || s.lastNow d vf)) with
  | some r => some (r, s.modDie d (fun z => { z with store := z.store.erase r }))
  | none =>
    match y.coal.find? (fun c => c.vf == vf) with
    | some c => some ({ code := c.code, vf := vf, coal := true, count := c.count, seq := s.nextSeq d vf },
        (s.modDie d (fun z => { z with coal := z.coal.erase c })).countSeq d vf)
    | none =>
      if y.store.isEmpty && y.coal.isEmpty then
        match y.stormCtr.find? (fun c => c.2 != 0) with
        | some c => some ({ code := c.1, vf := vf, storm := true, count := c.2, seq := s.nextSeq d vf },
            (s.modDie d (fun z => { z with stormCtr := z.stormCtr.erase c.1 })).countSeq d vf)
        | none => none
      else none

/-- Storm mode ends once the local store has been sent, its records, its counters, and then the STORM records (R246, R344). -/
def State.stormEnd (s : State) (d : Nat) : State :=
  let y := s.die d
  if y.storm && y.store.isEmpty && y.coal.isEmpty && y.stormCtr.all (fun c => c.2 == 0) then s.modDie d (fun z => { z with storm := false }) else s

/-- Waiting abandons proceed (log 76: DEDUCED). -/
def State.abandonWaiting (s : State) : State := s.parts.foldl (fun s p => s.abandonAll p.1) s

/-- An item taken out of a store, as sent (log 79: DEDUCED). -/
def State.takeItem (s : State) (d vf : Nat) : State :=
  match s.storeItem d vf with
  | some (_, t) => (t.stormEnd d).abandonWaiting
  | none => s

/-- Is the way of a die's records to a VF's home open: the data channels, as event class (R27, R28)? Until it is they wait
(log 112: DESIGN CHOICE). -/
def State.eventOpen (s : State) (d vf : Nat) : Bool := s.portOpen (s.physDie d) (s.vf vf).home

/-- The items of a die for a VF sent to its ring while there is room, at most n (log 79: DEDUCED). -/
def State.pumpDie (s : State) (vf d : Nat) : Nat → State
  | 0 => s
  | n + 1 =>
    if !(s.ringFreeRoom vf 0) || !(s.eventOpen d vf) then s
    else match s.storeItem d vf with
      | some (x, t) => ((t.pushRing vf 0 x).stormEnd d).pumpDie vf d n
      | none => s

/-- Every die sends its held items for a VF (R245); the VF's own record, which die 0 holds, goes last. -/
def State.pump (s : State) (vf : Nat) : State :=
  ((List.range s.ndies ++ [0]).foldl (fun (s : State) d => s.pumpDie vf d 64) s).abandonWaiting

/-- A record on the steward path (R244 to R246). -/
def State.stewardPath (s : State) (d : Nat) (x : Record) : State :=
  if (s.die d).storm then s.stormCount d x
  else if s.ringFreeRoom x.vf 0 && !(s.holdsFor d x.vf) then
    (s.countSeq d x.vf).pushRing x.vf 0 { x with seq := s.nextSeq d x.vf }
  else s.holdRecord d x

/-- The number that a trapped element's record gets. -/
def Hold.number (h : Hold) (id seq : Nat) : Hold :=
  match h with
  | .trap i q => if i == id then .trap i (some seq) else .trap i q
  | x => x

/-- The elements that a message's trap holds learn the record's number. -/
def State.numberTrap (s : State) (id seq : Nat) : State :=
  { s with elems := s.elems.map (fun x => (x.1, { x.2 with hold := x.2.hold.number id seq })) }

/-- The launch that a record is about. -/
def State.recordLaunch (s : State) (x : Record) : Option Launch :=
  if !x.evk then (s.part x.pid).launches.find? (fun l => l.lnch == x.lnch) else none

/-! The disable of a VF (R233). -/

/-- The partitions of a VF. -/
def State.vfParts (s : State) (vf : Nat) : List Nat :=
  (s.parts.filter (fun p => pVf p.2 == vf && pState p.2 != 0)).map (fun p => p.1)

/-- The frames that a VF's stage-2 tables map, as site and frame (R149, R228). -/
def State.vfFrames (s : State) (vf : Nat) : List (Nat × Nat) :=
  (s.panel.vft.filter (fun x => x.1 % 64 == vf && x.1 / 64 < 200)).flatMap (fun x =>
    let site := x.1 / 64
    (List.range (bitsOf x.2.2 49 15)).filterMap (fun g =>
      let w := BitVec.ofNat 32 (bytesVal (memBytes s.mem (siteKey site (bitsOf x.2.1 12 25 * 4096 + 4 * g)) 4))
      if w.getLsbD 31 then some (site, s2Frame w) else none))

/-- Step 6 of R233: the VF's frames are zeroed. -/
def State.zeroFrames (s : State) (vf : Nat) : State :=
  (s.vfFrames vf).foldl (fun s f => s.zeroRange (siteKey f.1 (f.2 * 2 ^ 21)) (siteKey f.1 (f.2 * 2 ^ 21) + 2 ^ 21)) s

/-- The completion record of a VF (R242) (log 79: DEDUCED). -/
def vfRecord (vf : Nat) (x : Vf) : Record :=
  { vf := vf, evk := true, wid := x.abandoned * 2 ^ 32 + x.completed % 2 ^ 32, detail := x.stopped % 2 ^ 32,
    cmt := x.remote, count := 0 }

/-- A VF's own record, its last, on the event path from die 0 (R27, R242): to the ring where it has room and no steward holds an item of
the VF, else held at die 0. -/
def State.lastRecord (s : State) (vf : Nat) (x : Record) : State :=
  let x := { x with seq := s.nextSeq 0 vf }
  let t := s.countSeq 0 vf
  if s.ringFreeRoom vf 0 && s.eventOpen 0 vf && !((List.range s.ndies).any (fun d => s.holdsFor d vf)) then t.pushRing vf 0 x
  else t.modDie 0 (fun y => { y with store := y.store ++ [{ x with held := true }] })

/-- The queue pairs of a VF with nothing more to send (R232). -/
def State.endPairs (s : State) (vf : Nat) : State :=
  let one (q : Nat × QPair) : Nat × QPair := if q.2.vf == vf then (q.1, { q.2 with ending := false }) else q
  { s with panel := { s.panel with qps := s.panel.qps.map one } }

/-- Steps 6 and 7, when every partition of a disabled VF is FREE and none of its records is on its way (R233, R242). -/
def State.finishVf (s : State) (vf : Nat) : State :=
  if !(s.vf vf).disabling || !(s.vfParts vf).isEmpty || s.recs.any (fun m => m.record.vf == vf) then s
  else
    let s := s.zeroFrames vf
    ((s.lastRecord vf (vfRecord vf (s.vf vf))).endPairs vf).modVf vf (fun x => { x with disabling := false })

/-- FAULT_RECORD_DELIVER: message i reaches its steward, those of one die and VF in order (R244): a TRAP's goes to its launch's trap
queue; any other to the event ring, or the local store (log 79: DEDUCED). -/
def execFaultRecordDeliver (i : Nat) (s : State) : Host.Outcome State Fault Refusal :=
  match s.recs.find? (fun m => m.id == i) with
  | none => .next s
  | some m =>
    let x := m.record
    let lau := s.recordLaunch x
    let abnd := x.code != FCode.trap.num && x.code != FCode.resume.num && (match lau with | some l => l.abandon | none => false)
    if (s.recs.takeWhile (fun y => y.id != i)).any (fun y => y.die == m.die && y.record.vf == x.vf) then .next s
    else if !(s.eventOpen m.die x.vf) then .next s
    else if abnd && pState (s.part x.pid) == 3 && !(s.allFrozen x.pid) then .next s
    else
      let s : State := { s with recs := s.recs.filter (fun y => y.id != i) }
      let k := match lau with | some l => 1 + l.trapQ | none => 1
      if x.code == FCode.trap.num then
        let seq := s.nextSeq m.die x.vf
        if s.ringFreeRoom x.vf k then
          .next ((((s.countSeq m.die x.vf).pushRing x.vf k { x with seq := seq }).numberTrap m.id seq).finishVf x.vf)
        else
          let t := s.stewardPath m.die { x with tqf := true }
          .next ((if t.nextSeq m.die x.vf == seq then t else t.numberTrap m.id seq).finishVf x.vf)
      else .next (((s.stewardPath m.die { x with abnd := abnd }).abandonAll x.pid).finishVf x.vf)

/-- What waited for a way of event class to a VF's home goes as far as it can: held records, completion entries (R27, R28, R245, R270). -/
def State.reopened (s : State) : State :=
  s.vfs.foldl (fun s v =>
    let s := s.pump v.1
    ((s.vf v.1).sqs.foldl (fun s q => s.flushQueue v.1 q.1) s)) s

/-- EN of a VF as its sites hold it. -/
def State.putEn (s : State) (vf : Nat) (on : Bool) : State :=
  let one (x : Nat × (Dword × Dword)) : Nat × (Dword × Dword) :=
    if x.1 % 64 == vf && x.1 / 64 < 200 then (x.1, (putBits x.2.1 63 1 (if on then 1 else 0), x.2.2)) else x
  { s with panel := { s.panel with vft := (s.panel.vft.map one).filter (fun x => x.2 != default) } }

/-- What the device does for a VF that is being disabled: its own writes in the steps of R233 still reach the VF's frames, which no agent
of the VF does any more (log 78: DEDUCED). -/
def State.onBehalf (s : State) (vf : Nat) (f : State → State) : State :=
  if (s.vf vf).disabling then (f (s.putEn vf true)).putEn vf false else f s

/-- Steps 2 to 5 of R233 for a partition of a disabled VF whose freeze has landed: counts, then launches and regions. -/
def State.disablePart (s : State) (vf pid : Nat) : State :=
  let p := s.part pid
  if pState p == 1 || pState p == 4 || (pState p == 3 && s.allFrozen pid && p.ending != 1) then
    let jobs := s.partJobs pid
    let writes := s.partWrites pid
    (s.onBehalf vf (fun s => s.doRelease pid)).modVf vf (fun x => { x with
      abandoned := x.abandoned + p.launches.length, stopped := x.stopped + jobs, remote := x.remote + writes })
  else s

/-- A disabled VF goes as far as its partitions let it (log 78: DEDUCED). -/
def State.stepVf (s : State) (vf : Nat) : State :=
  if !(s.vf vf).disabling then s
  else ((s.vfParts vf).foldl (fun s pid => s.disablePart vf pid) s).finishVf vf

/-- The queue pairs of a VF closed, with a NAK for each request outstanding (R232, R268); the VF's last entries still go out on them
(log 129: DEDUCED). -/
def State.closePairs (s : State) (vf : Nat) : State :=
  let mine := s.panel.qps.filter (fun q => q.2.vf == vf && q.2.isOpen)
  let s := mine.foldl (fun s q => (s.hostOps q.1).foldl (fun s op => s.hostEnd q.1 op (.nak q.1 2)) s) s
  let shut (q : Nat × QPair) : Nat × QPair := if q.2.vf == vf && q.2.isOpen then (q.1, { q.2 with isOpen := false, ending := true }) else q
  ({ s with panel := { s.panel with qps := s.panel.qps.map shut } } : State).endWindows

/-- Step 1 of R233 for a VF: EN clears at every site, its queue pairs close, and its RUNNING partitions are tamped with CAUSE 4. -/
def State.disableVf (s : State) (vf : Nat) : State :=
  let off (x : Nat × (Dword × Dword)) : Nat × (Dword × Dword) :=
    if x.1 % 64 == vf then (x.1, (putBits x.2.1 63 1 0, x.2.2)) else x
  let s : State := { s with panel := { s.panel with vft := (s.panel.vft.map off).filter (fun x => x.2 != default) } }
  let s := (s.closePairs vf).modVf vf (fun x => { x with disabling := true })
  ((s.vfParts vf).foldl (fun s pid => s.freezePart pid 4 0) s).stepVf vf

/-! The arrival of a freeze (R236). -/

/-- Slice length of a partition: LENi of its resident launch of highest priority (R235). -/
def State.sliceLen (s : State) (pid : Nat) : Nat :=
  let p := s.part pid
  let ls := p.launches.filter (fun l => l.rect.isSome)
  match (sortOn (fun l => 7 - lhPri l.hdr) ls).head? with
  | some l => bitsOf p.pts (6 * lhTsc l.hdr) 6
  | none => 0

/-- The next member of a slice group after one, in ascending PID and round, that is SAVED and holds work (R235). -/
def State.nextMember (s : State) (pid : Nat) : Option Nat :=
  let ms := ((s.others pid).filter (fun x =>
    pGroup x.2 == pGroup (s.part pid) && pState x.2 == 4 && !x.2.launches.isEmpty)).map (fun x => x.1)
  match ms.find? (fun m => pid < m) with
  | some m => some m
  | none => ms.head?

/-- A partition restored at the start of its slice: its launches to be abandoned are, and it thaws unless a launch is held by its fault
or a storm holds it (R35, R235, R244, R246). -/
def State.resumeSlice (s : State) (pid : Nat) : State :=
  let t := s.abandonAll pid
  let p := t.part pid
  if pState p != 3 || p.launches.any (fun l => l.abandon || l.fault.isSome) || (bitsOf p.pstat 0 1 == 1 && t.stormHolds pid) then t
  else t.thawPart pid

/-- A partition saved at the end of its slice, and the next member restored and thawed (R235) (log 86: DESIGN CHOICE). -/
def State.switchSlice (s : State) (pid : Nat) : State :=
  if !(s.areaMapped pid) then s.modPart pid (fun p => { p with ending := 0 })
  else
    let s := s.doSave pid
    match s.nextMember pid with
    | none => s
    | some m =>
      let x := s.doRestore m
      if x.2 == 0 then x.1.resumeSlice m else x.1

/-- What waits for a partition's freeze to have reached every die: a PTCT save first, even while the VF is being disabled (R233), unless
its area is no longer mapped (R439); a PTCT release, which waits for the end of a root takeover (R378); a slice does not end in a disabled
VF, nor where a launch is to be abandoned (R244). -/
def State.frozenNow (s : State) (pid : Nat) : State :=
  let vf := pVf (s.part pid)
  match (s.part pid).ending with
  | 1 =>
    (s.onBehalf vf (fun s =>
      if s.areaMapped pid then s.doSave pid
      else (s.modPart pid (fun p => { p with ending := 0, saveStatus := 1 })).drawn.abandonAll pid)).stepVf vf
  | 2 => if s.panel.root.takeover then s else s.onBehalf vf (fun s => s.doRelease pid)
  | 3 =>
    if (s.vf vf).disabling || (s.part pid).launches.any (fun l => l.abandon) then
      ((s.modPart pid (fun p => { p with ending := 0 })).stepVf vf).abandonAll pid
    else s.switchSlice pid
  | _ => (s.stepVf vf).abandonAll pid

/-- FREEZE_ARRIVE: the freeze of a partition lands on a die; where it is the last, the progress records of its resident launches are
written (R236, R243), and what waits for it follows (log 76: DEDUCED). -/
def execFreezeArrive (die pid : Nat) (s : State) : Host.Outcome State Fault Refusal :=
  let p := s.part pid
  if pState p != 3 || p.frozen.contains die || !((s.rectDies (pRect p)).contains die) then .next s
  else
    let s := s.modPart pid (fun x => { x with frozen := x.frozen ++ [die] })
    if !(s.allFrozen pid) then .next s
    else
      let s := s.onBehalf (pVf p) (fun s => (p.launches.filter (fun l => l.rect.isSome)).foldl (fun s l => s.progress pid l) s)
      .next (s.frozenNow pid)

/-- SLICE_END: the slice of a resident partition ends; where another member of its group holds work, it is tamped, saved, and the
next restored and thawed (R235) (log 13: DEDUCED; log 86: DESIGN CHOICE). -/
def execSliceEnd (pid : Nat) (s : State) : Host.Outcome State Fault Refusal :=
  let p := s.part pid
  if !(pState p == 2 || (pState p == 3 && pCause p == 2 && !(p.launches.any (fun l => l.abandon)))) || s.sliceLen pid == 0 || p.ending != 0 then .next s
  else
    let s := s.modPart pid (fun x => { x with pstat := putBits x.pstat 16 16 (bitsOf x.pstat 16 16 + 1) })
    match s.nextMember pid with
    | none => .next s
    | some _ =>
      let s := (s.freezePart pid 1 0).modPart pid (fun x => { x with ending := 3 })
      .next (if s.allFrozen pid then s.switchSlice pid else s)

/-- SCRUB_COMPLETE: a SCRUBBING partition is FREE (R224, R378): its definition and route words are gone, its regions belong to no
partition, its launch numbers start afresh. During a root takeover it waits (R249, R378). -/
def execScrubComplete (pid : Nat) (s : State) : Host.Outcome State Fault Refusal :=
  let p := s.part pid
  if pState p != 5 || s.panel.root.takeover then .next s
  else
    let rs := s.partRegions pid
    let s := s.setRoutes pid false
    let s := rs.foldl (fun s r => (s.clearElems r).modRegion r (fun x => { x.emptied with pid := 0 })) s
    let s := s.modPart pid (fun x => { x with
      pdef := putBits x.pdef 63 1 0, pstat := 0, next := 0, decision := 0 })
    .next (s.finishVf (pVf p))

/-! Keys that move (R239, R240). -/

/-- A request, a sequencer, a launch, a saved context and a partition that wait at a word, with the word's key changed. -/
def Req.rekey (mv : Nat → Nat) (q : Req) : Req := if q.phase == .wait || q.op == .put then { q with word := mv q.word } else q
def SeqSt.rekey (mv : Nat → Nat) : SeqSt → SeqSt
  | .await w g => .await (mv w) g
  | .reached w => .reached (mv w)
  | x => x
def Launch.rekey (mv : Nat → Nat) (l : Launch) : Launch :=
  { l with deps := l.deps.map (fun d => (mv d.1, d.2)), cmp := l.cmp.map mv }
def Saved.rekey (mv : Nat → Nat) (c : Saved) : Saved :=
  { c with reqs := c.reqs.map (fun q => q.rekey mv), regions := c.regions.map (fun x => (x.1, { x.2 with seq := x.2.seq.rekey mv })) }
def Part.rekey (mv : Nat → Nat) (p : Part) : Part :=
  { p with launches := p.launches.map (fun l => l.rekey mv), saved := p.saved.map (fun c => c.rekey mv) }

/-- SLICE_COPY_COMPLETE: the background copy of a frame has ended: COPY to MOVED; the new frame holds the old one's bytes, and what waits
at a word of the frame waits at its new place (R240). -/
def execSliceCopyComplete (kind site lfn : Nat) (s : State) : Host.Outcome State Fault Refusal :=
  let p := if kind == 0 then s.physSite site else 100 + s.physDie site
  match s.panel.pgfw.get (p * 2 ^ 20 + lfn) with
  | .copy v l =>
    let a := siteKey p (lfn * 2 ^ 21)
    let b := siteKey (s.newSite p v) (l * 2 ^ 21)
    let s := s.zeroRange b (b + 2 ^ 21)
    let s := (s.mem.filter (fun c => a ≤ c.1 && c.1 < a + 2 ^ 21)).foldl (fun s c => s.write (b + (c.1 - a)) [c.2]) s
    let mv {α : Type} [Inhabited α] [DecidableEq α] (m : PMap α) (u : Nat) : PMap α :=
      (m.filter (fun c => a / u ≤ c.1 && u * c.1 < a + 2 ^ 21)).foldl (fun m c => PMap.set m (b / u + (c.1 - a / u)) c.2) m
    let mvKey (w : Nat) : Nat := if a ≤ w && w < a + 2 ^ 21 then b + (w - a) else w
    let t : State := { s with
      marks := mv s.marks 16, vers := mv s.vers 8, relCov := mv s.relCov 1
      reqs := s.reqs.map (fun q => q.rekey mvKey)
      regions := s.regions.map (fun x => (x.1, { x.2 with seq := x.2.seq.rekey mvKey }))
      parts := s.parts.map (fun p : Nat × Part => (p.1, p.2.rekey mvKey))
      dies := s.dies.map (fun d : Nat × Die => (d.1, { d.2 with
        stw := d.2.stw.map (fun j => { j with launch := j.launch.rekey mvKey }) })) }
    .next { t with panel := { t.panel with pgfw := t.panel.pgfw.set (p * 2 ^ 20 + lfn) (.moved v l) } }
  | _ => .next s

end Sys2Proof.Machine
end

