-- ==== Sys2Proof/Machine/Identity.lean ====
section
/-! DEFINITION. Identities: which channel faces which (R20, R21, R24), the key registers (R257, R258), leaving ACTIVE (R255), and
resetting a die (R254, R261, R275). Dies are physical here. -/

namespace Sys2Proof.Machine

/-! Places of dies and channels. -/

/-- Edges: 0 west, 1 east, 2 south, 3 north; the edge across. -/
def acrossEdge (e : Nat) : Nat := if e % 2 == 0 then e + 1 else e - 1

/-- The site (x, y) next to one on an edge; none outside the grid (log 104: DEDUCED). -/
def State.nextSite (s : State) (x y e : Nat) : Option (Nat × Nat) :=
  match e with
  | 0 => if x == 0 then none else some (x - 1, y)
  | 1 => if x + 1 < 2 * s.cols then some (x + 1, y) else none
  | 2 => if y == 0 then none else some (x, y - 1)
  | _ => if y + 1 < gridRows s.panel.form then some (x, y + 1) else none

/-- The place of a fabric die, and of a bridge (R13). -/
def State.fabricAt (s : State) (p : Nat) : Nat × Nat := (2 * (p % s.cols) + p / s.cols % 2, p / s.cols)
def State.bridgeAt (s : State) (p : Nat) : Nat × Nat := (2 * (p % s.cols) + (p / s.cols + 1) % 2, p / s.cols)

/-- The number of the die at a site, of its kind. -/
def State.numberAt (s : State) (x y : Nat) : Nat := s.cols * y + x / 2

/-- The port die attached to a fabric die, with the attachment's index (R24). -/
def State.portOf (s : State) (p : Nat) : Option (Nat × Nat) :=
  (List.range (gridPorts s.panel.form)).findSome? (fun q =>
    ((List.range 2).find? (fun a => (portDies s.panel.form q)[a]? == some p)).map (fun a => (q, a)))

/-- The other end of channel n = 2e + ch of a die (R257). -/
def State.peer (s : State) (u : UnitId) (n : Nat) : Option (UnitId × Nat) :=
  if 8 ≤ n then none
  else
    let e := n / 2
    match u with
    | .fabric p =>
      let (x, y) := s.fabricAt p
      (match s.nextSite x y e with
       | some (x', y') => some (.bridge (s.numberAt x' y'), 2 * acrossEdge e + n % 2)
       | none => if (e == 0 || e == 1) then (s.portOf p).map (fun a => (.port a.1, 2 * a.2 + n % 2)) else none)
    | .bridge p =>
      let (x, y) := s.bridgeAt p
      (s.nextSite x y e).map (fun a => (.fabric (s.numberAt a.1 a.2), 2 * acrossEdge e + n % 2))
    | .port q =>
      match (portDies s.panel.form q)[e]? with
      | some p => if 2 ≤ e then none else some (.fabric p, 2 * (if (s.fabricAt p).1 == 0 then 0 else 1) + n % 2)
      | none => none

/-- Is a die one of the part? -/
def State.unitOk (s : State) : UnitId → Bool
  | .fabric p => p < s.ndies
  | .bridge p => p < s.ndies
  | .port q => q < gridPorts s.panel.form

def State.unit (s : State) (u : UnitId) : Identity := s.ident (idOf u)
def State.modUnit (s : State) (u : UnitId) (f : Identity → Identity) : State := s.modIdent (idOf u) f
def State.chan (s : State) (u : UnitId) (n : Nat) : Chan := (s.unit u).chans.get n
def State.modChan (s : State) (u : UnitId) (n : Nat) (f : Chan → Chan) : State :=
  s.modUnit u (fun x => { x with chans := x.chans.modify n f })

/-- Every die of the part with an identity. -/
def State.units (s : State) : List UnitId :=
  (List.range s.ndies).map .fabric ++ (List.range s.ndies).map .bridge ++ (List.range (gridPorts s.panel.form)).map .port

/-! Key registers (R257, R258). -/

/-- State and generation of key slot i. -/
def keyState (w : Dword) (i : Nat) : Nat := bitsOf w (62 - 2 * i) 2
def keyGen (w : Dword) (i : Nat) : Nat := bitsOf w (44 - 16 * i) 16
def keyGrace (w : Dword) : Nat := bitsOf w 0 11

/-- A key slot given a state and a generation. -/
def putKey (w : Dword) (i st gen : Nat) : Dword := putBits (putBits w (62 - 2 * i) 2 st) (44 - 16 * i) 16 gen

/-- The slot in a state. -/
def slotIn (w : Dword) (st : Nat) : Option Nat := if keyState w 0 == st then some 0 else if keyState w 1 == st then some 1 else none

def hasKey (w : Dword) (st : Nat) : Bool := (slotIn w st).isSome

/-- A key delivered: CURRENT for the first, else NEXT in an EMPTY slot; none where it is refused (R258) (log 95: DEDUCED). -/
def deliverKey (w : Dword) (gen : Nat) : Option Dword :=
  if keyState w 0 == 0 && keyState w 1 == 0 && gen == 0 then some (putKey w 0 2 0)
  else (slotIn w 0).map (fun i => putKey w i 1 gen)

/-- NEXT becomes CURRENT; at a transmitter the previous CURRENT is EMPTY, at a receiver it is OLD with GRACE 1,024 (R258). -/
def switchKey (rx : Bool) (w : Dword) : Dword :=
  match slotIn w 1 with
  | none => w
  | some i =>
    let old := slotIn w 2
    let w := match old with | some j => putKey w j (if rx then 3 else 0) (if rx then keyGen w j else 0) | none => w
    let w := putKey w i 2 (keyGen w i)
    if rx && old.isSome then putBits w 0 11 1024 else w

/-- Flits arrived under the new key: GRACE falls, and at 0 OLD retires (R258, R259). -/
def spendGrace (w : Dword) (flits : Nat) : Dword :=
  let g := keyGrace w - flits
  let w := putBits w 0 11 g
  if g == 0 then (match slotIn w 3 with | some i => putKey w i 0 0 | none => w) else w

/-- Does a channel hold CURRENT keys both ways at an end? -/
def Chan.keyed (c : Chan) : Bool := hasKey c.tx 2 && hasKey c.rx 2

/-- KEYED of the two ends of a channel kept: keyed both ways, not down, and both dies ACTIVE, so that it carries data (R28, R253, R260). -/
def State.refreshKeyed (s : State) (u : UnitId) (n : Nat) : State :=
  match s.peer u n with
  | none => s
  | some (v, m) =>
    let on := (s.chan u n).keyed && (s.chan v m).keyed && !(s.chan u n).down && !(s.chan v m).down
      && s.isActive (idOf u) && s.isActive (idOf v)
    let bit (s : State) (w : UnitId) (k : Nat) : State :=
      s.modUnit w (fun x => { x with das := putBits x.das (8 + k) 1 (if on then 1 else 0) })
    bit (bit s u n) v m

/-- The keys of EMPTY slots erased (R258). -/
def Chan.zeroised (c : Chan) : Chan :=
  { c with tkeys := c.tkeys.filter (fun k => keyState c.tx k.1 != 0), rkeys := c.rkeys.filter (fun k => keyState c.rx k.1 != 0) }

/-- An end of a channel un-keyed. A channel that was down comes up with its next keys (R260, R261) (log 95: DEDUCED). -/
def Chan.bare (c : Chan) : Chan :=
  { c with down := false, tx := 0, rx := 0, tkeys := [], rkeys := [], nonce := none, ack := none, busy := false,
           frames := 0, retries := 0, unacked := [], due := false, switching := false }

/-- A channel un-keyed at both ends (R255, R260). -/
def State.unkey (s : State) (u : UnitId) (n : Nat) : State :=
  match s.peer u n with
  | none => s
  | some (v, m) => ((s.modChan u n Chan.bare).modChan v m Chan.bare).refreshKeyed u n

/-- KEYED of every channel of a die kept. -/
def State.refreshAll (s : State) (u : UnitId) : State := (List.range 8).foldl (fun s n => s.refreshKeyed u n) s

/-- The place of a die in a link key: its site, or (16, p) for port die p (R256). -/
def State.linkSite (s : State) : UnitId → Nat × Nat
  | .fabric p => s.fabricAt p
  | .bridge p => s.bridgeAt p
  | .port q => (16, q)

/-- EPOCH of DAS (R253). -/
def dasEpoch (x : Identity) : Nat := bitsOf x.das 16 16

/-- The key of a channel from a transmitter, for a generation (R256). The spec gives the inputs of SHAKE256 no widths and `dir` no
code: a byte each, EPOCH and GEN two, and 0 for a fabric die's own direction (log 20: DESIGN CHOICE). -/
def State.deriveKey (s : State) (t : UnitId) (n : Nat) (r : UnitId) (gen : Nat) : BitVec 256 :=
  let p := s.linkSite t
  let dir := match t with | .fabric _ => 0 | _ => 1
  Config.shake256 (wordBytes s.panel.root.lms ++ asciiBytes "LINK" ++ valBytes 1 p.1 ++ valBytes 1 p.2 ++ valBytes 1 (n / 2)
    ++ valBytes 1 (n % 2) ++ valBytes 1 dir ++ valBytes 2 (dasEpoch (s.unit t)) ++ valBytes 2 (dasEpoch (s.unit r)) ++ valBytes 2 gen)

/-- The root's next generation for the transmitter of a channel (R256). -/
def linkKey (u : UnitId) (n : Nat) : Nat := 8 * idOf u + n
def State.linkGen (s : State) (u : UnitId) (n : Nat) : BitVec 16 := s.panel.root.linkGen.get (linkKey u n)
def State.setLinkGen (s : State) (u : UnitId) (n : Nat) (g : BitVec 16) : State :=
  s.modRoot (fun x => { x with linkGen := x.linkGen.set (linkKey u n) g })

/-- Every channel of a die un-keyed; the next keys are of generation 0 (R255, R261). -/
def State.unkeyAll (s : State) (u : UnitId) : State :=
  (List.range 8).foldl (fun s n =>
    match s.peer u n with
    | none => s
    | some (v, m) => ((s.unkey u n).setLinkGen u n 0).setLinkGen v m 0) s

/-! Leaving ACTIVE (R255). -/

/-- A partition frozen with CAUSE 5, from RUNNING or IDLE (R224). -/
def State.freezeDie (s : State) (pid : Nat) : State :=
  if pState (s.part pid) == 1 then
    s.modPart pid (fun p => { p with pstat := putBits (putBits (putBits p.pstat 61 3 3) 58 3 5) 48 8 0, frozen := [], quiet := [] })
  else s.freezePart pid 5 0

/-- The partitions that a die's leaving ACTIVE freezes. -/
def State.touchedBy (s : State) (u : UnitId) : List Nat :=
  match u with
  | .fabric p => (s.parts.filter (fun x => resident x.2 && (s.rectDies (pRect x.2)).contains (s.vdnOf p))).map (fun x => x.1)
  | .bridge p => (s.parts.filter (fun x => resident x.2 && (s.vfFrames (pVf x.2)).any (fun f => f.1 == p))).map (fun x => x.1)
  | .port _ => []

/-- A port die lost (R271): each VF at home there moves to its mirror, with its rings and queues; without a mirror what the home held is
gone. The queue pairs of that die's ports end, and the accesses they made are dropped. A package with no other port die stops (R3)
(log 91: DEDUCED). -/
def State.loseHome (s : State) (q : Nat) : State :=
  let shut (x : Nat × QPair) : Nat × QPair := if x.2.port / 8 == q then (x.1, { x.2 with isOpen := false, ending := false }) else x
  let move (x : Nat × Vf) : Nat × Vf :=
    if x.2.home != q then x
    else match x.2.mirror with
      | some m => (x.1, { x.2 with home := m })
      | none => (x.1, { x.2 with rings := [], sqs := [] })
  let ended (x : Req) : Bool := match x.who with | .host n _ _ => (s.panel.qps.get n).port / 8 == q | _ => false
  ({ s with
      panel := { s.panel with qps := s.panel.qps.map shut, ports := s.panel.ports.modify q (fun x => { x with lost := true }),
                              stopped := s.panel.stopped || gridPorts s.panel.form == 1 }
      vfs := s.vfs.map move, reqs := s.reqs.filter (fun x => !(ended x)) } : State).remirror.endWindows.reopened

/-- What leaving ACTIVE does (R255). -/
def State.leaveActive (s : State) (u : UnitId) : State :=
  let s := s.unkeyAll u
  match u with
  | .port q => s.loseHome q
  | _ => (s.touchedBy u).foldl (fun s pid => s.freezeDie pid) s

/-- A die in a new state, with the effects of leaving ACTIVE where it does (R253 to R255). -/
def State.dieTo (s : State) (u : UnitId) (st cause : Nat) : State :=
  let was := dasState (s.unit u)
  let s := (s.modUnit u (fun x => { x with das := putBits (putBits x.das 61 3 st) 52 4 cause })).refreshAll u
  if was == 3 && st != 3 then s.leaveActive u else s

/-- QUARANTINED, for a die that may go there (R254). -/
def State.quarantine (s : State) (u : UnitId) (cause : Nat) : State :=
  let st := dasState (s.unit u)
  if st == 1 || st == 2 || st == 3 then (s.unkeyAll u).dieTo u 4 cause else s

/-- RESETTING, for a die that may go there (R254, R261 step 2). -/
def State.startReset (s : State) (u : UnitId) : State :=
  let st := dasState (s.unit u)
  if st == 0 || st == 5 then s
  else ((s.unkeyAll u).dieTo u 5 0).modUnit u (fun x => { x with spdm := {} })

/-- The SRAM of a die scrubbed (R275): tiles, QB and DB, version bits, sync marks. -/
def State.scrubDie (s : State) (p : Nat) : State :=
  let v := s.vdnOf p
  let s := s.zeroRange (windowKey p 0) (windowKey (p + 1) 0)
  (List.range 16).foldl (fun s i => s.zeroRange (tilesLo (rkOf v i)) (tilesHi (rkOf v i))) s

/-- The regions of a fabric die, the steward region among them, set to reset with their TLBs, and what its engines and its steward hold given
up; σ is the root's and stays (R254, R261 step 3, R277). -/
def State.clearRegions (s : State) (v : Nat) : State :=
  (List.range 17).foldl (fun s j => (s.clearElems (rkOf v j)).modRegion (rkOf v j) (fun x =>
    { x.cleared with dark := x.dark, fused := x.fused, tlb := [] })) s
def State.clearIslands (s : State) (v : Nat) : State :=
  let s : State := { (List.range 17).foldl (fun s j => s.clearEngines (rkOf v j)) s with
    descs := s.descs.filter (fun d => d.1 % 2 ^ 20 / 1024 != v) }
  s.modDie v (fun x => { x with stw := [], islands := [], merges := [], store := [], coal := [], storm := false, stormCtr := [] })

/-- RESETTING to DARK: the keys are zeroised and the die's state scrubbed, with the records that wait for its steward; launches that
waited for one of those are abandoned (R254, R261 step 3). A bridge keeps its stack (log 94: DEDUCED). -/
def State.endReset (s : State) (u : UnitId) : State :=
  let s := s.modUnit u (fun x => { x with
    das := putBits (putBits (putBits (putBits x.das 61 3 0) 40 8 0) 8 8 0) 0 2 0, chans := [], spdm := {},
    cdi := 0, sk := [], idCert := [], certs := [], m1 := 0, m2 := 0 })
  match u with
  | .fabric p =>
    let t := ((s.scrubDie p).clearRegions (s.vdnOf p)).clearIslands (s.vdnOf p)
    ({ t with recs := t.recs.filter (fun m => m.die != s.vdnOf p) } : State).abandonWaiting
  | _ => s

/-- May a die boot (R254)? -/
def State.bootable (s : State) (u : UnitId) : Bool := s.mayBoot (idOf u)

/-- The seed of a stage's key pair (R247). -/
def keySeed (cdi : BitVec 256) : BitVec 256 := Config.shake256 (wordBytes cdi ++ asciiBytes "KEY")

/-- A die's identity stage (R247): cdi[0] and sk[0] of its seed, and the identity certificate of pk[0]. -/
def Identity.rooted (x : Identity) : Identity :=
  let cdi := Config.shake256 (asciiBytes "IKB-ID" ++ wordBytes x.seed)
  let k := Config.keyGen (keySeed cdi)
  { x with cdi := cdi, sk := k.2, idCert := Config.identityCert k.1, certs := [] }

/-- The next stage (R247): its secret and key pair, its certificate signed with the last stage's secret key, which is erased with the
last secret. -/
def Identity.derive (x : Identity) (m : BitVec 384) : Identity :=
  let cdi := Config.shake256 (wordBytes x.cdi ++ wordBytes m)
  let k := Config.keyGen (keySeed cdi)
  { x with cdi := cdi, sk := k.2, certs := x.certs ++ [Config.certificate k.1 m x.sk] }

/-- Stage 1 of a die: the mask ROM and boot loader (R247, R273). -/
def Identity.stage1 (x : Identity) (image : List Byte) : Identity :=
  let m := Config.sha384 image
  { (x.rooted.derive m) with m1 := m, das := putBits x.das 0 2 1 }

/-- Stage 2 after it. -/
def Identity.stage2 (x : Identity) (image : List Byte) : Identity :=
  let m := Config.sha384 image
  { (x.derive m) with m2 := m, das := putBits x.das 0 2 2 }

/-- The certificate chain of slot 0: device CA, identity, stage 1, stage 2 (R250). -/
def Identity.certChain (x : Identity) : List Byte := Config.deviceCa ++ x.idCert ++ x.certs.flatten

/-- DARK to MEASURED: stage 2 runs (R247, R248, R254): the epoch counts, the cycle counter starts from zero (log 94: DEDUCED). -/
def State.bootDie (s : State) (u : UnitId) : State :=
  let i := s.image (idOf u)
  s.modUnit u (fun x =>
    let y := (x.stage1 i.2.1).stage2 i.2.2
    { y with
      das := putBits (putBits (putBits (putBits y.das 61 3 1) 52 4 0) 16 16 (bitsOf y.das 16 16 + 1)) 40 8 i.1.toNat
      cycle := 0 })

/-- The repair fuses of a die as bytes, for measurement block 3: of each region whether it is dark, and its fused-off elements by place
and row; a bridge or port die has none (R78, R79, R252) (log 20: DESIGN CHOICE). -/
def State.fuseBytes (s : State) : UnitId → List Byte
  | .fabric p => (List.range 16).flatMap (fun i =>
      let x := s.panel.fuses.get (17 * p + i)
      (if x.dark then 1 else 0) :: BitVec.ofNat 8 x.fused.length :: x.fused.flatMap (fun f => [BitVec.ofNat 8 f.1, BitVec.ofNat 8 f.2]))
  | _ => []

/-- The measurement blocks that a die returns (R252): m[1], m[2], the repair fuses, SVN and MINSVN of a byte each. -/
def State.blocks (s : State) (u : UnitId) : List (List Byte) :=
  let x := s.unit u
  [wordBytes x.m1, wordBytes x.m2, wordBytes (Config.sha384 (s.fuseBytes u)), valBytes 1 (bitsOf x.das 40 8) ++ valBytes 1 (bitsOf x.das 32 8)]

/-- Do the blocks of a die match the root's policy (R249, R254)? (log 20: DESIGN CHOICE) -/
def State.policyMet (s : State) (u : UnitId) : Bool :=
  (List.range 4).all (fun i => s.panel.root.policy.contains (idOf u / 100, i + 1, (s.blocks u).getD i []))

/-- Every channel of a die to an ACTIVE neighbour holds CURRENT keys at both ends (R254). -/
def State.channelsKeyed (s : State) (u : UnitId) : Bool :=
  (List.range 8).all (fun n =>
    match s.peer u n with
    | none => true
    | some (v, m) => !(s.isActive (idOf v)) || ((s.chan u n).keyed && (s.chan v m).keyed))

/-- ATTESTED to ACTIVE, once the session is open and the channels are keyed (R254); what waited for a way that this opens goes on
(R28). -/
def State.maybeActive (s : State) (u : UnitId) : State :=
  let x := s.unit u
  if dasState x == 2 && x.spdm.session && s.channelsKeyed u then
    let s := s.dieTo u 3 0
    match u with
    | .port q => (({ s with panel := { s.panel with ports := s.panel.ports.modify q (fun x => { x with lost := false }) } } : State).remirror).reopened
    | _ => s.reopened
  else s.reopened

/-- A fault against a partition as a whole (R241, R260): its record, and the freeze. -/
def State.raisePart (s : State) (c : FCode) (pid die detail : Nat) : State :=
  let x : Record := { code := c.num, vf := pVf (s.part pid), pid := pid, src := 3, place := { vdn := die }, detail := detail }
  (((s.report die x).stormMark die pid)).freezePart pid 2 c.num

/-- The fabric die and the bridge of a channel, by physical number. -/
def State.endsOf (s : State) (u : UnitId) (n : Nat) : Option Nat × Option Nat :=
  let one (w : UnitId) (acc : Option Nat × Option Nat) : Option Nat × Option Nat :=
    match w with | .fabric p => (some p, acc.2) | .bridge p => (acc.1, some p) | .port _ => acc
  match s.peer u n with | some (v, _) => one v (one u (none, none)) | none => one u (none, none)

/-- The end of a channel at a fabric die. -/
def State.fabricEnd (s : State) (u : UnitId) (n : Nat) : Option (Nat × Nat) :=
  match u with
  | .fabric p => some (p, n)
  | _ => match s.peer u n with
    | some (.fabric p, m) => some (p, m)
    | _ => none

/-- The die at the other end of a link channel's logical link (R21). -/
def State.linkMate (s : State) (c : Nat × Nat) : Option Nat :=
  let w := s.cols
  let r := c.1 / w
  if c.2 == 0 then (if c.1 % w == 0 then none else some (c.1 - 1))
  else if c.2 == 2 then (if c.1 % w + 1 < w then some (c.1 + 1) else none)
  else if c.2 == 6 then (if r + 1 < gridRows s.panel.form then some (c.1 + w) else none)
  else if c.2 == southLink r && 0 < r then some (c.1 - w) else none

/-- The channels that a route from a physical die to a site crosses (R25). -/
def State.siteChans (s : State) (src site : Nat) : List (Nat × Nat) :=
  if site < 100 then s.lastChan site :: s.hopChans src (s.entryDie site) else s.hopChans src (site - 100)

/-- Does a partition use a channel of a fabric die: as a boundary between its own dies, on a route from its dies to a site where its VF
holds a frame, or at a port die by an open queue pair (R20, R25, R260)? (log 85: DEDUCED) -/
def State.usesChan (s : State) (pid : Nat) (c : Nat × Nat) : Bool :=
  let p := s.part pid
  let ds := (s.rectDies (pRect p)).map s.physDie
  let crossed := match s.linkMate c with | some m => ds.contains c.1 && ds.contains m | none => false
  let atPort := match s.peer (.fabric c.1) c.2 with
    | some (.port q, _) => s.panel.qps.any (fun x => x.2.isOpen && x.2.pid == pid && x.2.vf == pVf p && x.2.port / 8 == q)
    | _ => false
  crossed || atPort || ((s.vfFrames (pVf p)).map (fun f => f.1)).eraseDups.any (fun site => ds.any (fun d => (s.siteChans d site).contains c))

/-- The RUNNING partitions that use a channel (R260) (log 85: DEDUCED). -/
def State.usersOf (s : State) (u : UnitId) (n : Nat) : List Nat :=
  match s.fabricEnd u n with
  | none => []
  | some c => (s.parts.filter (fun x => pState x.2 == 2 && s.usesChan x.1 c)).map (fun x => x.1)

/-- A channel goes down, with F_LINK against each partition that uses it: DETAIL names the edge and the channel (R242, R260)
(log 79: DEDUCED). -/
def State.linkDown (s : State) (u : UnitId) (n : Nat) : State :=
  let die := match (s.endsOf u n).1 with | some p => s.vdnOf p | none => 0
  let users := s.usersOf u n
  let s := s.modChan u n (fun c => { c with down := true })
  let s := match s.peer u n with | some (v, m) => (s.modChan v m (fun c => { c with down := true })).refreshKeyed u n | none => s
  users.foldl (fun s pid => s.raisePart .link pid die (n / 2 + n % 2 * 8)) s

end Sys2Proof.Machine
end

