-- ==== Sys2Proof/Machine/Quiet.lean ====
section
/-! DEFINITION. Quiescence, WAITING and F_DEADLOCK with its report (R63 to R65), and the barista's windows (R60, R61). -/

namespace Sys2Proof.Machine

/-! Quiet counts (R63). -/

/-- Is an access of a partition in flight on a die: issued and not yet answered, or posted and not yet applied? The reads of a copy
job from another panel and the words it has sent to a tile are accesses; a wait registered at a home is none (R63). -/
def State.accessInFlight (s : State) (die pid : Nat) : Bool :=
  let here (r : Nat) : Bool := rkDie r == die && s.pidOf r == some pid
  s.reqs.any (fun q => here q.ret.rk && !(s.registered q))
    || s.jobs.any (fun j => here j.region && j.asked.any (fun g => !(j.got.any (fun x => x.1 == g))))
    || s.words.any (fun w => here w.rk)
    || s.tileQ.any (fun t => rkDie (t.1 / 8) == die && s.pidOf (t.1 / 8) == some pid && !t.2.isEmpty)

/-- QUIET_COUNT_EXPIRE: a die has counted 4,096 cycles without activity of a partition, and reports quiet (R63)
(log 13: DEDUCED; log 87: DESIGN CHOICE). -/
def execQuietCountExpire (die pid : Nat) (s : State) : Host.Outcome State Fault Refusal :=
  let p := s.part pid
  if pState p != 2 || s.accessInFlight die pid || p.quiet.contains die || !((s.rectDies (pRect p)).contains die) then .next s
  else .next (s.modPart pid (fun x => { x with quiet := x.quiet ++ [die] }))

/-! Blocked items (R64, R65). -/

/-- The VA that a slot's SYWCH waits on at its home. -/
def State.sywchVa (s : State) (e n : Nat) : Option Nat :=
  (s.reqs.find? (fun q => q.who == .firing && q.ret.e == e && q.ret.slot == n && q.phase == .wait
    && (match q.op with | .sywch _ => true | _ => false))).map (fun q => q.va)

/-- The version that a slot's request waits for. -/
def State.versionOf (s : State) (e n : Nat) : Nat :=
  match s.reqs.find? (fun q => q.ret.e == e && q.ret.slot == n && isVersioned q.op && q.phase == .wait) with
  | some q => (match q.op with | .ldv v | .stv v | .rclm v => v | _ => 0)
  | none => 0

/-- The awaited fields that are empty, as P, R, L from bit 2. -/
def missingFields (sl : SlotSt) : Nat :=
  (if sl.aw.getLsbD 0 && sl.l.isNone then 1 else 0) + (if sl.aw.getLsbD 1 && sl.r.isNone then 2 else 0)
    + (if sl.aw.getLsbD 2 && sl.p.isNone then 4 else 0)

/-- A field that holds a token its slot does not await. -/
def idleField (sl : SlotSt) (o : Slot) : Option Nat :=
  let dead (h : Option Held) (i : Nat) : Bool := h.isSome && !(o.awt && sl.aw.getLsbD i)
  if dead sl.l 0 then some 0 else if dead sl.r 1 then some 1 else if dead sl.p 2 then some 2 else none

/-- An input channel of an element that holds a token which no slot takes. -/
def idleChannel (el : Elem) : Option Nat :=
  (List.range 4).find? (fun c => !(el.ins.get c).q.isEmpty && el.slots.all (fun x => match x.2.parts with
    | some (_, o, _) => x.2.frm == 0 || !(o.icn.getLsbD c)
    | none => true))

/-- The first unmet condition of a slot, in the order of R65: COND, CH, DETAIL. A slot that lacks none is held with its element by a
TRAP, and R65 names no condition for it: the code is free (log 87: DESIGN CHOICE). -/
def State.condition (s : State) (e n : Nat) : Option (Nat × Nat × Nat) :=
  let el := s.elem e
  let sl := el.slots.get n
  match sl.parts, s.sywchVa e n with
  | none, _ => none
  | some _, some va => some (6, 0, va / 16 % 2 ^ 27)
  | some (op, o, f), none =>
    if !(guardHolds o el.st) then some (0, 0, o.gv.toNat * 2 ^ 21 + o.gm.toNat * 2 ^ 15)
    else if !(fieldsReady sl o) then some (1, 0, missingFields sl)
    else if !(channelsReady el n op o f) then
      some (2, (if op == .mrg then (mrgLacks el n f).getD (Config.elapsed s.draws % 4)
        else ((maskList o.icn).find? (fun c => (el.ins.get c).q.isEmpty)).getD 0), 0)
    else match (maskList o.ocs).find? (fun c => !(outFree el op o c)) with
      | some c => some (3, c, 0)
      | none =>
        if !(s.streamReady (ekRegion e) (sl.frm - 1) op f) then some (4, 0, fnIm f % 8)
        else if !(s.versionReady e n) then some (5, 0, s.versionOf e n)
        else match idleField sl o with
          | some i => some (8, 0, i)
          | none => match idleChannel el with
            | some c => some (8, c, 3)
            | none => match (neededEntries sl op o f).find? (fun t => el.spent.contains t) with
              | some t => some (9, 0, t)
              | none => some (Config.elapsed s.draws % 10, 0, 0)

/-- A blocked item: its region, EX, EY, slot, frame, COND, CH, STV, DETAIL, and the block's offset. -/
structure Blocked where
  r : Nat := 0
  ex : Nat := 0
  ey : Nat := 0
  slot : Nat := 0
  frm : Nat := 0
  cond : Nat := 0
  ch : Nat := 0
  stv : Nat := 0
  detail : Nat := 0
  soff : Nat := 0
  held : Bool := false
  deriving DecidableEq, Repr, Inhabited

/-- The blocked slots of a frame, in ascending ey, ex and slot (log 76: DEDUCED). -/
def State.blockedSlots (s : State) (r frm : Nat) : List Blocked :=
  (List.range 64).flatMap (fun i =>
    let e := ekOf r i
    (List.range 32).filterMap (fun n =>
      if ((s.elem e).slots.get n).frm == frm + 1 then
        match s.condition e n with
        | some (c, ch, d) => some ({ r := r, ex := ekX e, ey := ekY e, slot := n, frm := frm, cond := c, ch := ch,
                                     stv := (s.elem e).st.toNat, detail := d, soff := (s.frame r frm).soff } : Blocked)
        | none => none
      else none))

/-- The stream of a region where it is held: at SQWAIT, with COND 6, or at SQJOIN, with COND 7. -/
def State.heldStream (s : State) (r : Nat) : Option Blocked :=
  let x := s.region r
  let word (i : Nat) : Dword := match s.readWords r (s.streamVa r (x.sqp + i)) 1 with | .ok ws => ws.headD 0 | .error _ => 0
  let wait : Option Blocked := some { r := r, cond := 6, detail := (word 1).toNat / 16 % 2 ^ 27, held := true }
  match x.seq with
  | .await _ _ => wait
  | .run =>
    match decodeSeq (word 0) (word 1) with
    | .ok (.sqjoin g) => if x.joins.get g.toNat != 0 then some { r := r, cond := 7, ch := g.toNat, held := true } else none
    | .ok (.sqwait _ _) => wait
    | _ => none
  | _ => none

/-- The blocked items of a launch in the order of R64. -/
def State.blockedItems (s : State) (pid : Nat) (l : Launch) : List Blocked :=
  let rs := sortOn (fun r => 64 * s.gyOf r + s.gxOf r) (s.heldRegions pid l)
  rs.flatMap (fun r => ((s.region r).order.filter (fun f => (s.frame r f).st == .firing || (s.frame r f).st == .draining)).flatMap
      (fun f => s.blockedSlots r f))
    ++ rs.filterMap s.heldStream

/-- A report entry (R65). -/
def State.blockedWord (s : State) (b : Blocked) : Dword :=
  BitVec.ofNat 64 (field (s.gxOf b.r) 59 5 + field (s.gyOf b.r) 53 6 + field b.ex 50 3 + field b.ey 47 3 + field b.slot 42 5
    + field b.frm 39 3 + field b.cond 35 4 + field b.ch 33 2 + field b.stv 27 6 + field b.detail 0 27)

/-! The decision (R63). -/

/-- Is a sync word of panel or domain scope? -/
def State.wideWord (s : State) (a : Nat) : Bool := 2 ^ 63 ≤ a || (s.marked a 16 && 4 ≤ syncScope (syncVal s.mem a))

/-- Does a region's stream wait at arming for the clock to rise (R274)? -/
def State.clockWait (s : State) (r : Nat) : Bool :=
  let x := s.region r
  match s.readWords r (s.streamVa r x.sqp) 1 with
  | .error _ => false
  | .ok w0 =>
    let bh := w0.headD 0
    if x.seq != .run || bitsOf bh 48 16 != 0x5A3C || (s.die (rkDie r)).clockFull then false
    else match s.readWords r (s.streamVa r x.sqp) (hlenOf bh) with
      | .error _ => false
      | .ok hs => match parseHeader (s.launchDet r) hs with
        | none => false
        | some h => h.fcws.any (fun y => 11 < (y.2.extractLsb' 7 4).toNat || 11 < (y.2.extractLsb' 3 4).toNat)

/-- Is a wait of a partition one that only somebody else ends: a panel-scope or domain-scope sync word, a dependence, the clock? -/
def State.awaitsOthers (s : State) (pid : Nat) : Bool :=
  let p := s.part pid
  p.launches.any (fun l => !l.deps.isEmpty)
    || (s.partRegions pid).any (fun r =>
        (match (s.region r).seq with | .await w _ => s.wideWord w | _ => (match s.heldStream r with | some b => b.cond == 6 | none => false))
        || s.clockWait r)
    || s.reqs.any (fun q => s.pidOf q.ret.rk == some pid && ((q.phase == .wait || q.phase == .remote)
        && (match q.op with | .sywch _ => s.wideWord q.word || q.phase == .remote | _ => false)))

/-- The report of one launch, and its record (R64). -/
def State.reportLaunch (s : State) (pid : Nat) (l : Launch) : State :=
  let items := s.blockedItems pid l
  let n := min 64 items.length
  let found := min 0xFFFF items.length
  let sava := (l.word 5).toNat
  let ws := (sava + 0x800, BitVec.ofNat 64 (n * 2 ^ 16 + found))
    :: (List.range n).map (fun i => (sava + 0x808 + 8 * i, s.blockedWord (items.getD i {})))
  let x : Record := match items.head? with
    | none => { code := FCode.deadlock.num, src := 1, vf := pVf (s.part pid), pid := pid, lnch := l.lnch, pcmt := l.commits % 2 ^ 32,
                pjob := l.jobs % 2 ^ 32 }
    | some b => { s.recordAt .deadlock b.r b.soff { ex := b.ex, ey := b.ey, slot := b.slot, frm := b.frm } with
                  src := if b.held then 1 else 0 }
  let s := s.report (s.homeDie pid) { x with detail := found }
  (s.policy pid l.lnch .deadlock).saveAll pid l.lnch ws

/-- QUIESCENCE_PROBE: every die of a partition reports quiet in both rounds; the home die decides: completion, WAITING, or
F_DEADLOCK, which freezes the partition (R63, R64) (log 87: DESIGN CHOICE). -/
def execQuiescenceProbe (pid : Nat) (s : State) : Host.Outcome State Fault Refusal :=
  let p := s.part pid
  if pState p != 2 || !((s.rectDies (pRect p)).all (fun d => p.quiet.contains d)) then .next s
  else
    let s := s.modPart pid (fun x => { x with quiet := [] })
    if p.launches.all s.allDone then .next (s.modPart pid (fun x => { x with decision := 1 }))
    else if s.awaitsOthers pid then .next (s.modPart pid (fun x => { x with decision := 2 })).drawn
    else
      let t := (s.modPart pid (fun x => { x with decision := 3 })).freezePart pid 2 FCode.deadlock.num
      .next ((p.launches.filter (fun l => !(s.allDone l))).foldl (fun s l => s.reportLaunch pid l) t).drawn

/-! The barista (R60). -/

/-- The element of a partition on a die with the most refusals of a window, the lowest (gy, gx, ey, ex) of those that tie
(log 42: DEDUCED). -/
def State.bottleneck (s : State) (die pid : Nat) : Option Nat :=
  let mine := s.elems.filter (fun x => ekDie x.1 == die && s.pidOf (ekRegion x.1) == some pid && 32768 ≤ x.2.refusals)
  let rank (e : Nat) : Nat := (64 * s.gyOf (ekRegion e) + s.gxOf (ekRegion e)) * 64 + ekIdx e
  let top := mine.foldl (fun m x => max m x.2.refusals) 0
  (sortOn rank ((mine.filter (fun x => x.2.refusals == top)).map (fun x => x.1))).head?

/-- The frame whose slots read an element's channels. -/
def State.channelFrame (s : State) (e : Nat) : Option Nat :=
  ((s.elem e).ins.find? (fun c => c.2.frm != 0)).map (fun c => c.2.frm - 1)

/-- Is a region of a partition idle: no launch holds it? (log 42: DEDUCED) -/
def State.idleRegion (s : State) (r pid : Nat) : Bool :=
  s.pidOf r == some pid && (s.region r).lnch == 0 && (s.region r).order.isEmpty && !(s.region r).dark
    && !(s.cloneHolds r)

/-- BARISTA_WINDOW: a window of the refusal counters ends; a CLONABLE block that was its bottleneck is cloned into an idle region,
at most three times (R60). What a cloned block sends is what the block sends (R61), so a clone shows only in the frame's list
(log 13: DEDUCED; log 42: DEDUCED). -/
def execBaristaWindow (die pid idle : Nat) (s : State) : Host.Outcome State Fault Refusal :=
  let clear (x : Nat × Elem) : Nat × Elem :=
    if ekDie x.1 == die && s.pidOf (ekRegion x.1) == some pid then (x.1, { x.2 with refusals := 0 }) else x
  let r := rkOf die idle
  let s' : State := { s with elems := (s.elems.map clear).filter (fun x => x.2 != default) }
  match s.bottleneck die pid with
  | none => .next s'
  | some e =>
    match s.channelFrame e with
    | none => .next s'
    | some f =>
      let fr := s.frame (ekRegion e) f
      if fr.flags.cln && fr.clones.length < 3 && idle < 16 && s.idleRegion r pid && (fr.st == .firing || fr.st == .draining) then
        .next (s'.modFrame (ekRegion e) f (fun x => { x with clones := x.clones ++ [(r, 0)] }))
      else .next s'

end Sys2Proof.Machine
end

