-- ==== Sys2Proof/Machine/Steward.lean ====
section
/-! DEFINITION. The steward instructions (R15, R370, R385): freezing and thawing, steward-visible items, route words, partition
control, TLBI, page forwarding, virtual functions, die numbers, link keys, attestation, held records, quiet counts, the power cap. A
request is served at the firing; its answer follows, at once or when what it waits for has happened. -/

namespace Sys2Proof.Machine

/-! Answers. -/

/-- An answer of lanes, on its way. -/
def State.stewAnswer (s : State) (e n : Nat) (o : Slot) (a : Operand) (vs : List Nat) : State :=
  s.request e n o {} false { op := .answer, phase := .resp, res := some (words32 a vs) }

/-- An answer that waits (log 81: DEDUCED). -/
def State.stewLater (s : State) (e n : Nat) (o : Slot) (a : Operand) (p : Pending) : State :=
  s.request e n o (hdrOf a) false { op := .steward p, phase := .resp }

/-- The low and high half of a doubleword. -/
def lowHigh (w : Dword) : List Nat := [w.toNat % 2 ^ 32, w.toNat / 2 ^ 32]

/-- PSTAT [63:32] of a partition. -/
def State.pstatHigh (s : State) (pid : Nat) : Nat := (s.part pid).pstat.toNat / 2 ^ 32

/-- Does a root takeover suspend what the root serves (R249)? (log 80: DEDUCED) -/
def State.takeover (s : State) : Bool := s.panel.root.takeover

/-! TAMP and THAW (R402). -/

/-- TAMP (R402). -/
def execTamp (o : Slot) (f : Fn) (s : State) : Host.Outcome State Fault Refusal :=
  fireWith o f (fun s e n env => do
    let pid ← control 255 env.a
    let st := pState (s.part pid)
    .ok (fun s' =>
      if st == 2 then (s'.freezePart pid 3 0).stewLater e n o env.a (.tamp pid)
      else s'.stewAnswer e n o env.a [if st == 1 || st == 3 then 0 else 1, s'.pstatHigh pid])) s

/-- The element of a partition that a TRAP of a die holds under a record's number (R244). -/
def State.trapped (s : State) (pid vdn seq : Nat) : Option Nat :=
  (s.elems.find? (fun x => ekDie x.1 == vdn && s.pidOf (ekRegion x.1) == some pid
    && (match x.2.hold with | .trap _ (some q) => q == seq | _ => false))).map (fun x => x.1)

/-- THAW in both its forms (R402): of a partition, or of one trapped element (log 80: DEDUCED). -/
def thawAny (o : Slot) (f : Fn) (s : State) : Host.Outcome State Fault Refusal :=
  fireWith o f (fun s e n env => do
    let ls ← fixedPk 2 .n32 env.a
    let w := (ls.getD 0 0).toNat
    let seq := (ls.getD 1 0).toNat
    let pid := w % 256
    let trp := w / 256 % 2 == 1
    if 2 ^ 16 ≤ w || (!trp && seq != 0) then .error .bounds
    else .ok (fun s' =>
      let x : State × Nat :=
        if !trp then (if s.mayThaw pid then (s'.thawPart pid, 0) else (s', 1))
        else match (if pState (s.part pid) == 2 then s.trapped pid (w / 512 % 128) seq else none) with
          | some t => (s'.thawElem t, 0)
          | none => (s', 1)
      x.1.stewAnswer e n o env.a [x.2, x.1.pstatHigh pid])) s

/-- THAW (R402). -/
def execThaw (o : Slot) (f : Fn) (s : State) : Host.Outcome State Fault Refusal := thawAny o f s
/-- THAW of one trapped element (R244, R402). -/
def execThawTrap (o : Slot) (f : Fn) (s : State) : Host.Outcome State Fault Refusal := thawAny o f s

/-! SCRD and SCWR (R390). -/

/-- The layout of lane 1 for a space. -/
def spaceMask : Nat → Nat
  | 2 => 0xF | 3 => 0x7FFF | 4 => 0x3FF | 5 => 0x3FF | 6 => 0xFF | _ => 0

/-- Is an item named: the space, the layout, the numbers (R390)? -/
def State.itemOk (s : State) (w0 w1 : Nat) : Bool :=
  w0 % 2 ^ 28 == 0 && w0 / 2 ^ 28 ≤ 6 && (w1 &&& spaceMask (w0 / 2 ^ 28)) == w1
    && !(w0 / 2 ^ 28 == 3 && s.ndies ≤ w1 / 2 ^ 7 % 2 ^ 7) && !(w0 / 2 ^ 28 == 6 && !(FCode.all.any (fun c => c.num == w1)))

/-- The site of a VFT item: a stack by VSN, or a die's window by VDN. -/
def State.itemSite (s : State) (w1 : Nat) : Nat :=
  if w1 / 2 ^ 14 == 0 then s.physSite (w1 / 2 ^ 7 % 2 ^ 7) else 100 + s.physDie (w1 / 2 ^ 7 % 2 ^ 7)

/-- The fields of VFTn.1 that are a site's, and those that are the root's (R231). -/
def siteFields (w : Dword) : Dword := BitVec.ofNat 64 (w.toNat / 2 ^ 34 * 2 ^ 34)
def rootFields (w : Dword) : Dword := BitVec.ofNat 64 (w.toNat / 2 ^ 8 % 2 ^ 26 * 2 ^ 8)

/-- A VFT doubleword as SCRD reads it: the site's fields and the root's. -/
def State.vftWord (s : State) (site vf d : Nat) : Dword :=
  if d == 0 then (s.vftAt site vf).1 else siteFields (s.vftAt site vf).2 ||| rootFields (s.vftAt 200 vf).2

/-- The element that lane 1 names, on a die. -/
def itemElem (die w1 : Nat) : Nat := ekOf (rkOf die (w1 / 2 ^ 6)) (w1 % 2 ^ 6)

/-- An item of a die's steward (R390). -/
def State.item (s : State) (die w0 w1 : Nat) : Dword :=
  let me := s.ident (idFabric (s.physDie die))
  match w0 / 2 ^ 28 with
  | 0 => me.cycle
  | 1 => me.das
  | 2 => let c := me.chans.get (w1 % 8); if w1 / 8 == 0 then c.tx else c.rx
  | 3 => s.vftWord (s.itemSite w1) (w1 / 2 % 64) (w1 % 2)
  | 4 => (s.elem (itemElem die w1)).es.setWidth 64
  | 5 => (s.elem (itemElem die w1)).st.setWidth 64
  | _ => BitVec.ofNat 64 ((s.die die).stormCtr.get w1)

/-- A die's cycle counter moved on to the time of a read (R66) (log 14: DESIGN CHOICE). -/
def State.tick (s : State) (die : Nat) : State :=
  (s.modIdent (idFabric (s.physDie die)) (fun x => { x with cycle := x.cycle + BitVec.ofNat 64 (Config.elapsed s.draws) })).drawn

/-- SCRD (R390). -/
def execScrd (o : Slot) (f : Fn) (s : State) : Host.Outcome State Fault Refusal :=
  fireWith o f (fun s e n env => do
    let ls ← fixedPk 2 .n32 env.a
    let w0 := (ls.getD 0 0).toNat
    let w1 := (ls.getD 1 0).toNat
    if !(s.itemOk w0 w1) then .error .bounds
    else .ok (fun s' =>
      let t := s'.tick (ekDie e)
      t.stewAnswer e n o env.a (0 :: lowHigh (t.item (ekDie e) w0 w1)))) s

/-- Would a VFT doubleword keep R231 and R228: the length within the site, no more frames mapped than PGQ, none that another VF's table
maps? -/
def State.vftOk (s : State) (site vf d : Nat) (v : Dword) : Bool :=
  let old := s.vftAt site vf
  let next : Dword × Dword := if d == 0 then (v, old.2) else (old.1, v)
  let t : State := { s with panel := { s.panel with vft := s.panel.vft.set (64 * site + vf) next } }
  bitsOf next.2 49 15 ≤ (if site < 100 then 24576 else 48)
    && (let mine := (t.vfFrames vf).filter (fun x => x.1 == site)
        mine.length ≤ bitsOf next.2 34 15
          && (List.range 64).all (fun v => v == vf || (t.vfFrames v).all (fun x => !mine.contains x)))

/-- A VFT doubleword written at a site and the root's copy: RW fields other than EN (R390). -/
def State.putVft (s : State) (site vf d : Nat) (v : Dword) : State :=
  let put (s : State) (k : Nat) (x : Dword × Dword) : State := { s with panel := { s.panel with vft := s.panel.vft.set (64 * k + vf) x } }
  let old := s.vftAt site vf
  if d == 0 then put s site (putBits old.1 12 25 (bitsOf v 12 25), old.2)
  else
    let s := put s site (old.1, siteFields v)
    put s 200 ((s.vftAt 200 vf).1, rootFields v)

/-- The write of an item: whether it is done, and the machine; ES keeps its seven flags alone (R69, R390) (log 81: DEDUCED). -/
def State.putItem (s : State) (die w0 w1 : Nat) (v : Dword) : State × Bool :=
  let e := itemElem die w1
  let frozen := match s.pidOf (ekRegion e) with | some p => pState (s.part p) == 3 | none => false
  match w0 / 2 ^ 28 with
  | 3 =>
    let site := s.itemSite w1
    let vf := w1 / 2 % 64
    if s.vftOk site vf (w1 % 2) v then (s.putVft site vf (w1 % 2) v, true) else (s, false)
  | 4 => if frozen then (s.modElem e (fun x => { x with es := v.setWidth 32 &&& 0x7F }), true) else (s, false)
  | 5 => if frozen then (s.modElem e (fun x => { x with st := v.setWidth 6 }), true) else (s, false)
  | _ => (s, false)

/-- SCWR of any space (R390) (log 81: DEDUCED). -/
def scwr (o : Slot) (f : Fn) (s : State) : Host.Outcome State Fault Refusal :=
  fireWith o f (fun s e n env => do
    let a := rawPk env.a
    let b := rawPk env.b
    pkChecks [{ pk := a, len := 2, fmtOk := hasTy .n32 a }, { pk := b, len := 2, fmtOk := hasTy .n32 b }]
    let w0 := (a.lanes.getD 0 0).toNat
    let w1 := (a.lanes.getD 1 0).toNat
    if !(s.itemOk w0 w1) then .error .bounds
    else .ok (fun s' =>
      let t := s'.tick (ekDie e)
      let x := t.putItem (ekDie e) w0 w1 (BitVec.ofNat 64 (lanesNat b.lanes))
      x.1.stewAnswer e n o env.a ((if x.2 then 0 else 1) :: lowHigh (x.1.item (ekDie e) w0 w1)))) s

/-- SCWR of a VFT doubleword (R390). -/
def execScwrVft (o : Slot) (f : Fn) (s : State) : Host.Outcome State Fault Refusal := scwr o f s
/-- SCWR of an element's ES (R390). -/
def execScwrEs (o : Slot) (f : Fn) (s : State) : Host.Outcome State Fault Refusal := scwr o f s
/-- SCWR of an element's ST (R390). -/
def execScwrSt (o : Slot) (f : Fn) (s : State) : Host.Outcome State Fault Refusal := scwr o f s

/-! Route words (R375, R376). -/

/-- A port's name without a reserved bit, its site in range. -/
def State.portOk (s : State) (w : Nat) : Bool :=
  w / 2 ^ 7 % 2 ^ 7 < s.ndies && (if w / 2 ^ 14 == 0 then w % 2 == 0 else w / 8 % 16 == 0)

/-- The regions or dies on either side of a port: regions of a region port, VDNs of a bridge channel (log 82: DEDUCED). -/
def State.portSides (s : State) (w : Nat) : List Nat × List Nat :=
  let site := w / 2 ^ 7 % 2 ^ 7
  let edge := w / 2 % 4
  if w / 2 ^ 14 == 0 then
    let r := rkOf site (w / 8 % 16)
    let gx := s.gxOf r
    let gy := s.gyOf r
    let next := match edge with
      | 0 => if gx == 0 then none else s.rkAt (gx - 1) gy
      | 1 => s.rkAt (gx + 1) gy
      | 2 => if gy == 0 then none else s.rkAt gx (gy - 1)
      | _ => s.rkAt gx (gy + 1)
    (r :: next.toList, [])
  else
    match s.peer (.bridge (s.physSite site)) (2 * edge) with
    | some (.fabric p, _) => ([], [s.vdnOf p])
    | _ => ([], [])

/-- Has a resident partition its rectangle on a side of a port? -/
def State.portUsed (s : State) (w : Nat) : Bool :=
  let x := s.portSides w
  s.parts.any (fun p => resident p.2 && ((s.rectRegions (pRect p.2)).any (fun r => x.1.contains r)
    || (s.rectDies (pRect p.2)).any (fun d => x.2.contains d)))

/-- PRTD (R376). -/
def execPrtd (o : Slot) (f : Fn) (s : State) : Host.Outcome State Fault Refusal :=
  fireWith o f (fun s e n env => do
    let w ← control 0x7FFF env.a
    if !(s.portOk w) then .error .bounds
    else .ok (fun s' => s'.stewAnswer e n o env.a [0, (s'.panel.routes.get w).toNat])) s

/-- RTWR (R376) (log 82: DEDUCED). -/
def execRtwr (o : Slot) (f : Fn) (s : State) : Host.Outcome State Fault Refusal :=
  fireWith o f (fun s e n env => do
    let a := rawPk env.a
    let b := rawPk env.b
    pkChecks [ctlCheck a, ctlCheck b]
    let w := (a.lanes.getD 0 0).toNat
    let v := (b.lanes.getD 0 0).toNat
    if 2 ^ 15 ≤ w || !(s.portOk w) || v % 2 ^ 22 != 0 then .error .bounds
    else .ok (fun s' =>
      if s.portUsed w then s'.stewAnswer e n o env.a [1, (s'.panel.routes.get w).toNat]
      else
        let t : State := { s' with panel := { s'.panel with routes := s'.panel.routes.set w (BitVec.ofNat 32 v) } }
        t.stewAnswer e n o env.a [0, v])) s

/-! PTCT (R377, R378). -/

/-- A register as it reads: PDEF's PID is its index (R220). -/
def State.ptctReg (s : State) (pid reg : Nat) : Dword :=
  let p := s.part pid
  match reg with
  | 0 => putBits p.pdef 46 8 pid
  | 1 => p.pqos | 2 => p.pts | 3 => p.psave | 4 => p.pstat | 5 => p.ps1r | _ => p.pgrb

/-- The statuses of the floors (R230): on every stack where a VF holds a frame, the floors of the defined partitions sum to at most
57 (log 13: DEDUCED). -/
def State.floorsOk (s : State) (pid vf flr : Nat) : Bool :=
  let mine := (s.vfFrames vf).map (·.1)
  let others := (s.others pid).map (fun x => ((s.vfFrames (pVf x.2)).map (·.1), bitsOf x.2.pqos 58 6))
  (List.range s.ndies).all (fun site => !(mine.contains site) ||
    others.foldl (fun n x => if x.1.contains site then n + x.2 else n) flr ≤ 57)

/-- A drip class of PQOS (R229). -/
def classOk (k q : Nat) : Bool := (k == 0 && q == 0) || (q != 0 && 4 ≤ k && k ≤ 16)

/-- PTCT write: the status, and the partition (R227, R378). -/
def State.ptctWrite (s : State) (pid reg : Nat) (v : Dword) : Nat × Part :=
  let p := s.part pid
  let st := pState p
  let page (mask : Nat) (q : Part) : Nat × Part :=
    if st == 5 then (5, p) else if v.toNat &&& mask != v.toNat then (1, p) else (0, q)
  match reg with
  | 0 =>
    if st != 0 then (5, p)
    else if bitsOf v 54 9 != 0 || bitsOf v 0 17 != 0 || bitsOf v 34 6 == 0 || 40 < bitsOf v 34 6 || bitsOf v 28 6 == 0
        || 32 < bitsOf v 28 6 || 39 < bitsOf v 22 6 then (1, p)
    else (0, { p with pdef := putBits p.pdef 17 29 (bitsOf v 17 29) })
  | 1 =>
    if bitsOf v 48 10 != 0 || 57 < bitsOf v 58 6 || !(classOk (bitsOf v 43 5) (bitsOf v 32 11))
        || !(classOk (bitsOf v 27 5) (bitsOf v 16 11)) || !(classOk (bitsOf v 11 5) (bitsOf v 0 11)) then (1, p)
    else if p.pdef.getLsbD 63 && !(s.floorsOk pid (pVf p) (bitsOf v 58 6)) then (4, p)
    else (0, { p with pqos := v })
  | 2 =>
    if bitsOf v 48 8 != 0 || (List.range 8).any (fun i => (0 < bitsOf v (6 * i) 6 && bitsOf v (6 * i) 6 < 10) || 40 < bitsOf v (6 * i) 6) then
      (1, p)
    else if bitsOf v 56 8 != pGroup p && st != 0 then (5, p)
    else (0, { p with pts := v })
  | 3 => page 0x00FFFFFFFFFFF000 { p with psave := v }
  | 5 => page 0x00FFFFFFFFFFF001 { p with ps1r := v }
  | 6 => page 0x00FFFFFFFFFFFFC0 { p with pgrb := v }
  | _ => (1, p)

/-- Do two rectangles share a region? -/
def overlaps (a b : Rect) : Bool := a.gx < b.gx + b.w && b.gx < a.gx + a.w && a.gy < b.gy + b.h && b.gy < a.gy + a.h

/-- PTCT define: the status (R221, R227, R378, R435) (log 80: DEDUCED). -/
def State.defineStatus (s : State) (pid : Nat) : Nat :=
  let p := s.part pid
  let q := pRect p
  let inside := 1 ≤ q.w && 1 ≤ q.h && q.gx + q.w ≤ 4 * s.cols && q.gy + q.h ≤ 4 * gridRows s.panel.form
  if pState p != 0 || (inside && !((s.rectDies q).all s.dieActive)) || s.groupBusy pid then 5
  else if !inside then 1
  else if (s.others pid).any (fun x => if pGroup x.2 == pGroup p then pRect x.2 != q else overlaps (pRect x.2) q) then 2
  else if s.linkClash pid q (fun _ => true) then 3
  else if !(s.floorsOk pid (pVf p) (bitsOf p.pqos 58 6)) then 4
  else if !(s.shapeHolds q) then 6
  else 0

/-- PTCT define: the machine (R222, R224). -/
def State.doDefine (s : State) (pid : Nat) : State :=
  let s := s.modPart pid (fun p => { p with pdef := putBits p.pdef 63 1 1, pstat := putBits 0 61 3 1, next := 0, launches := [], decision := 0 })
  let s := s.setRoutes pid true
  (s.rectRegions (pRect (s.part pid))).foldl (fun s r => s.modRegion r (fun x => { x with pid := pid + 1 })) s

/-- The PID of a PTCT command's operand. -/
def ptctPid (env : Env) : Except FCode Nat := control 255 env.a

/-- PTCT's answer: the status and PSTAT (log 80: DEDUCED). -/
def State.ptctAnswer (s : State) (e n : Nat) (o : Slot) (a : Operand) (pid status : Nat) : State :=
  s.stewAnswer e n o a (status :: lowHigh (s.part pid).pstat)

/-- PTCT read (R378). -/
def execPtctRead (o : Slot) (f : Fn) (s : State) : Host.Outcome State Fault Refusal :=
  fireWith o f (fun _ e n env => do
    let pid ← ptctPid env
    .ok (fun s' => s'.stewAnswer e n o env.a (0 :: lowHigh (s'.ptctReg pid (fnIm f / 16))))) s

/-- PTCT write (R378). -/
def execPtctWrite (o : Slot) (f : Fn) (s : State) : Host.Outcome State Fault Refusal :=
  fireWith o f (fun _ e n env => do
    let a := rawPk env.a
    let b := rawPk env.b
    pkChecks [ctlCheck a, { pk := b, len := 2, fmtOk := hasTy .n64 b }]
    let pid := (a.lanes.getD 0 0).toNat
    if 256 ≤ pid then .error .bounds
    else .ok (fun s' =>
      let reg := fnIm f / 16
      let x := s'.ptctWrite pid reg (BitVec.ofNat 64 (lanesNat b.lanes))
      let t := s'.modPart pid (fun _ => x.2)
      t.stewAnswer e n o env.a (x.1 :: lowHigh (t.ptctReg pid reg)))) s

/-- PTCT define (R378). During a root takeover it waits (R249). -/
def execPtctDefine (o : Slot) (f : Fn) (s : State) : Host.Outcome State Fault Refusal :=
  if s.takeover then .next s
  else fireWith o f (fun _ e n env => do
    let pid ← ptctPid env
    .ok (fun s' =>
      let st := s'.defineStatus pid
      (if st == 0 then s'.doDefine pid else s').ptctAnswer e n o env.a pid st)) s

/-- PTCT save (R237, R378, R439). -/
def execPtctSave (o : Slot) (f : Fn) (s : State) : Host.Outcome State Fault Refusal :=
  fireWith o f (fun _ e n env => do
    let pid ← ptctPid env
    .ok (fun s' =>
      if pState (s'.part pid) != 3 || (s'.part pid).ending != 0 then s'.ptctAnswer e n o env.a pid 5
      else if !(s'.areaMapped pid) then s'.ptctAnswer e n o env.a pid 1
      else if s'.allFrozen pid then (s'.doSave pid).ptctAnswer e n o env.a pid 0
      else (s'.modPart pid (fun p => { p with ending := 1, saveStatus := 0 })).stewLater e n o env.a (.save pid))) s

/-- PTCT restore (R238, R378); a launch whose record has entered the ring meanwhile is abandoned (R244). -/
def execPtctRestore (o : Slot) (f : Fn) (s : State) : Host.Outcome State Fault Refusal :=
  fireWith o f (fun _ e n env => do
    let pid ← ptctPid env
    .ok (fun s' =>
      let x := s'.doRestore pid
      (if x.2 == 0 then x.1.abandonAll pid else x.1).ptctAnswer e n o env.a pid x.2)) s

/-- PTCT release (R378). During a root takeover it waits (R249). -/
def execPtctRelease (o : Slot) (f : Fn) (s : State) : Host.Outcome State Fault Refusal :=
  if s.takeover then .next s
  else fireWith o f (fun _ e n env => do
    let pid ← ptctPid env
    .ok (fun s' =>
      let st := pState (s'.part pid)
      if !(st == 1 || st == 3 || st == 4) || (s'.part pid).ending != 0 then s'.ptctAnswer e n o env.a pid 5
      else if st == 3 && !(s'.allFrozen pid) then
        (s'.modPart pid (fun p => { p with ending := 2 })).stewLater e n o env.a (.release pid)
      else (s'.doRelease pid).stewLater e n o env.a (.release pid))) s

/-! TLBI (R403). -/

/-- The lanes of a TLBI operand, with no bit set that its sub-code does not use. -/
def tlbiLanes (m0 m1 m2 : Nat) (a : Operand) : Except FCode (Nat × Nat × Nat) := do
  let ls ← fixedPk 3 .n32 a
  let w0 := (ls.getD 0 0).toNat
  let w1 := (ls.getD 1 0).toNat
  let w2 := (ls.getD 2 0).toNat
  if (w0 &&& m0) != w0 || (w1 &&& m1) != w1 || (w2 &&& m2) != w2 then .error .bounds else .ok (w0, w1, w2)

/-- Has a request been translated, and not yet been applied at its home? The words of a versioned binding, and those of QB and DB that
STB writes, take no translation (log 143: DEDUCED). -/
def underWay (q : Req) : Bool := q.phase != .xlat && q.phase != .resp && !(isVersioned q.op) && q.op != .put

/-- The stage-1 entries of a partition that pass a test removed from every region's TLB (log 52: DESIGN CHOICE). -/
def State.dropTlb (s : State) (pid : Nat) (p : TlbEnt → Bool) : State :=
  let keep (r : Nat × Region) : Nat × Region := (r.1, { r.2 with tlb := r.2.tlb.filter (fun t => !(t.pid == pid && p t)) })
  { s with regions := (s.regions.map keep).filter (fun r => r.2 != default) }

/-- The requests of a partition that pass a test, under way. -/
def State.underWayOf (s : State) (pid : Nat) (p : Req → Bool) : List Nat :=
  (s.reqs.filter (fun q => underWay q && s.pidOf q.ret.rk == some pid && p q)).map (fun q => q.id)

/-- TLBI.S1VA (R403). -/
def execTlbiS1va (o : Slot) (f : Fn) (s : State) : Host.Outcome State Fault Refusal :=
  fireWith o f (fun _ e n env => do
    let (pid, lo, hi) ← tlbiLanes 0xFF 0xFFFFF000 0x1FFFFFF env.a
    let va := lo + hi * 2 ^ 32
    .ok (fun s' =>
      let covers (t : TlbEnt) : Bool := t.va ≤ va && va < t.va + t.size
      let ents := s'.regions.flatMap (fun r => r.2.tlb.filter (fun t => t.pid == pid && covers t))
      let ids := s'.underWayOf pid (fun q => q.va / 4096 == va / 4096 || ents.any (fun t => t.va ≤ q.va && q.va < t.va + t.size))
      (s'.dropTlb pid covers).stewLater e n o env.a (.tlbi ids))) s

/-- TLBI.S1PID (R403). -/
def execTlbiS1pid (o : Slot) (f : Fn) (s : State) : Host.Outcome State Fault Refusal :=
  fireWith o f (fun _ e n env => do
    let (pid, _, _) ← tlbiLanes 0xFF 0 0 env.a
    .ok (fun s' =>
      let ids := s'.underWayOf pid (fun _ => true)
      (s'.dropTlb pid (fun _ => true)).stewLater e n o env.a (.tlbi ids))) s

/-- The requests of a VF that pass a test, translated by stage 2 and waiting at their homes. -/
def State.waitingOf (s : State) (vf : Nat) (p : Req → Bool) : List Nat :=
  (s.reqs.filter (fun q => q.phase == .wait && underWay q && (match s.pidOf q.ret.rk with | some pid => pVf (s.part pid) == vf | none => false) && p q)).map
    (fun q => q.id)

/-- TLBI.S2G (R403). -/
def execTlbiS2g (o : Slot) (f : Fn) (s : State) : Host.Outcome State Fault Refusal :=
  fireWith o f (fun _ e n env => do
    let (vf, w1, gran) ← tlbiLanes 0x3F 0xFF 0xFFFFFFFF env.a
    .ok (fun s' =>
      let site := if w1 / 128 == 0 then s'.physSite (w1 % 128) else 100 + s'.physDie (w1 % 128)
      let ids := s'.waitingOf vf (fun q => s'.siteNo q.gpa == site && gpaOff q.gpa / 2 ^ 21 == gran)
      let c := if gran < 2 ^ 15 then s'.panel.s2cache.erase (s2Key vf site gran) else s'.panel.s2cache
      let t : State := { s' with panel := { s'.panel with s2cache := c } }
      t.stewLater e n o env.a (.tlbi ids))) s

/-- TLBI.S2VF (R403). -/
def execTlbiS2vf (o : Slot) (f : Fn) (s : State) : Host.Outcome State Fault Refusal :=
  fireWith o f (fun _ e n env => do
    let (vf, _, _) ← tlbiLanes 0x3F 0 0 env.a
    .ok (fun s' =>
      let ids := s'.waitingOf vf (fun _ => true)
      let t : State := { s' with panel := { s'.panel with s2cache := s'.panel.s2cache.filter (fun x => x.1 / 2 ^ 15 / 256 != vf) } }
      t.stewLater e n o env.a (.tlbi ids))) s

/-! PGFW (R371, R240). -/

/-- Frames of a site of a kind (R144). -/
def framesOf (kind : Nat) : Nat := siteSpace kind / 2 ^ 21

/-- The operand of PGFW: kind, old site, old frame, new site, new frame, with R371's checks. -/
def State.pgfwArgs (s : State) (start : Bool) (a : Operand) : Except FCode (Nat × Nat × Nat × Nat × Nat) := do
  let ls ← fixedPk 2 .n32 a
  let w0 := (ls.getD 0 0).toNat
  let w1 := (ls.getD 1 0).toNat
  let kind := w0 / 2 ^ 31
  let site := w0 / 2 ^ 24 % 128
  let lfn := w0 % 2 ^ 17
  let nsite := w1 / 2 ^ 18 % 128
  let nlfn := w1 % 2 ^ 17
  if w0 / 2 ^ 17 % 2 ^ 7 != 0 || s.ndies ≤ site || framesOf kind ≤ lfn
      || (start && (2 ^ 25 ≤ w1 || w1 / 2 ^ 17 % 2 == 1 || s.ndies ≤ nsite || framesOf kind ≤ nlfn || nsite == site)) then .error .bounds
  else .ok (kind, site, lfn, nsite, nlfn)

/-- The key of a frame's forwarding entry, and the state of an entry (R371). -/
def State.frameKey (s : State) (kind site lfn : Nat) : Nat := (if kind == 0 then s.physSite site else 100 + s.physDie site) * 2 ^ 20 + lfn
def pgfwCode : Pgfw → Nat | .res => 0 | .copy _ _ => 1 | .moved _ _ => 2

/-- PGFW with a transition: what the entry becomes, where the transition is one of R240. -/
def pgfw (start : Bool) (next : Pgfw → Nat → Nat → Option Pgfw) (o : Slot) (f : Fn) (s : State) : Host.Outcome State Fault Refusal :=
  fireWith o f (fun s e n env => do
    let (kind, site, lfn, nsite, nlfn) ← s.pgfwArgs start env.a
    .ok (fun s' =>
      let k := s'.frameKey kind site lfn
      let old := s'.panel.pgfw.get k
      match next old nsite nlfn with
      | none => s'.stewAnswer e n o env.a [1, pgfwCode old]
      | some x =>
        let t : State := { s' with panel := { s'.panel with pgfw := s'.panel.pgfw.set k x } }
        t.stewAnswer e n o env.a [0, pgfwCode x])) s

/-- PGFW.START: RES to COPY (R371). -/
def execPgfwStart (o : Slot) (f : Fn) (s : State) : Host.Outcome State Fault Refusal :=
  pgfw true (fun x v l => match x with | .res => some (.copy v l) | _ => none) o f s
/-- PGFW.CLEAR: MOVED to RES (R371). -/
def execPgfwClear (o : Slot) (f : Fn) (s : State) : Host.Outcome State Fault Refusal :=
  pgfw false (fun x _ _ => match x with | .moved _ _ => some .res | _ => none) o f s
/-- PGFW.ABORT: COPY to RES (R371). -/
def execPgfwAbort (o : Slot) (f : Fn) (s : State) : Host.Outcome State Fault Refusal :=
  pgfw false (fun x _ _ => match x with | .copy _ _ => some .res | _ => none) o f s
/-- PGFW.QUERY (R371). -/
def execPgfwQuery (o : Slot) (f : Fn) (s : State) : Host.Outcome State Fault Refusal :=
  pgfw false (fun x _ _ => some x) o f s

/-! VFEN (R408). -/

/-- The VFs of a mask. -/
def maskVfs (m : Nat) : List Nat := (List.range 64).filter (fun v => m / 2 ^ v % 2 == 1)

/-- EN of a VF set at every site; completion entries still held wait for its new queues; its home is the root's port die, its records are
numbered from 0 (R242, R271, R408) (log 85: DEDUCED). -/
def State.enableVf (s : State) (vf : Nat) : State :=
  let sites := (List.range s.ndies) ++ (List.range s.ndies).map (100 + ·) ++ [200]
  let m := sites.foldl (fun m k => PMap.modify m (64 * k + vf) (fun (x : Dword × Dword) => (putBits x.1 63 1 1, x.2))) s.panel.vft
  let s : State := { s with
    panel := { s.panel with vft := m }
    dies := (s.dies.map (fun d => (d.1, { d.2 with recSeq := d.2.recSeq.erase vf }))).filter (fun d => d.2 != default) }
  s.modVf vf (fun x => { x with
    home := s.panel.root.port, mirror := s.mirrorOf s.panel.root.port, abandoned := 0, completed := 0, stopped := 0, remote := 0
    sqs := (x.sqs.map (fun q => (q.1, ({ held := q.2.held } : SubQ)))).filter (fun q => q.2 != default) })

/-- The mask of a VFEN operand. -/
def vfenMask (a : Operand) : Except FCode Nat := do
  let ls ← fixedPk 2 .n32 a
  .ok (lanesNat ls)

/-- VFEN.set (R408). -/
def execVfenSet (o : Slot) (f : Fn) (s : State) : Host.Outcome State Fault Refusal :=
  fireWith o f (fun _ e n env => do
    let m ← vfenMask env.a
    .ok (fun s' =>
      if s'.takeover then s'.stewAnswer e n o env.a [3, s'.enBits % 2 ^ 32, s'.enBits / 2 ^ 32]
      else
        let vs := maskVfs m
        let busy := vs.any (fun v => (s'.vf v).disabling)
        let t := vs.foldl (fun s v => if (s.vf v).disabling || s.vfOn v then s else s.enableVf v) s'
        t.stewAnswer e n o env.a [if busy then 1 else 0, t.enBits % 2 ^ 32, t.enBits / 2 ^ 32])) s

/-- VFEN.clr (R408, R233). -/
def execVfenClr (o : Slot) (f : Fn) (s : State) : Host.Outcome State Fault Refusal :=
  fireWith o f (fun _ e n env => do
    let m ← vfenMask env.a
    .ok (fun s' =>
      if s'.takeover then s'.stewAnswer e n o env.a [3, s'.enBits % 2 ^ 32, s'.enBits / 2 ^ 32]
      else
        let vs := (maskVfs m).filter (fun v => s'.vfOn v)
        let t := vs.foldl State.disableVf s'
        t.stewLater e n o env.a (.disable (vs.foldl (fun a v => a + 2 ^ v) 0)))) s

/-! VDMAP (R407, R239). -/

/-- Is a VDN used by a resident partition? -/
def State.vdnUsed (s : State) (v : Nat) : Bool := s.parts.any (fun p => resident p.2 && (s.rectDies (pRect p.2)).contains v)

/-- Does a stage-2 entry of any VF map a frame at a site? -/
def State.siteMapped (s : State) (site : Nat) : Bool := (List.range 64).any (fun vf => (s.vfFrames vf).any (fun x => x.1 == site))

/-- Is a region of a physical die dark: a fault that cannot be repaired, or a row with two or more fused-off elements (R79)? -/
def Fuses.isDark (x : Fuses) : Bool :=
  x.dark || (List.range 8).any (fun row => 2 ≤ ((x.fused.filter (fun p => p.2 == row)).eraseDups).length)

/-- What the fuses of a physical die give the regions of its VDN (R78, R79). -/
def State.applyFuses (s : State) (v : Nat) : State :=
  (List.range 16).foldl (fun s i =>
    let x := s.panel.fuses.get (17 * s.physDie v + i)
    s.modRegion (rkOf v i) (fun y => { y with dark := x.isDark, fused := x.fused })) s

/-- What is a physical die's own, given to another VDN's entry (log 82: DEDUCED). -/
def Die.physical (d x : Die) : Die :=
  { d with drop := x.drop, hot := x.hot, store := x.store, coal := x.coal, storm := x.storm, stormCtr := x.stormCtr,
           recSeq := x.recSeq, clockFull := x.clockFull, calibrated := x.calibrated }

/-- The keys of the windows of two physical dies exchanged. -/
def swapWindow (a b k : Nat) : Nat :=
  if k < windowKey a 0 && k < windowKey b 0 then k
  else if windowKey a 0 ≤ k && k < windowKey (a + 1) 0 then windowKey b (k - windowKey a 0)
  else if windowKey b 0 ≤ k && k < windowKey (b + 1) 0 then windowKey a (k - windowKey b 0)
  else k

/-- Two VDNs exchange their dies; what SAVED partitions wait for at words of the two dies' buffers goes with the VDNs (R239)
(log 82: DEDUCED). -/
def State.swapVdn (s : State) (v w : Nat) : State :=
  let a := s.physDie v
  let b := s.physDie w
  let put (m : PMap Nat) (k p : Nat) : PMap Nat := m.set k (if p == k then 0 else p + 1)
  let x := s.die v
  let y := s.die w
  let t : State := { s with
    panel := { s.panel with vdnAt := put (put s.panel.vdnAt v b) w a }
    parts := s.parts.map (fun p : Nat × Part => (p.1, if pState p.2 == 4 then p.2.rekey (swapWindow a b) else p.2)) }
  (((t.modDie v (fun d => d.physical y)).modDie w (fun d => d.physical x)).applyFuses v).applyFuses w

/-- Two VSNs exchange their sites. -/
def State.swapVsn (s : State) (v w : Nat) : State :=
  let put (m : PMap Nat) (k p : Nat) : PMap Nat := m.set k (if p == k then 0 else p + 1)
  { s with panel := { s.panel with vsnAt := put (put s.panel.vsnAt v (s.physSite w)) w (s.physSite v) } }

/-- The site of a number in lane 1's layout. -/
def State.siteLane (s : State) (kind v : Nat) : Nat :=
  let x := if kind == 0 then s.fabricAt (s.physDie v) else s.bridgeAt (s.physSite v)
  x.1 + 16 * x.2

/-- VDMAP (R407). -/
def execVdmap (o : Slot) (f : Fn) (s : State) : Host.Outcome State Fault Refusal :=
  fireWith o f (fun s e n env => do
    let ls ← fixedPk 2 .n32 env.a
    let w0 := (ls.getD 0 0).toNat
    let w1 := (ls.getD 1 0).toNat
    let kind := w0 / 128 % 2
    let v := w0 % 128
    let x := w1 % 16
    let y := w1 / 16 % 16
    if 2 ^ 8 ≤ w0 || 2 ^ 8 ≤ w1 || s.ndies ≤ v || 2 * s.cols ≤ x || gridRows s.panel.form ≤ y || (x + y) % 2 != kind then .error .bounds
    else .ok (fun s' =>
      let p := s'.numberAt x y
      let w := if kind == 0 then s'.vdnOf p else s'.vsnOf p
      if s'.takeover then s'.stewAnswer e n o env.a [3, s'.siteLane kind v]
      else if (if kind == 0 then s'.vdnUsed v || s'.vdnUsed w || !(s'.isActive (idFabric p))
          else s'.siteMapped (s'.physSite v) || s'.siteMapped p) then s'.stewAnswer e n o env.a [1, s'.siteLane kind v]
      else
        let t := if v == w then s' else if kind == 0 then s'.swapVdn v w else s'.swapVsn v w
        t.stewAnswer e n o env.a [0, t.siteLane kind v])) s

/-! KROLL (R350, R259). -/

/-- The die that an operand's KIND and number name (R325, R350). -/
def State.namedDie (s : State) (kind num : Nat) : Option UnitId :=
  match kind with
  | 0 => if num < s.ndies then some (.fabric (s.physDie num)) else none
  | 1 => if num < s.ndies then some (.bridge (s.physSite num)) else none
  | 2 => if num < gridPorts s.panel.form then some (.port num) else none
  | _ => none

/-- KEYSWITCH sent: NEXT is CURRENT, the frame counter starts from 0 (R256, R258, R259). -/
def Chan.switched (c : Chan) : Chan := { c with tx := switchKey false c.tx, frames := 0, due := false, switching := false }.zeroised

/-- Step 3 of R259 asked of a transmitter: the switch, now or once its frames are acknowledged. -/
def Chan.startSwitch (c : Chan) : Chan := if c.unacked.isEmpty then c.switched else { c with switching := true }

/-- May a transmitter switch: keyed, NEXT at both ends (R259, R350)? -/
def State.maySwitch (s : State) (u : UnitId) (n : Nat) : Bool :=
  match s.peer u n with
  | none => false
  | some (v, m) => s.isActive (idOf u) && (s.chan u n).keyed && hasKey (s.chan u n).tx 1 && hasKey (s.chan v m).rx 1

/-- KROLL (R350) (log 83: DEDUCED). -/
def execKroll (o : Slot) (f : Fn) (s : State) : Host.Outcome State Fault Refusal :=
  fireWith o f (fun s e n env => do
    let w ← control 0x1F7F env.a
    let c := w / 1024 % 4 * 2 + w / 4096
    match (if w / 256 % 4 < 2 then s.namedDie (w / 256 % 4) (w % 128) else none) with
    | none => .error .bounds
    | some u => .ok (fun s' =>
        let key (s : State) : List Nat := (lowHigh (s.chan u c).tx).reverse
        if s'.takeover then s'.stewAnswer e n o env.a (3 :: key s')
        else if !(s'.maySwitch u c) then s'.stewAnswer e n o env.a (1 :: key s')
        else (s'.modChan u c Chan.startSwitch).stewLater e n o env.a (.kroll (idOf u) c))) s

/-! ATST (R325). -/

/-- The die that an ATST names. -/
def State.atstDie (s : State) (a : Operand) : Except FCode UnitId := do
  let w ← control 0x37F a
  match s.namedDie (w / 256) (w % 128) with
  | some u => .ok u
  | none => .error .bounds

/-- The answer of an ATST: the status, and DAS, high half first. -/
def State.atstAnswer (s : State) (e n : Nat) (o : Slot) (a : Operand) (u : UnitId) (status : Nat) : State :=
  s.stewAnswer e n o a (status :: (lowHigh (s.unit u).das).reverse)


/-- Is a die used by a partition that is neither SAVED nor FREE (R325)? -/
def State.dieBusy (s : State) (u : UnitId) : Bool :=
  s.parts.any (fun x => pState x.2 != 0 && pState x.2 != 4 && (match u with
    | .fabric p => (s.rectDies (pRect x.2)).contains (s.vdnOf p)
    | .bridge p => (s.vfFrames (pVf x.2)).any (fun y => y.1 == p)
    | .port _ => false))

/-- What the root does for the ATST of a steward's element, and the status; none where a RESET has begun, whose answer follows when
its steps have ended (R325). CHALLENGE: the signature's check is the environment's; the measurements are held against the policy
(log 19: DESIGN CHOICE). RESET: steps 2 to 5 of R261 (log 83: DEDUCED). -/
def State.atstAct (s : State) (e sub : Nat) (u : UnitId) : State × Option Nat :=
  let st := dasState (s.unit u)
  if s.takeover then (s, some 3)
  else match sub with
    | 0 => (s, some 0)
    | 1 =>
      if st != 2 && st != 3 then (s, some 1)
      else if !(Config.choice s.draws) then ((s.quarantine u 2).drawn, some 2)
      else if !(s.policyMet u) then ((s.quarantine u 1).drawn, some 2)
      else (s.drawn, some 0)
    | 2 => if st == 1 || st == 2 || st == 3 then (s.quarantine u 5, some 0) else (s, some 1)
    | _ =>
      if !(st == 3 || st == 4) || s.dieBusy u || u == .fabric (s.physDie (ekDie e)) || u == .port s.panel.root.port then (s, some 1)
      else (s.startReset u, none)

/-- Does the root still serve a RESET, or hold an ATST behind one, that came before a request (R325)? (log 83: DEDUCED) -/
def State.atstBusy (s : State) (i : Nat) : Bool :=
  s.reqs.any (fun q => q.id < i && (match q.op with | .steward (.reset _) | .steward (.atst _ _) => true | _ => false))

/-- An ATST fires: the root serves it, or it waits behind those before it (R325). -/
def State.atst (s : State) (e n : Nat) (o : Slot) (a : Operand) (sub : Nat) (u : UnitId) : State :=
  if s.atstBusy s.nextId then s.stewLater e n o a (.atst sub u)
  else match s.atstAct e sub u with
    | (t, some x) => t.atstAnswer e n o a u x
    | (t, none) => t.stewLater e n o a (.reset (idOf u))

/-- The root serves an ATST that has waited (R325). -/
def State.atstServe (s : State) (q : Req) (sub : Nat) (u : UnitId) : State :=
  match s.atstAct q.ret.e sub u with
  | (t, some x) => t.setReq q.id { q with
      op := .answer, res := some (words32 (.pkt q.ret.hdr) (x :: (lowHigh (t.unit u).das).reverse)) }
  | (t, none) => t.setReq q.id { q with op := .steward (.reset (idOf u)) }

/-- MEMORY_RESPONSE: the response of a request reaches its requester (`State.respond`); an ATST that waits at the root is served
once those before it are (R325) (log 83: DEDUCED). -/
def execMemoryResponse (i : Nat) (s : State) : Host.Outcome State Fault Refusal :=
  match s.reqAt i with
  | none => .next s
  | some q =>
    match q.op with
    | .steward (.atst sub u) => .next (if s.atstBusy i then s else s.atstServe q sub u)
    | _ => s.respond i

/-- An ATST of a sub-code (R325). -/
def atst (sub : Nat) (o : Slot) (f : Fn) (s : State) : Host.Outcome State Fault Refusal :=
  fireWith o f (fun s e n env => do
    let u ← s.atstDie env.a
    .ok (fun s' => s'.atst e n o env.a sub u)) s

/-- ATST.QUERY (R325). -/
def execAtstQuery (o : Slot) (f : Fn) (s : State) : Host.Outcome State Fault Refusal := atst 0 o f s
/-- ATST.CHALLENGE (R325) (log 19: DESIGN CHOICE). -/
def execAtstChallenge (o : Slot) (f : Fn) (s : State) : Host.Outcome State Fault Refusal := atst 1 o f s
/-- ATST.QUARANTINE (R325). -/
def execAtstQuarantine (o : Slot) (f : Fn) (s : State) : Host.Outcome State Fault Refusal := atst 2 o f s
/-- ATST.RESET (R325). -/
def execAtstReset (o : Slot) (f : Fn) (s : State) : Host.Outcome State Fault Refusal := atst 3 o f s

/-! FLTAK (R344). -/

/-- Doublewords as lanes, low half first. -/
def dwordLanes (ws : List Dword) : List Nat := ws.flatMap lowHigh

/-- FLTAK's two packets. -/
def State.fltak (s : State) (e n : Nat) (o : Slot) (a : Operand) (x : Option Record) : State :=
  let ws := match x with | some r => r.words | none => List.replicate 8 0
  s.complete e n o { out := some (words32 a (dwordLanes (ws.take 4))), second := some (words32 a (dwordLanes (ws.drop 4))) }

/-- FLTAK.take (R344). -/
def execFltakTake (o : Slot) (f : Fn) (s : State) : Host.Outcome State Fault Refusal :=
  fireWith o f (fun _ e n env => do
    let vf ← control 63 env.a
    .ok (fun s' => (s'.takeItem (ekDie e) vf).fltak e n o env.a ((s'.storeItem (ekDie e) vf).map (fun x => x.1)))) s

/-- FLTAK.peek (R344). -/
def execFltakPeek (o : Slot) (f : Fn) (s : State) : Host.Outcome State Fault Refusal :=
  fireWith o f (fun _ e n env => do
    let vf ← control 63 env.a
    .ok (fun s' => s'.fltak e n o env.a ((s'.storeItem (ekDie e) vf).map (fun x => x.1)))) s

/-! QSCK (R381) and RLIM (R383). -/

/-- Has a partition a region on a die? -/
def State.onDie (s : State) (pid d : Nat) : Bool := pState (s.part pid) != 0 && (s.rectDies (pRect (s.part pid))).contains d

/-- A die's quiet count of a partition (R63): at least 4,096 once it has reported (log 84: DESIGN CHOICE). -/
def State.quietCount (s : State) (pid d : Nat) : Nat :=
  if (s.part pid).quiet.contains d then min (2 ^ 32 - 1) (4096 + Config.elapsed s.draws) else Config.elapsed s.draws % 4096

/-- QSCK.read (R381) (log 84: DESIGN CHOICE). -/
def execQsckRead (o : Slot) (f : Fn) (s : State) : Host.Outcome State Fault Refusal :=
  fireWith o f (fun _ e n env => do
    let pid ← control 255 env.a
    .ok (fun s' =>
      let d := ekDie e
      if s'.onDie pid d then s'.drawn.stewAnswer e n o env.a [0, s'.quietCount pid d, (s'.part pid).decision]
      else s'.stewAnswer e n o env.a [1, 0, (s'.part pid).decision])) s

/-- QSCK.restart (R381). -/
def execQsckRestart (o : Slot) (f : Fn) (s : State) : Host.Outcome State Fault Refusal :=
  fireWith o f (fun _ e n env => do
    let pid ← control 255 env.a
    .ok (fun s' =>
      let d := ekDie e
      if s'.onDie pid d then
        (s'.modPart pid (fun p => { p with quiet := p.quiet.filter (fun x => x != d) })).stewAnswer e n o env.a [0, 0, (s'.part pid).decision]
      else s'.stewAnswer e n o env.a [1, 0, (s'.part pid).decision])) s

/-- RLIM (R383) (log 98: DESIGN CHOICE; log 138: DESIGN CHOICE). -/
def execRlim (o : Slot) (f : Fn) (s : State) : Host.Outcome State Fault Refusal :=
  fireWith o f (fun _ e n env => do
    let w ← control 0x800000FF env.a
    let cap := w % 256
    if 2 ^ 31 ≤ w && (cap < 60 || 180 < cap) then .error .bounds
    else .ok (fun s' =>
      let busy := s'.takeover
      let t := if 2 ^ 31 ≤ w && !busy then s'.modRoot (fun x => { x with capDrop := 180 - cap }) else s'
      t.stewAnswer e n o env.a
        [if busy then 3 else 0, 180 - t.panel.root.capDrop, (t.die (ekDie e)).sigma, t.panel.root.power / 100])) s

end Sys2Proof.Machine
end

