-- ==== Sys2Proof/Machine/Host.lean ====
section
/-! DEFINITION. The management plane and the host's queues (R262, R263, R267 to R271): management commands, steward launches, the
doorbell window, and RoCEv2 operations. A management command comes on the queue pair of the port die in `cur`. -/

namespace Sys2Proof.Machine

/-! Management answers (R268): 0 DONE, 1 REFUSED, 2 FAILED, 3 BUSY, 4 FORMAT. -/

/-- The answer to a command, on the queue pair it came by (log 88: DEDUCED). -/
def State.mgmtAnswer (s : State) (op status : Nat) (tag : BitVec 32) (body : List Byte) : State :=
  s.emit (.mgmt s.cur.1 (mgmtMsg op status tag body))

/-- A command other than STW_LAUNCH: BUSY during a root takeover, REFUSED where its condition fails, else done (R268). -/
def State.mgmtServe (s : State) (op : Nat) (tag : BitVec 32) (ok : Bool) (f : State → State × List Byte) : State :=
  if s.panel.root.takeover then s.mgmtAnswer op 3 tag []
  else if !ok then s.mgmtAnswer op 1 tag []
  else
    let x := f s
    x.1.mgmtAnswer op 0 tag x.2

/-! Steward launches (R269, R434). -/

/-- Does a header meet R434 and R35 to R37? -/
def stewardHeader (hdr : List Dword) : Bool :=
  headerLegal hdr && lhFw hdr == 1 && lhFh hdr == 1 && lhRw hdr == 1 && lhRh hdr == 1
    && (List.range 6).all (fun k => widWidth (lh hdr 1) k == 0)

/-- The completion word of a steward launch: none named, its key, or refused (R36, R138) (log 90: DEDUCED). -/
def State.stewardCmp (s : State) (r : Nat) (hdr : List Dword) : Option (Option Nat) :=
  if lh hdr 6 == 0 then some none
  else match s.access r (lh hdr 6).toNat 16 needSync with
    | .ok (_, a) => if 2 ^ 63 ≤ a || s.marked a 16 then some (some a) else none
    | .error _ => none

/-- STW_LAUNCH: REFUSED for a VDN that names no ACTIVE die; refused with HEADER by the steward; else it waits its turn (R269)
(log 88: DEDUCED). -/
def execStwLaunch (tag : BitVec 32) (vdn : Byte) (hdr : List Dword) (s : State) : Host.Outcome State Fault Refusal :=
  let d := vdn.toNat
  if s.ndies ≤ d || !(s.dieActive d) then .next (s.mgmtAnswer 0x01 1 tag [])
  else
    let refuse := s.mgmtAnswer 0x01 0 tag (dwordBytes (completionEntry hdr 0x01 (refusalCode 1 hdr) 255 0 false 0 0 0 0))
    if !(stewardHeader hdr) then .next refuse
    else match s.stewardCmp (rkOf d 16) hdr with
      | none => .next refuse.drawn
      | some c =>
        let j : StwJob := { tag := tag, port := s.cur.1, launch := { hdr := hdr, origin := .steward tag s.cur.1, cmp := c } }
        .next ((s.modDie d (fun x => { x with stw := x.stw ++ [j] })).drawn)

/-- A steward takes up the launch at the head of its queue (R269): its region starts the configuration image. None starts while
fault-storm mode lasts (R246). -/
def State.startSteward (s : State) (d : Nat) : State :=
  match (s.die d).stw with
  | [] => s
  | j :: _ => if (s.die d).storm then s else (s.startRegion (rkOf d 16) (j.launch.word 3).toNat 0 0).drawn

/-- A steward launch whose stream has ended completes once its release is performed at panel scope (R47, R269) (log 90: DEDUCED). -/
def State.finishSteward (s : State) (d : Nat) : State :=
  match (s.die d).stw with
  | [] => s
  | j :: _ =>
    let cov := (s.region (rkOf d 16)).cov
    if !(s.performed 4 cov) then s
    else
      let t := s.endSteward d 0 0 none
      match j.launch.cmp with
      | some a => t.completionAdd d 255 a cov
      | none => t

/-! Ports, peers, TRLS (R264, R267). -/

def State.ports (s : State) : Nat := 8 * gridPorts s.panel.form

/-- Is an Ethernet port reachable: one of the panel's, on a port die not lost (R249)? (log 96: DEDUCED) -/
def State.portUp (s : State) (p : Nat) : Bool := p < s.ports && !(s.panel.ports.get (p / 8)).lost

/-- PORT_ADDR (R268). -/
def execPortAddr (tag : BitVec 32) (port plen : Byte) (addr : BitVec 128) (s : State) : Host.Outcome State Fault Refusal :=
  let p := port.toNat
  .next (s.mgmtServe 0x02 tag (p < s.ports && plen.toNat ≤ 128) (fun s =>
    let f (x : PortDie) : PortDie := { x with addrs := x.addrs.set (p % 8) (plen, addr) }
    ({ s with panel := { s.panel with ports := s.panel.ports.modify (p / 8) f } }, [])))

/-- Sessions are closed, and what waits on their streams fails (R265, R268). -/
def State.endTrls (s : State) (panel : Nat) : State :=
  let mine (q : Req) : Bool := q.phase == .remote && gpaPanel q.gpa == panel
  let s := s.modRoot (fun x => { x with
    sessions := x.sessions.erase panel, streams := x.streams.filter (fun y => y.1 / 16 != panel) })
  let lose (q : Req) : Req := if mine q then q.lost else q
  ({ s with reqs := s.reqs.map lose } : State).mapSaved (fun c => { c with reqs := c.reqs.map lose })

/-- PEER_SET (R268). -/
def execPeerSet (tag : BitVec 32) (panel : BitVec 16) (addrs : List (BitVec 128)) (s : State) : Host.Outcome State Fault Refusal :=
  .next (s.mgmtServe 0x03 tag (panel.toNat < 1024) (fun s =>
    let t := s.modRoot (fun x => { x with peers := x.peers.set panel.toNat addrs })
    (if addrs.isEmpty then t.endTrls panel.toNat else t, [])))

/-- TRLS_CFG: REFUSED while a session is open (R268). -/
def execTrlsCfg (tag : BitVec 32) (port panel : BitVec 16) (s : State) : Host.Outcome State Fault Refusal :=
  .next (s.mgmtServe 0x04 tag (panel.toNat < 1024 && !(s.panel.root.sessions.any (fun x => x.2.isOpen))) (fun s =>
    (s.modRoot (fun x => { x with trlsPort := some port, panelNo := panel }), [])))

/-- CFG_READ: the item in the layout of its write command (R268). -/
def execCfgRead (tag : BitVec 32) (item : Byte) (index : BitVec 32) (s : State) : Host.Outcome State Fault Refusal :=
  let i := index.toNat
  let ok := match item.toNat with
    | 0 => i < s.ports
    | 1 => i < 1024
    | 2 => i == 0
    | _ => false
  .next (s.mgmtServe 0x0B tag ok (fun s =>
    let w : Instr :=
      match item.toNat with
      | 0 =>
        let a := (s.panel.ports.get (i / 8)).addrs.get (i % 8)
        .portAddr tag (BitVec.ofNat 8 i) a.1 a.2
      | 1 => .peerSet tag (BitVec.ofNat 16 i) (s.panel.root.peers.get i)
      | _ => .trlsCfg tag s.udpPort s.panel.root.panelNo
    (s, (encodeMgmtBody w).2.2)))

/-- A command that R268 does not lay out is answered FORMAT under its own OP and tag, and changes nothing (log 88: DEDUCED). -/
def execMgmtMalformedCommand (msg : List Byte) (s : State) : Host.Outcome State Fault Refusal :=
  .next (s.mgmtAnswer (bytesAt msg 0 1) 4 (BitVec.ofNat 32 (bytesAt msg 4 4)) [])

/-! Queue pairs, windows, queues and rings (R263, R268, R270). -/

/-- Is a PID a partition of a VF? -/
def State.vfHas (s : State) (vf pid : Nat) : Bool := pState (s.part pid) != 0 && pVf (s.part pid) == vf

/-- Commands that need the VF's EN (R268). -/
def State.vfServed (s : State) (vf : Nat) : Bool := vf < 64 && s.vfOn vf

/-- The first number of a table that no entry has had; numbers 0 and 1 are never given (log 88: DEDUCED). -/
def freshNumber {α : Type} (m : PMap α) : Nat := m.foldl (fun n x => max n (x.1 + 1)) 2

/-- QP_OPEN: within the VF's QPQ and the port die's 4,096 (R231, R263, R268). -/
def execQpOpen (tag : BitVec 32) (vf pid port : Byte) (rqpn : BitVec 32) (rip : BitVec 128) (psn : BitVec 32) (s : State) :
    Host.Outcome State Fault Refusal :=
  let v := vf.toNat
  let open_ := s.panel.qps.filter (fun x => x.2.isOpen)
  let ok := s.vfServed v && s.vfHas v pid.toNat && s.portUp port.toNat
    && (open_.filter (fun x => x.2.vf == v)).length < bitsOf (s.vftAt 200 v).2 26 8
    && (open_.filter (fun x => x.2.port / 8 == port.toNat / 8)).length < 4096
  .next (s.mgmtServe 0x05 tag ok (fun s =>
    let n := freshNumber s.panel.qps
    let q : QPair := { isOpen := true, vf := v, pid := pid.toNat, port := port.toNat, rqpn := rqpn, rip := rip, psn := psn }
    ({ s with panel := { s.panel with qps := s.panel.qps.set n q } }, valBytes 4 n)))

/-- QP_CLOSE: a request still outstanding is answered with a NAK (R268). -/
def execQpClose (tag qpn : BitVec 32) (s : State) : Host.Outcome State Fault Refusal :=
  .next (s.mgmtServe 0x06 tag (s.panel.qps.get qpn.toNat).isOpen (fun s =>
    let s := ((s.hostOps qpn.toNat).foldl (fun s op => s.hostEnd qpn.toNat op (.nak qpn.toNat 2)) s).endWindows
    ({ s with panel := { s.panel with qps := s.panel.qps.modify qpn.toNat (fun x => { x with isOpen := false }) } }, [])))

/-- MW_OPEN: a window of whole 4 KiB pages (R263, R268). -/
def execMwOpen (tag : BitVec 32) (vf pid : Byte) (rd wr : Bool) (va len : Dword) (s : State) : Host.Outcome State Fault Refusal :=
  let v := vf.toNat
  let ok := s.vfServed v && s.vfHas v pid.toNat && va.toNat % 4096 == 0 && len.toNat % 4096 == 0 && va.toNat + len.toNat ≤ 2 ^ 57
  .next (s.mgmtServe 0x07 tag ok (fun s =>
    let n := freshNumber s.panel.windows
    let w : Window := { isOpen := true, vf := v, pid := pid.toNat, rd := rd, wr := wr, va := va.toNat, len := len.toNat }
    ({ s with panel := { s.panel with windows := s.panel.windows.set n w } }, valBytes 4 n)))

/-- MW_CLOSE: no access begins through the window any more; with the last in progress applied it ends, and the command is answered
(R268). -/
def execMwClose (tag key : BitVec 32) (s : State) : Host.Outcome State Fault Refusal :=
  let k := key.toNat
  let w := s.panel.windows.get k
  if s.panel.root.takeover then .next (s.mgmtAnswer 0x08 3 tag [])
  else if !w.isOpen || w.closing.isSome then .next (s.mgmtAnswer 0x08 1 tag [])
  else
    let t : State := { s with panel := { s.panel with windows := s.panel.windows.modify k (fun x => { x with closing := some (s.cur.1, tag) }) } }
    .next (t.endWindow k)

/-- The key of a VF's doorbell window: above every window key. -/
def doorbellKey (vf : Nat) : Nat := 2 ^ 31 + vf

/-- Is a queue pair open and a VF's? -/
def State.qpOf (s : State) (qpn vf : Nat) : Bool := (s.panel.qps.get qpn).isOpen && (s.panel.qps.get qpn).vf == vf

/-- SQ_BIND: a submission queue and its completion queue, both counted from 0; entries still held go to the new queue (R42, R268,
R270, R271) (log 89: DESIGN CHOICE). -/
def execSqBind (tag : BitVec 32) (vf q pid : Byte) (qpn : BitVec 32) (va : Dword) (key entries : BitVec 32) (s : State) :
    Host.Outcome State Fault Refusal :=
  let v := vf.toNat
  let n := entries.toNat
  let ok := s.vfServed v && q.toNat < bitsOf (s.vftAt 200 v).2 20 6 && s.vfHas v pid.toNat && s.qpOf qpn.toNat v
    && (List.range 11).any (fun i => n == 2 ^ (6 + i))
  .next (s.mgmtServe 0x09 tag ok (fun s =>
    let x : SubQ := { bound := true, pid := pid.toNat, qpn := qpn.toNat, va := va.toNat, key := key.toNat, entries := n, held := ((s.vf v).sqs.get q.toNat).held }
    ((s.modVf v (fun y => { y with sqs := y.sqs.set q.toNat x, doorbell := doorbellKey v })).flushQueue v q.toNat,
      valBytes 4 (doorbellKey v))))

/-- RING_SET: where a ring is mirrored; for ring 0 the VF's home is the port die that received it (R268, R270, R271)
(log 89: DESIGN CHOICE). -/
def execRingSet (tag : BitVec 32) (vf ring : Byte) (qpn : BitVec 32) (va : Dword) (key : BitVec 32) (s : State) :
    Host.Outcome State Fault Refusal :=
  let v := vf.toNat
  let k := ring.toNat
  .next (s.mgmtServe 0x0A tag (s.vfServed v && k ≤ 16 && s.qpOf qpn.toNat v) (fun s =>
    let s := s.modRing v k (fun x => { x with buf := some { qpn := qpn.toNat, va := va.toNat, key := key.toNat } })
    let home := s.cur.1
    let s := s.modVf v (fun y => { y with
      home := (if k == 0 then home else y.home), mirror := (if k == 0 then s.mirrorOf home else y.mirror), doorbell := doorbellKey v })
    ((s.mirrorRing v k).pump v, valBytes 4 (doorbellKey v))))

/-! The doorbell window (R270). -/

/-- A head moved: the count of entries consumed, where it is not behind the old and not past the last written (log 89: DESIGN CHOICE). -/
def newHead (head last v : Nat) : Option Nat :=
  let n := head + (v + 2 ^ 32 - head % 2 ^ 32) % 2 ^ 32
  if v < 2 ^ 32 && head < n && n ≤ last then some n else none

/-- A head of a ring moved: its records are freed, and the stewards send what they hold (R245, R270). -/
def State.ringHead (s : State) (vf k v : Nat) : State :=
  let x := s.ring vf k
  match newHead x.head x.sent v with
  | none => s
  | some n =>
    (s.modRing vf k (fun y => { y with head := n, recs := y.recs.drop (n - y.head) })).pump vf

/-- A head of a completion queue moved. -/
def State.completionHead (s : State) (vf q v : Nat) : State :=
  let x := (s.vf vf).sqs.get q
  match newHead x.head x.written v with
  | none => s
  | some n => (s.modVf vf (fun y => { y with sqs := y.sqs.modify q (fun z => { z with head := n }) })).flushQueue vf q

/-- A WRITE to a doorbell window: a doubleword at a head's offset moves that head; any other is answered with a NAK
(log 89: DESIGN CHOICE). -/
def State.doorbell (s : State) (qpn vf off : Nat) (data : List Byte) : State :=
  let v := bytesVal data
  if data.length != 8 || off % 8 != 0 then s.emit (.nak qpn 2)
  else if off ≤ 0x80 then (s.ringHead vf (off / 8) v).emit (.ack qpn)
  else if 0x100 ≤ off && off < 0x100 + 8 * 64 then (s.completionHead vf ((off - 0x100) / 8) v).emit (.ack qpn)
  else s.emit (.nak qpn 2)

/-- DOORBELL_WRITE: on a queue pair that the event does not name; a VF that is not enabled has no window (R232, R270). -/
def execDoorbellWrite (vf off : Nat) (data : List Byte) (s : State) : Host.Outcome State Fault Refusal :=
  .next (if s.vfServed vf then s.doorbell 0 vf off data else s)

/-! RoCEv2 (R263, R170). -/

/-- Pieces of a range within 4 KiB pages. -/
def pagePieces : Nat → Nat → Nat → List (Nat × Nat)
  | 0, _, _ => []
  | f + 1, va, len =>
    if len == 0 then []
    else
      let n := min len (4096 - va % 4096)
      (va, n) :: pagePieces f (va + n) (len - n)

/-- The GPA and the key of a piece for a host: stage 1 of the partition, the dies and channels from the port die on, stage 2; for another
panel's memory the pair must be reachable (R145, R263). A host's traffic enters by the first die of its port die
(log 111: DESIGN CHOICE). -/
def State.hostKey (s : State) (pid port va : Nat) (need : Rights) : Option (Nat × Nat) :=
  let src := s.portEntry (port / 8)
  match s.lookup pid src va with
  | none => none
  | some t =>
    let g := t.gpa + (va - t.va)
    if !(rightsOk need { rd := t.rd, wr := t.wr, am := t.am }) || !(s.isActive (idPort (port / 8)))
        || !(s.routeOk src g) || !(s.attachOpen src) || !(s.lineOk src g) then none
    else if s.isRemote g then (if s.reachable (gpaPanel g) then some (g, remoteKey g) else none)
    else ((s.stage2 (pVf (s.part pid)) g need).toOption).map (fun a => (g, a))

/-- A piece of a host's access: the GPA, the key, the place in the data, the length. -/
structure HostPiece where
  gpa : Nat
  key : Nat
  off : Nat
  len : Nat
  deriving DecidableEq, Repr

/-- The pieces of a range that a window lets a queue pair reach; none where the window, a right, or a translation refuses it. -/
def State.hostRange (s : State) (q : QPair) (key va len : Nat) (need : Rights) : Option (List HostPiece) :=
  let w := s.panel.windows.get key
  if !w.isOpen || w.closing.isSome || w.vf != q.vf || w.pid != q.pid || va < w.va || w.va + w.len < va + len || (need.wr && !w.wr) || (need.rd && !w.rd) then none
  else
    (pagePieces (len / 4096 + 2) va len).foldl (fun acc p =>
      match acc, s.hostKey q.pid q.port p.1 need with
      | some xs, some a => some (xs ++ [{ gpa := a.1, key := a.2, off := p.1 - va, len := p.2 }])
      | _, _ => none) (some [])

/-- A STORE of a host's WRITE to another panel, to be sent on its stream in the order of the WRITEs (R170, R265). -/
def State.hostStore (s : State) (qpn op key g : Nat) (bs : List Byte) : State :=
  let q : Req := { id := s.nextId, op := .store, who := .host qpn op key, phase := .deq, gpa := g, size := bs.length, data := bs,
                   ret := { rk := farRegion } }
  ({ s with reqs := s.reqs ++ [q] } : State).fresh

/-- A piece of a WRITE to another panel, sent in STOREs of at most 64 bytes (R170, R264) (log 59: DESIGN CHOICE). -/
def State.hostFar (s : State) (qpn op key : Nat) (g : Nat) (bs : List Byte) : Nat → State
  | 0 => s
  | f + 1 => if bs.isEmpty then s else (s.hostStore qpn op key g (bs.take 64)).hostFar qpn op key (g + 64) (bs.drop 64) f

/-- The pieces of a WRITE done: at the homes of this panel at once, toward others by TRLS. -/
def State.hostPut (s : State) (qpn op key : Nat) (data : List Byte) (ps : List HostPiece) : State :=
  ps.foldl (fun s p =>
    let bs := (data.drop p.off).take p.len
    if 2 ^ 63 ≤ p.key then s.hostFar qpn op key p.gpa bs p.len else s.putHome p.key bs) s

/-- ROCE_WRITE: to a doorbell window, at the VF's home, or to a memory window as a whole, performed at every tier with its
acknowledgement, which waits for what other panels must answer; a sync word in the way, or anything that refuses the access, is
answered with a NAK (R138, R170, R263, R270). A queue pair that is not open drops it (R232) (log 89: DESIGN CHOICE; log 105: DEDUCED). -/
def execRoceWrite (qpn key va : Nat) (data : List Byte) (s : State) : Host.Outcome State Fault Refusal :=
  let q := s.panel.qps.get qpn
  if !q.isOpen then .next s
  else if key == doorbellKey q.vf && (s.vf q.vf).doorbell == key then
    .next (if q.port / 8 == (s.vf q.vf).home then s.doorbell qpn q.vf va data else s.emit (.nak qpn 2))
  else match s.hostRange q key va data.length needWrite with
    | none => .next ((s.emit (.nak qpn 2)).drawn)
    | some ps =>
      if ps.any (fun p => p.key < 2 ^ 63 && s.marked p.key p.len) then .next ((s.emit (.nak qpn 2)).drawn)
      else
        let op := s.nextId
        let t := (s.hostPut qpn op key data ps).drawn
        .next (if (t.hostOps qpn).contains op then t else t.emit (.ack qpn))

/-- ROCE_READ: the bytes at the homes, sync words as stored; another panel's as it answers (R138, R170, R263).
A word with an uncorrectable error is answered with a NAK (log 21: DESIGN CHOICE; log 89: DESIGN CHOICE; log 105: DEDUCED). -/
def execRoceRead (qpn key va len : Nat) (s : State) : Host.Outcome State Fault Refusal :=
  let q := s.panel.qps.get qpn
  if !q.isOpen then .next s
  else match s.hostRange q key va len needRead with
    | none => .next ((s.emit (.nak qpn 2)).drawn)
    | some ps =>
      if ps.any (fun p => p.key < 2 ^ 63 && s.eccBad p.key p.len) then .next ((s.emit (.nak qpn 2)).drawn)
      else .next ((s.emit (.data qpn (ps.flatMap (fun p =>
        if 2 ^ 63 ≤ p.key then (List.range p.len).map (fun i => Config.remoteByte s.draws (p.gpa + i)) else memBytes s.mem p.key p.len)))).drawn)

/-- ROCE_CNP: a congestion notification slows the queue pair (R263) (log 105: DEDUCED). -/
def execRoceCnp (qpn : Nat) (s : State) : Host.Outcome State Fault Refusal :=
  .next (if (s.panel.qps.get qpn).isOpen then
      { s with panel := { s.panel with qps := s.panel.qps.modify qpn (fun x => { x with slowed := x.slowed + 1 }) } }
    else s)

/-- ROCE_INVALID_OPCODE: a NAK (R263). -/
def execRoceInvalidOpcode (qpn _opc : Nat) (s : State) : Host.Outcome State Fault Refusal :=
  .next (if (s.panel.qps.get qpn).isOpen then s.emit (.nak qpn 1) else s)

end Sys2Proof.Machine
end

