-- ==== Sys2Proof/Machine/Integer.lean ====
section
/-! DEFINITION. The meanings of the integer instructions. What each computes stands in IntegerAct.lean. -/

namespace Sys2Proof.Machine

/-- ADD (R318). -/
def execAdd (o : Slot) (f : Fn) (s : State) : Host.Outcome State Fault Refusal := fire o f addAct s

/-- ADDS (R318). -/
def execAdds (o : Slot) (f : Fn) (s : State) : Host.Outcome State Fault Refusal := fire o f addsAct s

/-- SUB (R386). -/
def execSub (o : Slot) (f : Fn) (s : State) : Host.Outcome State Fault Refusal := fire o f subAct s

/-- SUBS (R386). -/
def execSubs (o : Slot) (f : Fn) (s : State) : Host.Outcome State Fault Refusal := fire o f subsAct s

/-- MUL (R357). -/
def execMul (o : Slot) (f : Fn) (s : State) : Host.Outcome State Fault Refusal := fire o f mulAct s

/-- MULH (R357). -/
def execMulh (o : Slot) (f : Fn) (s : State) : Host.Outcome State Fault Refusal := fire o f mulhAct s

/-- MULW (R357). -/
def execMulw (o : Slot) (f : Fn) (s : State) : Host.Outcome State Fault Refusal := fire o f mulwAct s

/-- MAD (R357). -/
def execMad (o : Slot) (f : Fn) (s : State) : Host.Outcome State Fault Refusal := fire o f madAct s

/-- MADW (R358). -/
def execMadw (o : Slot) (f : Fn) (s : State) : Host.Outcome State Fault Refusal := fire o f madwAct s

/-- NEG (R359). -/
def execNeg (o : Slot) (f : Fn) (s : State) : Host.Outcome State Fault Refusal := fire o f negAct s

/-- ABS (R316). -/
def execAbs (o : Slot) (f : Fn) (s : State) : Host.Outcome State Fault Refusal := fire o f absAct s

/-- MIN (R359). -/
def execMin (o : Slot) (f : Fn) (s : State) : Host.Outcome State Fault Refusal := fire o f minAct s

/-- MAX (R359). -/
def execMax (o : Slot) (f : Fn) (s : State) : Host.Outcome State Fault Refusal := fire o f maxAct s

/-- CLAMP (R332). -/
def execClamp (o : Slot) (f : Fn) (s : State) : Host.Outcome State Fault Refusal := fire o f clampAct s

/-- AND (R318). -/
def execAnd (o : Slot) (f : Fn) (s : State) : Host.Outcome State Fault Refusal := fire o f andAct s

/-- OR (R359). -/
def execOr (o : Slot) (f : Fn) (s : State) : Host.Outcome State Fault Refusal := fire o f orAct s

/-- XOR (R386). -/
def execXor (o : Slot) (f : Fn) (s : State) : Host.Outcome State Fault Refusal := fire o f xorAct s

/-- ANDN (R318). -/
def execAndn (o : Slot) (f : Fn) (s : State) : Host.Outcome State Fault Refusal := fire o f andnAct s

/-- NOT (R359). -/
def execNot (o : Slot) (f : Fn) (s : State) : Host.Outcome State Fault Refusal := fire o f notAct s

/-- SHL (R386). -/
def execShl (o : Slot) (f : Fn) (s : State) : Host.Outcome State Fault Refusal := fire o f shlAct s

/-- SHR (R386). -/
def execShr (o : Slot) (f : Fn) (s : State) : Host.Outcome State Fault Refusal := fire o f shrAct s

/-- SAR (R386). -/
def execSar (o : Slot) (f : Fn) (s : State) : Host.Outcome State Fault Refusal := fire o f sarAct s

/-- ROTL (R359). -/
def execRotl (o : Slot) (f : Fn) (s : State) : Host.Outcome State Fault Refusal := fire o f rotlAct s

/-- CLZ (R316). -/
def execClz (o : Slot) (f : Fn) (s : State) : Host.Outcome State Fault Refusal := fire o f clzAct s

/-- CTZ (R316). -/
def execCtz (o : Slot) (f : Fn) (s : State) : Host.Outcome State Fault Refusal := fire o f ctzAct s

/-- POPC (R359). -/
def execPopc (o : Slot) (f : Fn) (s : State) : Host.Outcome State Fault Refusal := fire o f popcAct s

/-- BREV (R316). -/
def execBrev (o : Slot) (f : Fn) (s : State) : Host.Outcome State Fault Refusal := fire o f brevAct s

/-- BFX (R326). -/
def execBfx (o : Slot) (f : Fn) (s : State) : Host.Outcome State Fault Refusal := fire o f bfxAct s

/-- BFI (R326). -/
def execBfi (o : Slot) (f : Fn) (s : State) : Host.Outcome State Fault Refusal := fire o f bfiAct s

/-- CMP (R318). -/
def execCmp (o : Slot) (f : Fn) (s : State) : Host.Outcome State Fault Refusal := fire o f cmpAct s

/-- SEL (R391). -/
def execSel (o : Slot) (f : Fn) (s : State) : Host.Outcome State Fault Refusal := fire o f selAct s

/-- QDIV (R379). -/
def execQdiv (o : Slot) (f : Fn) (s : State) : Host.Outcome State Fault Refusal := fire o f qdivAct s

end Sys2Proof.Machine
end

