-- ==== Sys2Proof/Machine/Lanes.lean ====
section
/-! DEFINITION. The meanings of the packet and lane instructions. What each computes stands in LaneAct.lean. -/

namespace Sys2Proof.Machine

/-- PKSPL (R373). -/
def execPkspl (o : Slot) (f : Fn) (s : State) : Host.Outcome State Fault Refusal := fire o f pksplAct s

/-- PKMRG (R374). -/
def execPkmrg (o : Slot) (f : Fn) (s : State) : Host.Outcome State Fault Refusal := fire o f pkmrgAct s

/-- PKLEN_GET (R373). -/
def execPklenGet (o : Slot) (f : Fn) (s : State) : Host.Outcome State Fault Refusal := fire o f pklenGetAct s

/-- PKLEN_SET (R373). -/
def execPklenSet (o : Slot) (f : Fn) (s : State) : Host.Outcome State Fault Refusal := fire o f pklenSetAct s

/-- LSWAP (R351). -/
def execLswap (o : Slot) (f : Fn) (s : State) : Host.Outcome State Fault Refusal := fire o f lswapAct s

/-- LPERM (R351). -/
def execLperm (o : Slot) (f : Fn) (s : State) : Host.Outcome State Fault Refusal := fire o f lpermAct s

/-- LBCAST (R351). -/
def execLbcast (o : Slot) (f : Fn) (s : State) : Host.Outcome State Fault Refusal := fire o f lbcastAct s

/-- LEXT (R351). -/
def execLext (o : Slot) (f : Fn) (s : State) : Host.Outcome State Fault Refusal := fire o f lextAct s

/-- LINS (R351). -/
def execLins (o : Slot) (f : Fn) (s : State) : Host.Outcome State Fault Refusal := fire o f linsAct s

/-- LRED (R352). -/
def execLred (o : Slot) (f : Fn) (s : State) : Host.Outcome State Fault Refusal := fire o f lredAct s

/-- LSCAN (R352). -/
def execLscan (o : Slot) (f : Fn) (s : State) : Host.Outcome State Fault Refusal := fire o f lscanAct s

/-- EOFM (R338). -/
def execEofm (o : Slot) (f : Fn) (s : State) : Host.Outcome State Fault Refusal := fire o f eofmAct s

end Sys2Proof.Machine
end

