-- ==== Sys2Proof/Machine/Links.lean ====
section
/-! DEFINITION. Link keys and frames (R256 to R260), the root's takeover (R249), lost sessions (R254), and priority flow control
(R262). Frames travel sealed: an event says whether a frame's CRC and tag check. -/

namespace Sys2Proof.Machine

/-- Does a key register hold a generation? -/
def holdsGen (w : Dword) (g : BitVec 16) : Bool :=
  (keyState w 0 != 0 && keyGen w 0 == g.toNat) || (keyState w 1 != 0 && keyGen w 1 == g.toNat)

/-- The generation in the CURRENT slot, and in the OLD slot. -/
def genIn (w : Dword) (st : Nat) : Option Nat := (slotIn w st).map (keyGen w)

/-- May a key be delivered to a die: its session is open, and the root serves rollovers (R249, R254, R256)? (log 95: DEDUCED) -/
def State.mayKey (s : State) (u : UnitId) : Bool :=
  let st := dasState (s.unit u)
  !s.panel.root.takeover && (st == 2 || st == 3) && (s.unit u).spdm.session && (s.unit u).spdm.msgs < 2 ^ 20

/-- May a transmitter that has no CURRENT key, or whose rollover is due, switch now: both ends hold NEXT (R259, R260 step 3)? -/
def State.switchReady (s : State) (u : UnitId) (n : Nat) (v : UnitId) (m : Nat) : Bool :=
  let c := s.chan u n
  hasKey c.tx 1 && genIn c.tx 1 == genIn (s.chan v m).rx 1 && (c.due || !(hasKey c.tx 2))

/-- The switch, where it is time. -/
def State.trySwitch (s : State) (u : UnitId) (n : Nat) (v : UnitId) (m : Nat) : State :=
  if s.switchReady u n v m then s.modChan u n Chan.startSwitch else s

/-- A key of the root's put in a slot of a channel's TX or RX. -/
def Chan.install (c : Chan) (rx : Bool) (w : Dword) (slot : Nat) (key : BitVec 256) : Chan :=
  if rx then { c with rx := w, rkeys := c.rkeys.set slot key, busy := false } else { c with tx := w, tkeys := c.tkeys.set slot key }

/-- A key delivered to a receiver, which installs and acknowledges it, or answers BUSY with no EMPTY slot; or to a transmitter, after
its receiver's acknowledgement (R258, R259). -/
def State.deliverTo (s : State) (u : UnitId) (n : Nat) (v : UnitId) (m : Nat) (rx : Bool) (g : BitVec 16) : State :=
  let w := if rx then (s.chan u n).rx else (s.chan u n).tx
  let due := if rx then s.linkGen v m else s.linkGen u n
  if due != g || holdsGen w g || (!rx && g != 0 && (s.chan v m).ack != some g) then s
  else match deliverKey w g.toNat with
    | none => if rx then s.modChan u n (fun c => { c with busy := true }) else s
    | some w' =>
      let key := if rx then s.deriveKey v m u g.toNat else s.deriveKey u n v g.toNat
      let s := s.modChan u n (fun c => c.install rx w' ((slotIn w 0).getD 0) key)
      let s := if rx then s.modChan u n (fun c => { c with ack := some g }) else s
      let both := if rx then holdsGen (s.chan v m).tx g else holdsGen (s.chan v m).rx g
      let s := if !both then s else if rx then s.setLinkGen v m (g + 1) else s.setLinkGen u n (g + 1)
      let s := (s.modUnit u (fun x => { x with spdm := { x.spdm with msgs := x.spdm.msgs + 1 } }))
      let s := if rx then s else s.trySwitch u n v m
      ((s.refreshKeyed u n).maybeActive u).maybeActive v

/-- KEY_DELIVER (R256, R258, R259). After a BUSY answer the root retries once the grace has ended (log 95: DEDUCED). -/
def execKeyDeliver (u : UnitId) (n : Nat) (rx : Bool) (gen : BitVec 16) (s : State) : Host.Outcome State Fault Refusal :=
  match s.peer u n with
  | none => .next s
  | some (v, m) =>
    let waits := rx && (s.chan u n).busy && hasKey (s.chan u n).rx 3
    .next (if s.unitOk u && s.mayKey u && !waits then s.deliverTo u n v m rx gen else s)

/-- KEY_ROLL_DUE: the root tells a transmitter to switch, once both ends hold NEXT (R256, R259); none during a takeover (R249). -/
def execKeyRollDue (u : UnitId) (n : Nat) (s : State) : Host.Outcome State Fault Refusal :=
  match s.peer u n with
  | none => .next s
  | some (v, m) =>
    .next (if s.panel.root.takeover || !(s.isActive (idOf u)) || !(s.chan u n).keyed then s
      else (s.modChan u n (fun c => { c with due := true })).trySwitch u n v m)

/-- KEYSWITCH_RECEIVE: the receiver's NEXT is CURRENT, the previous CURRENT is OLD (R258, R259). -/
def execKeyswitchReceive (u : UnitId) (n : Nat) (gen : BitVec 16) (s : State) : Host.Outcome State Fault Refusal :=
  match s.peer u n with
  | none => .next s
  | some (v, m) =>
    .next (if genIn (s.chan u n).rx 1 == some gen.toNat && genIn (s.chan v m).tx 2 == some gen.toNat then
        (((s.modChan u n (fun c => { c with rx := switchKey true c.rx }.zeroised)).refreshKeyed u n).maybeActive u).maybeActive v
      else s)

/-- A frame sealed (R256): the flits encrypted and the header authenticated by AES-256-GCM, with a nonce of GEN, 16 zero bits and the frame
counter (log 128: DESIGN CHOICE). -/
def sealFrame (key : BitVec 256) (gen : BitVec 16) (ctr : BitVec 64) (flits draw : Nat) : LinkFrame :=
  let nonce : BitVec 96 := gen ++ 0#16 ++ ctr
  let body := gcmCrypt key nonce (Config.frameFlits draw flits)
  { gen := gen, ctr := ctr, flits := flits, hdr := Config.frameHeader draw, body := body,
    tag := Config.gcmTag key nonce (Config.frameHeader draw) body }

/-- The key in a slot of TX whose state is CURRENT, with its generation. -/
def Chan.currentTx (c : Chan) : Option (BitVec 16 × BitVec 256) :=
  (slotIn c.tx 2).map (fun i => (BitVec.ofNat 16 (keyGen c.tx i), c.tkeys.get i))

/-- A frame sent under CURRENT: counted, and kept until it is acknowledged. -/
def Chan.sendFrame (c : Chan) (flits draw : Nat) : Chan :=
  match c.currentTx with
  | none => c
  | some (g, k) => { c with
      frames := c.frames + 1, unacked := c.unacked ++ [sealFrame k g c.frames flits draw], nonce := some (g ++ 0#16 ++ c.frames) }

/-- LINK_FRAME_SEND: one frame sealed under CURRENT; its nonce is GEN, 16 zero bits and the frame counter (R256). Until both dies are
ACTIVE it carries none (R28). A transmitter that waits to switch, or whose counter has reached 2^48, sends none; none takes the
counter to 2^40 before the root has rolled the key, unless a takeover keeps it from rolling (R249, R256, R259) (log 95: DEDUCED). -/
def execLinkFrameSend (u : UnitId) (n flits : Nat) (s : State) : Host.Outcome State Fault Refusal :=
  let c := s.chan u n
  let up := match s.peer u n with | some (v, _) => s.isActive (idOf u) && s.isActive (idOf v) | none => false
  .next (if flits == 0 || !up || !(hasKey c.tx 2) || c.down || c.switching || 2 ^ 48 ≤ c.frames.toNat
      || (2 ^ 40 ≤ c.frames.toNat + 1 && !s.panel.root.takeover) then s
    else (s.modChan u n (fun c => c.sendFrame flits s.draws)).drawn)

/-- FRAME_COUNTER_EXHAUSTED: F_LINK (R256). -/
def execFrameCounterExhausted (u : UnitId) (n : Nat) (s : State) : Host.Outcome State Fault Refusal :=
  .next (if (s.chan u n).frames.toNat < 2 ^ 48 || (s.chan u n).down || (s.peer u n).isNone then s else s.linkDown u n)

/-- An end of a channel after the root's CHALLENGE and GET_MEASUREMENTS: one whose signature fails, or whose blocks the policy does not
hold, is quarantined (R254, R260 step 3). The root makes no check during a takeover (R249) (log 16: DESIGN CHOICE). -/
def State.recheck (s : State) (u : UnitId) (sigOk : Bool) : State :=
  if s.panel.root.takeover then s else if !sigOk then s.quarantine u 2 else if !(s.policyMet u) then s.quarantine u 1 else s

/-- A frame whose tag fails (R260) (log 95: DEDUCED). -/
def State.tagFailed (s : State) (u : UnitId) (n : Nat) (v : UnitId) (m : Nat) (chkOk peerOk : Bool) : State :=
  let again := (s.chan u n).tagFails != 0 || (s.chan v m).tagFails != 0
  let fail (c : Chan) : Chan := { c with tagFails := c.tagFails + 1 }
  let s := (((s.linkDown u n).unkey u n).modChan u n fail).modChan v m fail
  if again then (s.quarantine u 3).quarantine v 3 else (s.recheck u chkOk).recheck v peerOk

/-- A frame acknowledged: a transmitter that waits to switch sends its KEYSWITCH after the last (R259). -/
def Chan.acked (c : Chan) : Chan :=
  let c : Chan := { c with unacked := c.unacked.drop 1 }
  if c.switching && c.unacked.isEmpty then c.switched else c

/-- A frame accepted by a receiver: flits under the new key spend GRACE while OLD lasts (R258, R259) (log 95: DEDUCED). -/
def Chan.received (c : Chan) (gen : BitVec 16) (flits : Nat) : Chan :=
  { c with retries := 0, rx := (if hasKey c.rx 3 && genIn c.rx 2 == some gen.toNat then spendGrace c.rx flits else c.rx) }.zeroised

/-- LINK_FRAME_RECEIVE (R256, R259, R260): a CRC that fails is retried, 16 times at most; a tag that fails, or a generation other
than CURRENT and OLD, un-keys the channel (log 95: DEDUCED). -/
def execLinkFrameReceive (u : UnitId) (n : Nat) (gen : BitVec 16) (flits : Nat) (crcOk tagOk chkOk peerOk : Bool) (s : State) :
    Host.Outcome State Fault Refusal :=
  match s.peer u n with
  | none => .next s
  | some (v, m) =>
    let c := s.chan u n
    if (s.chan v m).unacked.isEmpty || c.down then .next s
    else if !crcOk then
      if c.retries < 16 then .next (s.modChan u n (fun c => { c with retries := c.retries + 1 }))
      else .next ((s.modChan u n (fun c => { c with retries := 0 })).linkDown u n)
    else if !tagOk || !(genIn c.rx 2 == some gen.toNat || genIn c.rx 3 == some gen.toNat) then
      .next (s.tagFailed u n v m chkOk peerOk)
    else .next ((s.modChan u n (fun c => c.received gen flits)).modChan v m Chan.acked)

/-! The root (R249). -/

/-- The lowest-numbered ACTIVE port die that is not the root's. -/
def State.standby (s : State) : Option Nat :=
  (List.range (gridPorts s.panel.form)).find? (fun q => q != s.panel.root.port && s.isActive (idPort q))

/-- Every ACTIVE die has a session with the root (log 96: DEDUCED). -/
def State.allSessions (s : State) : Bool := s.units.all (fun u => !(s.isActive (idOf u)) || (s.unit u).spdm.session)

/-- ROOT_TAKEOVER (R249): the standby takes the role, and later has a session with every ACTIVE die (log 96: DEDUCED). -/
def execRootTakeover (port : Nat) (done : Bool) (s : State) : Host.Outcome State Fault Refusal :=
  if done then
    if s.panel.root.takeover && s.panel.root.port == port && s.allSessions then
      let back (x : Nat × PortDie) : Nat × PortDie := (x.1, { x.2 with lost := x.2.lost && !(s.isActive (idPort x.1)) })
      let s : State := { s with panel := { s.panel with ports := (s.panel.ports.map back).filter (fun x => x.2 != default) } }
      let s := s.modRoot (fun x => { x with takeover := false })
      .next (s.parts.foldl (fun s p => if pState p.2 == 3 && p.2.ending == 2 && s.allFrozen p.1 then s.frozenNow p.1 else s) s)
    else .next s
  else if s.panel.root.takeover || s.standby != some port then .next s
  else
    let s := s.loseHome s.panel.root.port
    let s := s.modRoot (fun x => { x with port := port, takeover := true })
    .next (s.units.foldl (fun s u => s.modUnit u (fun x => { x with spdm := { x.spdm with session := false, exchange := false } })) s)

/-- SESSION_LOST: an ACTIVE die is quarantined (R254, R255) (log 96: DEDUCED). -/
def execSessionLost (u : UnitId) (s : State) : Host.Outcome State Fault Refusal :=
  if s.panel.root.takeover || !(s.unitOk u) || !(s.unit u).spdm.session then .next s
  else
    let s := s.modUnit u (fun x => { x with spdm := { x.spdm with session := false } })
    .next (if dasState (s.unit u) == 3 then s.dieTo u 4 4 else s)

/-- PFC_FRAME: a priority of an Ethernet port paused or let go (R262) (log 97: DEDUCED). -/
def execPfcFrame (port : Nat) (prio : BitVec 3) (pause : Bool) (s : State) : Host.Outcome State Fault Refusal :=
  if 8 * gridPorts s.panel.form ≤ port then .next s
  else
    let bit : BitVec 8 := BitVec.ofNat 8 (2 ^ prio.toNat)
    let put (x : BitVec 8) : BitVec 8 := if pause then x ||| bit else x &&& (~~~ bit)
    let f (x : PortDie) : PortDie := { x with pfc := x.pfc.modify (port % 8) put }
    .next { s with panel := { s.panel with ports := s.panel.ports.modify (port / 8) f } }

end Sys2Proof.Machine
end

