-- ==== Sys2Proof/Machine/Power.lean ====
section
/-! DEFINITION. Bring-up, clock, power, temperature and RAS (R267, R273 to R280). -/

namespace Sys2Proof.Machine

/-! Power good (R273). -/

/-- What a die with an identity keeps through a loss of power: its fuses. Every die runs stage 1 (R247, R253, R273) (log 99: DEDUCED). -/
def Identity.powered (x : Identity) (image : List Byte) : Identity :=
  ({ das := putBits 0 32 8 (bitsOf x.das 32 8), seed := x.seed } : Identity).stage1 image

/-- The configuration record (R267): a record that does not verify leaves every port unconfigured (log 7: DESIGN CHOICE). -/
def State.configure (s : State) (b : Boot) : State :=
  if !b.recordOk then s
  else
    let put (m : PMap PortDie) (i : Nat) : PMap PortDie :=
      match b.ports[i]? with
      | some a => PMap.modify m (i / 8) (fun (x : PortDie) => { x with addrs := x.addrs.set (i % 8) a })
      | none => m
    let s : State := { s with panel := { s.panel with ports := (List.range (8 * gridPorts s.panel.form)).foldl put s.panel.ports } }
    s.modRoot (fun x => { x with
      recordOk := true, panelNo := b.panelNo, trlsPort := some b.trlsPort, hosts := b.hosts.take 4,
      peers := b.peers.foldl (fun m p => if p.1 < 1024 then PMap.set m p.1 (p.2.take 4) else m) [] })

/-- POWER_GOOD: stage 1 runs on every die, port die 0 is the root, memory is scrubbed; the firmware set and the configuration record
are verified (R249, R267, R273, R275). What is fused, and what the environment has seen and will do, stays
(log 7: DESIGN CHOICE; log 8: DEDUCED; log 99: DEDUCED). -/
def execPowerGood (fw : Boot) (s : State) : Host.Outcome State Fault Refusal :=
  let ks := s.units.map idOf
  let t : State := { State.reset with
    agenda := s.agenda, draws := s.draws
    panel := { form := s.panel.form, fuses := s.panel.fuses, sites := s.panel.sites, hostOut := s.panel.hostOut,
               ids := ks.foldl (fun m k => PMap.set m k ((s.ident k).powered (fw.images.getD (k / 100) (0, [], [])).2.1)) [] } }
  let t := (List.range t.ndies).foldl State.applyFuses t
  let t := t.modRoot (fun x => { x with booted := fw.setOk, images := fw.images, lms := fw.lms, policy := fw.policy })
  .next (t.configure fw)

/-- The fabric dies that run report droop calibration done, each at a moment of its own (R9, R273) (log 110: DESIGN CHOICE). -/
def State.calibrate (s : State) : State :=
  (List.range s.ndies).foldl (fun t d =>
    if dasState (t.unit (.fabric (t.physDie d))) != 0 && Config.choice t.draws then (t.modDie d (fun x => { x with calibrated := true })).drawn
    else t.drawn) s

/-- Has every fabric die reported? -/
def State.calibratedAll (s : State) : Bool := (List.range s.ndies).all (fun d => (s.die d).calibrated)

/-- CLOCK_RAISE: with droop calibration reported by every die, the root's command reaches a die, by VDN (R9, R273, R274). Until then
the root sends none (log 110: DESIGN CHOICE). -/
def execClockRaise (die : Nat) (s : State) : Host.Outcome State Fault Refusal :=
  let s := if s.calibratedAll then s else s.calibrate
  .next (if die < s.ndies && s.calibratedAll then s.modDie die (fun d => { d with clockFull := true }) else s)

/-- DROOP_STRETCH: a region's detector stretches the clock, or lets it go; no other state changes (R276). -/
def execDroopStretch (r : Nat) (on : Bool) (s : State) : Host.Outcome State Fault Refusal :=
  .next (if rkDie r < s.ndies then s.modRegion r (fun x => { x with stretch := on }) else s)

/-! The cap (R277). -/

/-- The cap in watts. -/
def Root.cap (x : Root) : Nat := (180 - x.capDrop) * 100

/-- Every die's scale lowered by one while the panel is over the cap, raised by one at or below 95 % of it (R277). -/
def dropNext (drop power cap : Nat) : Nat :=
  if cap < power then min 64 (drop + 1) else if 100 * power ≤ 95 * cap then drop - 1 else drop

/-- A fabric die after the root's comparison of the power with the cap (R277). -/
def Die.powered (d : Die) (power cap : Nat) : Die := { d with drop := dropNext d.drop power cap }
def Identity.scaled (x : Identity) (power cap : Nat) : Identity := { x with drop := dropNext x.drop power cap }

/-- POWER_EVAL: the root compares the panel's power, in watts, with the cap (R277) (log 98: DESIGN CHOICE). -/
def execPowerEval (power : Nat) (s : State) : Host.Outcome State Fault Refusal :=
  let s := s.modRoot (fun x => { x with power := power })
  let cap := s.panel.root.cap
  let s := (List.range s.ndies).foldl (fun s d => s.modDie d (fun x => x.powered power cap)) s
  .next (s.units.foldl (fun s u => match u with | .fabric _ => s | _ => s.modUnit u (fun x => x.scaled power cap)) s)

/-! Temperature (R278), in degrees Celsius. -/

def throttleAt : UnitId → Nat
  | .bridge _ => 90
  | _ => 100
def tripAt : UnitId → Nat
  | .bridge _ => 105
  | _ => 115

/-- The drop of a scale after a reading: one more at the limit, one less below it. -/
def hotNext (u : UnitId) (temp hot : Nat) : Nat := if throttleAt u ≤ temp then min 64 (hot + 1) else hot - 1

/-- THERMAL_THROTTLE: a reading of a die's temperature lowers its own scale at the limit, and gives it back below (R277, R278)
(log 98: DESIGN CHOICE). -/
def execThermalThrottle (u : UnitId) (temp : Nat) (s : State) : Host.Outcome State Fault Refusal :=
  .next (if !(s.unitOk u) then s else
    match u with
    | .fabric p => s.modDie (s.vdnOf p) (fun d => { d with hot := hotNext u temp d.hot })
    | _ => s.modUnit u (fun x => { x with hot := hotNext u temp x.hot }))

/-- THERMAL_TRIP: at the limit a die goes to RESETTING, with the effects of leaving ACTIVE; one in DARK is held in reset (R254, R278)
(log 94: DEDUCED). -/
def execThermalTrip (u : UnitId) (temp : Nat) (s : State) : Host.Outcome State Fault Refusal :=
  .next (if !(s.unitOk u) || temp < tripAt u then s
    else if dasState (s.unit u) == 0 then s.modUnit u (fun x => { x with tripped := true })
    else s.startReset u)

/-- JUNCTION_BELOW_THROTTLE: the hold of a tripped die ends (R254) (log 98: DESIGN CHOICE). -/
def execJunctionBelowThrottle (u : UnitId) (temp : Nat) (s : State) : Host.Outcome State Fault Refusal :=
  .next (if s.unitOk u && temp < throttleAt u then s.modUnit u (fun x => { x with tripped := false }) else s)

/-! RAS (R279). -/

/-- Where corrections of a key are counted: a stack and its channel, or the die whose SRAM holds it. Which channel of a stack serves an
address the spec does not say (log 100: DESIGN CHOICE). -/
def State.rasSite (s : State) (a : Nat) : Nat × Nat :=
  match keySite a with
  | some x => (x.1, Config.channelOf a % 32)
  | none => (100 + s.physDie (rkDie ((a - 2 ^ 61) / 2 ^ 24)), 0)

/-- One more correction of a channel; the count starts again when 2^36 cycles have passed (R279). -/
def Stack.correct (x : Stack) (ch : Nat) (again : Bool) : Stack :=
  { x with corrected := x.corrected.set ch (if again then 1 else x.corrected.get ch + 1) }

/-- PATROL_SCRUB: an error of a word, by a key of a byte of it, is corrected and counted, or is uncorrectable, and a reader meets
F_ECC (R145, R279) (log 100: DESIGN CHOICE). -/
def execPatrolScrub (addr : Nat) (bad : Bool) (s : State) : Host.Outcome State Fault Refusal :=
  .next (if bad then { s with ecc := s.ecc.set (addr / 8) true }
    else
      let k := s.rasSite addr
      ({ s with panel := { s.panel with sites := s.panel.sites.modify k.1 (fun x => x.correct k.2 (Config.choice s.draws)) } } : State).drawn)

/-- Does a frame of a VF stand at a physical stack, with no forwarding to another site (R240)? -/
def State.siteHeld (s : State) (site : Nat) : Bool :=
  (List.range 64).any (fun vf => (s.vfFrames vf).any (fun f => f.1 == site && (s.forwarded f.1 f.2).1 == site))

/-- CHANNEL_SPARE: a channel of a stack, by VSN, with 256 corrections in 2^36 cycles, or for service, is taken out once the steward has
moved its slices; one that is out is returned (R33, R240, R279, R280) (log 100: DESIGN CHOICE). -/
def execChannelSpare (vsn ch : Nat) (s : State) : Host.Outcome State Fault Refusal :=
  if s.ndies ≤ vsn || 32 ≤ ch then .next s
  else
    let site := s.physSite vsn
    let x := s.panel.sites.get site
    let put (f : Stack → Stack) : State := { s with panel := { s.panel with sites := s.panel.sites.modify site f } }
    if x.spared.contains ch then .next (put (fun x => { spared := x.spared.erase ch, corrected := x.corrected.erase ch }))
    else if s.siteHeld site || (x.corrected.get ch < 256 && !(Config.choice s.draws)) then .next s.drawn
    else .next (put (fun x => { spared := x.spared ++ [ch], corrected := x.corrected.erase ch })).drawn

end Sys2Proof.Machine
end

