-- ==== Sys2Proof/Machine/QuantAct.lean ====
section
/-! DEFINITION. What the dot-product, scale and accumulator instructions compute (R120 to R123, R315, R317, R320, R336, R337,
R367, R368, R380, R388, R389, R406). -/

namespace Sys2Proof.Machine

/-- DOT (R336): the K-blocks of a and b summed into accumulator n, the index in field P. The packet checks run in the order of
R87 over a, b and P together (log 30: DEDUCED). -/
def dotAct (f : Fn) (e : Env) : Except FCode Act :=
  let ty := srcTy f e.a e.b
  let t := ty.getD .n32
  let a := srcFor f t e.a
  let b := srcFor f t e.b
  let p := rawPk (thirdOp e)
  let av := laneVals t a.lanes
  let bv := laneVals t b.lanes
  let scaled := fcwMode e.fcw == 2
  if !(ownLenOk a && ownLenOk b) || av.length != bv.length || p.lanes.length != 1 then .error .pkLen
  else if ty.isNone || !tySetHas .dot t || t == .any || !hasTy t a || !hasTy t b || !hasTy .n32 p || !mulOk f e true t then .error .fmt
  else if a.sc != scaled || b.sc != scaled || p.sc then .error .scaleTag
  else do
    let n ← control 0x3F (thirdOp e)
    if e.node then .error .bounds
    else
      let start : Acc := if fnSub f == 1 then PMap.get e.accs n else 0
      let size := kBlock t t
      if tyIsInt t then
        let r := (blocksOf size 64 (av.zip bv)).foldl (fun (s : Acc × BitVec 32) blk =>
          let x := accumBlockInt s.1 (blk.map (fun q => (ival t q.1, ival t q.2)))
          (x.1, s.2 ||| x.2)) (start, 0)
        pure { out := some { word32 e.a n with sc := false, sce := 0 }, acc := [(n, r.1)], flags := r.2 }
      else
        let sc : Int := if scaled then (a.sce.toNat : Int) + b.sce.toNat - 254 else 0
        let bad := scaled && (a.sce == 0xFF || b.sce == 0xFF)
        let r := (blocksOf size 64 (av.zip bv)).foldl (fun (s : Acc × BitVec 32) blk =>
          let x := accumBlock s.1 (blk.map (fun q => (fv e t q.1, fv e t q.2))) sc bad
          (x.1, s.2 ||| x.2)) (start, 0)
        pure { out := some { word32 e.a n with sc := false, sce := 0 }, acc := [(n, r.1)], flags := r.2 }

/-- The larger of a running magnitude and |x|, and was x a NaN (log 27: DEDUCED). -/
def maxMag (s : FVal × Bool × Bool) (x : FVal) : FVal × Bool × Bool :=
  if isNan x then (s.1, true, s.2.2 || isSnan x)
  else (if fBelow s.1 (fAbsolute x) then fAbsolute x else s.1, s.2.1, s.2.2)

/-- AMAX (R320): the largest magnitude, exact in binary32; NaN when any value is; a signalling NaN sets NV (log 27: DEDUCED). -/
def amaxAct (f : Fn) (e : Env) : Except FCode Act :=
  let t := fnTy f
  let acc := fnSub f == 1
  let a := srcPk t e.a
  let b := srcPk t e.b
  if !ownLenOk a || (acc && (b.lanes.length != 1 || !ownLenOk b)) then .error .pkLen
  else if !tySetHas .float t || !hasTy t a || (acc && !hasTy .f32 b) then .error .fmt
  else if a.sc || (acc && b.sc) then .error .scaleTag
  else
    let vs := (laneVals t a.lanes).map (fv e t) ++ (if acc then [fv e .f32 (b.lanes.headD 0).toNat] else [])
    let r := vs.foldl maxMag (.fin false 0 0, false, false)
    let bits := if r.2.1 then 0x7FC00000 else (roundTy .f32 { rnd := .rne } false false r.1).1
    .ok { out := some (resPk e.a .f32 [BitVec.ofNat 32 bits]), flags := flagIf r.2.2 esNV }

/-- emaxElem of SCLX's target types (R389). -/
def emaxElem (inf8 : Bool) : Ty → Int
  | .b8 k => if k.val == 0 then (if inf8 then 62 else 63) else (2 ^ (6 - k.val) : Nat) - 1
  | .b8n k =>
    if k.val == 0 then (if inf8 then 125 else 126)
    else if k.val == 1 then (if inf8 then 62 else 63)
    else (2 ^ (7 - k.val) : Nat) - 1
  | .mx6e3 => 4
  | .mx6e2 => 2
  | .mx4 => 2
  | _ => 0

/-- The E8M0 code of a largest magnitude (R122). -/
def scaleCode (emax : Int) (v : FVal) : Nat × BitVec 32 :=
  match v with
  | .fin _ m x =>
    if m == 0 then (0, 0)
    else
      let c := expOf m x - emax
      if c < -127 then (0, esSCUND) else if 127 < c then (0xFE, esOF) else ((c + 127).toNat, 0)
  | _ => (0xFE, esNV)

/-- SCLX (R389) (log 23: DEDUCED). -/
def sclxAct (f : Fn) (e : Env) : Except FCode Act :=
  let a := srcPk .f32 e.a
  if a.lanes.length != 1 || !ownLenOk a then .error .pkLen
  else if !hasTy .f32 a then .error .fmt
  else if a.sc then .error .scaleTag
  else
    let r := scaleCode (emaxElem e.inf8 (fnTy f)) (fAbsolute (fv e .f32 (a.lanes.headD 0).toNat))
    .ok { out := some (word32 e.a r.1), flags := r.2 }

/-- QNT (R380): each value of a times 2^(127 − c), rounded to the narrow type; the result carries the scale c (log 29: DEDUCED). -/
def qntAct (f : Fn) (e : Env) : Except FCode Act :=
  let rt := fnTy f
  let r := fnRnd e f
  let sr := r == .sr
  let a := rawPk e.a
  let b := rawPk e.b
  let p := srPk e
  if !ownLenOk a || b.lanes.length != 1 || (sr && (p.lanes.length != a.lanes.length || !ownLenOk p)) then .error .pkLen
  else
    let ty := tyOfFmt a.fmt a.fpx
    let t := ty.getD .n32
    if ty.isNone || !tySetHas .wide t || !hasTy .n32 b || (sr && !hasTy .n32 p) then .error .fmt
    else if a.sc || b.sc || (sr && p.sc) then .error .scaleTag
    else do
      let c ← control 0xFF e.b
      let vals := laneVals t a.lanes
      if c == 0xFF then .error .bounds
      else if tyIsMx6 rt && vals.length != 16 && vals.length != 32 then .error .pkLen
      else
        let rs := (List.range vals.length).map (fun i =>
          let m := if sr then srMode t p.lanes i else { rnd := r : RMode }
          let q := quiet (fv e t (vals.getD i 0))
          let x := roundTy rt m e.ftz e.inf8 (fScale q.1 (127 - (c : Int)))
          (x.1, x.2 ||| flagIf q.2 esNV))
        pure { out := some { packRes e.a rt (rs.map (·.1)) with sc := true, sce := BitVec.ofNat 8 c },
               flags := rs.foldl (fun fl x => fl ||| x.2) 0 }

/-- DQNT (R337): up to eight lanes of values from index f on, each times 2^(SCE − 127). -/
def dqntAct (f : Fn) (e : Env) : Except FCode Act :=
  let rt := fnTy f
  let r := fnRnd e f
  let a := rawPk e.a
  let b := rawPk e.b
  if !ownLenOk a || b.lanes.length != 1 then .error .pkLen
  else
    let ty := tyOfFmt a.fmt a.fpx
    let t := ty.getD .n32
    if ty.isNone || !tySetHas .quant t || !hasTy .n32 b then .error .fmt
    else if !a.sc || b.sc then .error .scaleTag
    else do
      let i0 ← control 0x3F e.b
      let vals := laneVals t a.lanes
      if vals.length ≤ i0 then .error .bounds
      else
        let c := min (vals.length - i0) (8 * perLane rt)
        let rs := ((vals.drop i0).take c).map (fun x =>
          let v := fv e t x
          if a.sce == 0xFF then roundTy rt { rnd := r } e.ftz e.inf8 (.nan true)
          else roundTy rt { rnd := r } e.ftz e.inf8 (fScale v ((a.sce.toNat : Int) - 127)))
        pure { out := some { packRes e.a rt (rs.map (·.1)) with sc := false, sce := 0 },
               flags := rs.foldl (fun fl x => fl ||| x.2) 0 }

/-- SCLM (R388): attaches a scale, or multiplies the one a packet carries. -/
def sclmAct (f : Fn) (e : Env) : Except FCode Act :=
  let ty := srcTy f e.a e.b
  let t := ty.getD .n32
  let a := srcFor f t e.a
  let b := litPk (readTy f t e.b) e.b
  let mul := fnSub f == 1
  if !ownLenOk a || b.lanes.length != 1 then .error .pkLen
  else if ty.isNone || !tySetHas .quant t || !hasTy t a || !hasTy .n32 b then .error .fmt
  else if b.sc || a.sc != mul then .error .scaleTag
  else do
    let c ← controlAs (readTy f t e.b) 0xFF e.b
    let set (x : Nat) (fl : BitVec 32) : Act :=
      { out := some { a with sc := true, sce := BitVec.ofNat 8 x, cov := [] }, flags := fl }
    if mul && a.sce == 0xFF then pure (set 0xFF 0)
    else if c == 0xFF then .error .bounds
    else if !mul then pure (set c 0)
    else
      let s : Int := (a.sce.toNat : Int) + c - 127
      if s < 0 then pure (set 0 esSCUND) else if 254 < s then pure (set 0xFE esOF) else pure (set s.toNat 0)

/-- UNP6: one 6-bit code a byte (R406). -/
def unp6Act (f : Fn) (e : Env) : Except FCode Act :=
  let t := fnTy f
  let a := srcPk t e.a
  if !(a.lanes.length == 3 || a.lanes.length == 6) then .error .pkLen
  else if !hasTy t a then .error .fmt
  else .ok { out := some (resPk e.a .n8 (packVals .n8 (laneVals t a.lanes))) }

/-- PCK6: the codes of bytes packed without padding; a byte above 0x3F faults (R368). -/
def pck6Act (f : Fn) (e : Env) : Except FCode Act :=
  let a := srcPk .n8 e.a
  if !(a.lanes.length == 4 || a.lanes.length == 8) || !ownLenOk a then .error .pkLen
  else if !hasTy .n8 a then .error .fmt
  else
    let vs := laneVals .n8 a.lanes
    if vs.any (fun v => decide (63 < v)) then .error .bounds
    else .ok { out := some (resPk e.a (fnTy f) (packVals (fnTy f) vs)) }

/-- Is an encoding a zero of its type (R123, R367). -/
def zeroEnc (t : Ty) (x : Nat) : Bool :=
  match t with
  | .f32 => x % 2 ^ 31 == 0
  | .h16 | .bf16 => x % 2 ^ 15 == 0
  | .mx6e2 | .mx6e3 => x % 32 == 0
  | .mx4 => x % 8 == 0
  | _ => x == 0

/-- NZC: the number of nonzero encodings, or their map (R367). -/
def nzcAct (f : Fn) (e : Env) : Except FCode Act :=
  let ty := srcTy f e.a e.b
  let t := ty.getD .n32
  let a := litPk (readTy f t e.a) e.a
  if !ownLenOk a then .error .pkLen
  else if ty.isNone || t == .any || !hasTy t a then .error .fmt
  else
    let bits := (laneVals t a.lanes).map (fun x => if zeroEnc t x then 0 else 1)
    let ls := if fnSub f == 1 then natLanes ((bits.length + 31) / 32) (valsBits 1 bits)
      else [BitVec.ofNat 32 (bits.foldl (· + ·) 0)]
    .ok { out := some { resPk e.a .n32 ls with sc := false, sce := 0 } }

/-- One accumulator read as a value of a type (R315). -/
def accRead (e : Env) (t : Ty) (r : Rnd) (x : Acc) : Nat × BitVec 32 :=
  if tyIsInt t then satRes t (accInt x) else roundTy t { rnd := r } e.ftz e.inf8 (a96Val x)

/-- ABRD (R315). -/
def abrdAct (f : Fn) (e : Env) : Except FCode Act := do
  let v ← control 0x1FF e.a
  let n := v % 64
  let c := v / 64 + 1
  let t := fnTy f
  if (tyIs64 t && 4 < c) || 64 < n + c || e.node then .error .bounds
  else
    let rs := (List.range c).map (fun i => accRead e t (fnRnd e f) (PMap.get e.accs (n + i)))
    pure { out := some (packRes e.a t (rs.map (·.1))), flags := rs.foldl (fun fl x => fl ||| x.2) 0 }

/-- One accumulator written or added to from a value of a type (R317). -/
def accWrite (e : Env) (t : Ty) (add : Bool) (old : Acc) (x : Nat) : Acc × BitVec 32 :=
  if tyIsInt t then
    intAcc (if add then accInt old + ival t x else ival t x)
  else
    let v := fv e t x
    if add then
      let s := fAdd false (a96Val old) v
      let r := a96Round s.1
      (r.1, r.2 ||| flagIf s.2 esNV)
    else a96Round v

/-- ABWR (R317). -/
def abwrAct (f : Fn) (e : Env) : Except FCode Act :=
  let t := fnTy f
  let a := litPk t e.a
  let b := litPk t e.b
  if a.lanes.length != 1 || !ownLenOk b then .error .pkLen
  else if !hasTy .n32 a || !tySetHas .acc t || !hasTy t b then .error .fmt
  else if a.sc || b.sc then .error .scaleTag
  else do
    let n ← controlAs t 0x3F e.a
    let vs := laneVals t b.lanes
    if 64 < n + vs.length || e.node then .error .bounds
    else
      let rs := (List.range vs.length).map (fun i =>
        (n + i, accWrite e t (fnSub f == 1) (PMap.get e.accs (n + i)) (vs.getD i 0)))
      pure { out := some (word32 e.a (n + vs.length)), acc := rs.map (fun r => (r.1, r.2.1)),
             flags := rs.foldl (fun fl r => fl ||| r.2.2) 0 }

end Sys2Proof.Machine
end

