-- ==== Sys2Proof/Machine/Quant.lean ====
section
/-! DEFINITION. The meanings of the dot-product, quantising and accumulator instructions. What each computes stands in QuantAct.lean. -/

namespace Sys2Proof.Machine

/-- DOT (R336). -/
def execDot (o : Slot) (f : Fn) (s : State) : Host.Outcome State Fault Refusal := fire o f dotAct s

/-- AMAX (R320). -/
def execAmax (o : Slot) (f : Fn) (s : State) : Host.Outcome State Fault Refusal := fire o f amaxAct s

/-- SCLX (R389). -/
def execSclx (o : Slot) (f : Fn) (s : State) : Host.Outcome State Fault Refusal := fire o f sclxAct s

/-- QNT (R380). -/
def execQnt (o : Slot) (f : Fn) (s : State) : Host.Outcome State Fault Refusal := fire o f qntAct s

/-- DQNT (R337). -/
def execDqnt (o : Slot) (f : Fn) (s : State) : Host.Outcome State Fault Refusal := fire o f dqntAct s

/-- SCLM (R388). -/
def execSclm (o : Slot) (f : Fn) (s : State) : Host.Outcome State Fault Refusal := fire o f sclmAct s

/-- UNP6 (R406). -/
def execUnp6 (o : Slot) (f : Fn) (s : State) : Host.Outcome State Fault Refusal := fire o f unp6Act s

/-- PCK6 (R368). -/
def execPck6 (o : Slot) (f : Fn) (s : State) : Host.Outcome State Fault Refusal := fire o f pck6Act s

/-- NZC (R367). -/
def execNzc (o : Slot) (f : Fn) (s : State) : Host.Outcome State Fault Refusal := fire o f nzcAct s

/-- ABRD (R315). -/
def execAbrd (o : Slot) (f : Fn) (s : State) : Host.Outcome State Fault Refusal := fire o f abrdAct s

/-- ABWR (R317). -/
def execAbwr (o : Slot) (f : Fn) (s : State) : Host.Outcome State Fault Refusal := fire o f abwrAct s

end Sys2Proof.Machine
end

