-- ==== Sys2Proof/Machine/Spdm.lean ====
section
/-! DEFINITION. The responder of a die and what the root does with its answers (R249 to R255, R261). An event is one request of the
root together with its answer and the root's check of it. Signatures are checked outside the machine: the event says whether they
verify. Request and error codes are those of SPDM 1.3. -/

namespace Sys2Proof.Machine

/-- Does the responder of a die run: stage 2 has been reached and the die is not being reset (R254)? -/
def State.responds (s : State) (u : UnitId) : Bool :=
  s.unitOk u && dasState (s.unit u) != 0 && dasState (s.unit u) != 5

def State.modSpdm (s : State) (u : UnitId) (f : Spdm → Spdm) : State := s.modUnit u (fun x => { x with spdm := f x.spdm })

/-- Bytes of a message put at the end of a die's transcript (R250). -/
def Spdm.heard (x : Spdm) (bs : List Byte) : Spdm := { x with transcript := x.transcript ++ bs }

/-- A response on its way to the root, kept in the transcript (R250) (log 19: DESIGN CHOICE). -/
def State.spdmReply (s : State) (u : UnitId) (code : Nat) (body : List Byte) : State :=
  (s.modSpdm u (fun x => x.heard (valBytes 1 code ++ body))).emit (.spdm u code body)

/-- ERROR with its code: 4 UnexpectedRequest, 6 DecryptError, 7 UnsupportedRequest. The die's state does not change (log 93: PRESUMED). -/
def State.spdmError (s : State) (u : UnitId) (code : Nat) : State := s.emit (.spdm u 0x7F (valBytes 1 code))

/-- A message of the secured session counted (R250). -/
def Spdm.counted (x : Spdm) : Spdm := if x.session then { x with msgs := x.msgs + 1 } else x

/-- A request by its code and parameters, at version 1.3, of a die whose responder runs, in the order that SPDM 1.3 gives requests: where `ready` fails,
UnexpectedRequest. It enters the transcript. In a secured session it counts, and past 2^20 messages the root sends a KEY_UPDATE first
(R250) (log 93: PRESUMED). -/
def State.spdmAsk (s : State) (u : UnitId) (req : List Byte) (ready : Spdm → Bool) (f : State → State) : State :=
  let x := (s.unit u).spdm
  if !(s.responds u) || (x.session && 2 ^ 20 ≤ x.msgs) then s
  else if ready x then f (s.modSpdm u (fun x => x.counted.heard req)) else s.spdmError u 4

/-- An answer with a nonce and a signature by the die's secret key, sk[2], over the transcript up to it (R247, R250)
(log 19: DESIGN CHOICE). -/
def State.sealed (s : State) (u : UnitId) (code : Nat) (body : List Byte) : State :=
  let text := body ++ wordBytes (Config.secret s.draws)
  (s.spdmReply u code (text ++ Config.sign (s.unit u).sk ((s.unit u).spdm.transcript ++ valBytes 1 code ++ text))).drawn

/-- The secret of an exchange and the transcript become the session's key (R250, R251). -/
def Spdm.sessionKey (x : Spdm) : BitVec 256 := Config.shake256 (wordBytes x.secret ++ x.transcript)

/-- The root's certificate chain: that of the port die that holds the root (R249, R250). -/
def State.rootChain (s : State) : List Byte := (s.ident (idPort s.panel.root.port)).certChain

/-- MEASURED to ATTESTED, once the chain, the CHALLENGE and the measurements have passed (R254). -/
def State.attest (s : State) (u : UnitId) : State :=
  let x := (s.unit u).spdm
  if dasState (s.unit u) == 1 && x.chain && x.challenged && x.measured then (s.dieTo u 2 0).maybeActive u else s

/-- GET_VERSION (R250). A die in RESETTING has been scrubbed by now and goes to DARK; a die in DARK that may boot runs stage 2 and
answers (R254, R261 steps 3 and 4) (log 93: PRESUMED; log 94: DEDUCED). -/
def execGetVersion (u : UnitId) (s : State) : Host.Outcome State Fault Refusal :=
  let st := dasState (s.unit u)
  if !(s.unitOk u) then .next s
  else if st == 5 then .next (s.endReset u)
  else if st == 0 && !(s.bootable u) then .next s
  else
    let s := if st == 0 then s.bootDie u else s
    .next ((s.modSpdm u (fun x => { x with version := true, caps := false, algs := false, exchange := false, transcript := [0x84] })).spdmReply u 4
      (valBytes 2 0x1300))

/-- GET_CAPABILITIES (R250): the message size. -/
def execGetCapabilities (u : UnitId) (s : State) : Host.Outcome State Fault Refusal :=
  .next (s.spdmAsk u [0xE1] (fun x => x.version) (fun s => (s.modSpdm u (fun x => { x with caps := true })).spdmReply u 0x61 (valBytes 4 4096)))

/-- NEGOTIATE_ALGORITHMS (R251): a field with no acceptable choice is answered with UnexpectedRequest. -/
def execNegotiateAlgorithms (u : UnitId) (o : SpdmOffer) (s : State) : Host.Outcome State Fault Refusal :=
  .next (s.spdmAsk u [0xE3] (fun x => x.caps) (fun s =>
    if o.hash && o.measHash && o.aead && o.sched && o.asym && o.kex then
      (s.modSpdm u (fun x => { x with algs := true })).spdmReply u 0x63 (valBytes 2 1 ++ valBytes 2 2)
    else s.spdmError u 4))

/-- GET_DIGESTS, slot 0 only (R250). -/
def execGetDigests (u : UnitId) (cslot : Nat) (s : State) : Host.Outcome State Fault Refusal :=
  .next (s.spdmAsk u (0x81 :: valBytes 1 cslot) (fun x => x.algs) (fun s => if cslot == 0 then s.spdmReply u 1 (wordBytes (Config.sha384 (s.unit u).certChain)) else s.spdmError u 7))

/-- The bytes of the chain that one GET_CERTIFICATE gets: 4,096 less the 8 bytes of the answer's own head (log 93: PRESUMED). -/
def chainPiece (chain : List Byte) (off len : Nat) : List Byte := (chain.drop off).take (min len 4088)

/-- GET_CERTIFICATE, slot 0 only, at most 4,096 bytes a message (R250): a piece of the chain, by offset and length, with the lengths of
the piece and of what follows it. The chain has been read once the pieces read from its start on reach its end. -/
def execGetCertificate (u : UnitId) (cslot off len : Nat) (s : State) : Host.Outcome State Fault Refusal :=
  .next (s.spdmAsk u (0x82 :: (valBytes 1 cslot ++ valBytes 2 off ++ valBytes 2 len)) (fun x => x.algs) (fun s =>
    if cslot == 0 then
      let chain := (s.unit u).certChain
      let ps := chainPiece chain off len
      let got (x : Spdm) : Nat := if off ≤ x.got then max x.got (off + ps.length) else x.got
      (s.modSpdm u (fun x => { x with got := got x, chain := x.chain || chain.length ≤ got x })).spdmReply u 2
        (valBytes 2 ps.length ++ valBytes 2 (chain.length - (off + ps.length)) ++ ps)
    else s.spdmError u 7))

/-- CHALLENGE (R250): a signature that does not verify quarantines the die (R254, R260). The root makes none during a takeover
(R249) (log 93: PRESUMED). -/
def execChallenge (u : UnitId) (sigOk : Bool) (s : State) : Host.Outcome State Fault Refusal :=
  .next (if s.panel.root.takeover then s else s.spdmAsk u [0x83] (fun x => x.algs) (fun s =>
    let s := s.sealed u 3 []
    if sigOk then (s.modSpdm u (fun x => { x with challenged := true })).attest u else s.quarantine u 2))

/-- GET_MEASUREMENTS (R252): a signature that does not verify, or blocks outside the policy, quarantine the die (R254, R260). -/
def execGetMeasurements (u : UnitId) (sigOk : Bool) (s : State) : Host.Outcome State Fault Refusal :=
  .next (if s.panel.root.takeover then s else s.spdmAsk u [0xE0] (fun x => x.algs) (fun s =>
    let s := s.sealed u 0x60 (s.blocks u).flatten
    if !sigOk then s.quarantine u 2
    else if !(s.policyMet u) then s.quarantine u 1
    else (s.modSpdm u (fun x => { x with measured := true })).attest u))

/-- KEY_EXCHANGE (R250, R251): the root sends a fresh ML-KEM-768 encapsulation key; the die answers with the ciphertext, signed, and
keeps the shared secret. -/
def execKeyExchange (u : UnitId) (s : State) : Host.Outcome State Fault Refusal :=
  let ek := Config.encapsulationKey s.draws
  .next (s.spdmAsk u (0xE4 :: ek) (fun x => x.algs) (fun s =>
    let x := Config.encapsulate ek s.draws
    (s.modSpdm u (fun y => { y with exchange := true, secret := x.2 })).sealed u 0x64 x.1))

/-- FINISH (R250, R254): the root authenticated by its own chain, the secured session opens under a key of the exchange, or a die not yet
ACTIVE is quarantined (log 19: DESIGN CHOICE; log 93: PRESUMED). -/
def execFinish (u : UnitId) (ok : Bool) (s : State) : Host.Outcome State Fault Refusal :=
  .next (s.spdmAsk u (0xE5 :: s.rootChain) (fun x => x.exchange) (fun s =>
    if ok then
      ((s.modSpdm u (fun x => { x with
        exchange := false, session := true, msgs := 0, key := x.sessionKey, rootChain := s.rootChain })).spdmReply u 0x65 []).maybeActive u
    else
      let s := (s.modSpdm u (fun x => { x with exchange := false })).spdmError u 6
      if dasState (s.unit u) == 3 then s else s.quarantine u 2))

/-- KEY_UPDATE (R250): the session's key is updated, and the count of secured messages starts again. -/
def execKeyUpdate (u : UnitId) (s : State) : Host.Outcome State Fault Refusal :=
  .next (if !(s.responds u) then s else if !(s.unit u).spdm.session then s.spdmError u 4
    else (s.modSpdm u (fun x => { x with msgs := 0, key := Config.shake256 (wordBytes x.key ++ asciiBytes "UPDATE") })).spdmReply u 0x69 [])

/-- END_SESSION: sent only before a reset, which follows (R250, R261 step 2) (log 94: DEDUCED). -/
def execEndSession (u : UnitId) (s : State) : Host.Outcome State Fault Refusal :=
  .next (s.spdmAsk u [0xEC] (fun _ => dasState (s.unit u) == 3 || dasState (s.unit u) == 4) (fun s => (s.spdmReply u 0x6C []).startReset u))

/-- Any other request, one at another version among them (R250) (log 93: PRESUMED). -/
def execSpdmUnsupportedRequest (u : UnitId) (_code : Byte) (s : State) : Host.Outcome State Fault Refusal :=
  .next (if s.responds u then s.spdmError u 7 else s)

end Sys2Proof.Machine
end

