-- ==== Sys2Proof/Machine/Trls.lean ====
section
/-! DEFINITION. TRLS as this panel receives it (R264, R265): requests of other panels served here, answers to this panel's own
requests, acknowledgements, retransmission, and keys. The payloads have
the layout of Stream, which is the model's. -/

namespace Sys2Proof.Machine

/-! Streams. -/

/-- Does number a come after b, modulo 2^32? -/
def after (a b : Nat) : Bool := let d := (a + 2 ^ 32 - b % 2 ^ 32) % 2 ^ 32; d != 0 && d < 2 ^ 31

/-- A request of this panel answered by another (R170, R264): a load takes the data, an atomic the old value, a write is done. -/
def Req.far (q : Req) (code : Nat) (data : List Byte) : Req :=
  match FCode.all.find? (fun c => c.num == code) with
  | some c => q.fail c
  | none =>
    match q.op with
    | .load t => { q with phase := .resp, res := some (loadPk q t data) }
    | .atomic sub sg _ _ b p =>
      let old := bytesVal (data.take q.size)
      { q with phase := .resp, res := some { q.ret.hdr with lanes := natLanes (q.size / 4) old },
               flags := (atomNew sub sg q.size old b p).2 }
    | _ => q.done

/-- A launch's dependence on a word of another panel is met, and stays met (R46). -/
def State.depReached (s : State) (pid lnch : Nat) (q : Req) : State :=
  match q.op with
  | .sywch g => s.modLaunch pid lnch (fun l => { l with deps := l.deps.filter (fun d => d != (remoteKey q.gpa, g)) })
  | _ => s

/-- A region's prefetch lines updated by an atomic that another panel has done (R156). -/
def State.farAtomic (s : State) (q : Req) (data : List Byte) : State :=
  match q.op with
  | .atomic sub sg _ _ b p =>
    s.postLines { q with data := valBytes q.size (atomNew sub sg q.size (bytesVal (data.take q.size)) b p).1 }
  | _ => s

/-- An answer given to what waits for it in a saved context (R173): a request, or a copy job, whose fault it raises once restored. -/
def Saved.farAnswer (c : Saved) (tag g code : Nat) (data : List Byte) : Saved :=
  match c.reqs.find? (fun q => q.phase == .remote && q.id % 2 ^ 31 == tag) with
  | some q =>
    if code == 0 && q.who != .firing then { c with reqs := c.reqs.filter (fun x => x.id != q.id) }
    else
      let c := match q.op with
        | .atomic sub sg _ _ b p =>
          if code != 0 then c
          else { c with regions := c.regions.modify q.ret.rk (fun x =>
            x.putFar q.gpa (valBytes q.size (atomNew sub sg q.size (bytesVal (data.take q.size)) b p).1)) }
        | _ => c
      { c with reqs := c.reqs.map (fun x => if x.id == q.id then q.far code data else x) }
  | none =>
    let one (j : Job) : Job :=
      if jobTag j.id != tag then j
      else match FCode.all.find? (fun x => x.num == code) with
        | some x => { j with late := some (x, g) }
        | none => if j.asked.contains g then { j with got := j.got ++ [(g, data)] } else j
    { c with jobs := c.jobs.map one }

/-- An answer given to what waits for it: a request, or a copy job, which stops on a fault (R181); in a saved context too (R173). -/
def State.farAnswer (s : State) (tag g code : Nat) (data : List Byte) : State :=
  match s.reqs.find? (fun q => q.phase == .remote && q.id % 2 ^ 31 == tag) with
  | some q =>
    match q.who with
    | .firing => (if code == 0 then s.farAtomic q data else s).setReq q.id (q.far code data)
    | .host _ _ _ => s.setReq q.id (q.far code data)
    | .dependence pid lnch => (if code == 0 then s.depReached pid lnch q else s).dropReq q.id
    | _ =>
    if code == 0 then s.dropReq q.id
    else s.setReq q.id (q.far code data)
  | none =>
    match FCode.all.find? (fun c => c.num == code), s.jobs.find? (fun j => jobTag j.id == tag) with
    | some c, some j => s.jobFault j c (s.jobVa j g)
    | none, some j => if j.asked.contains g then s.setJob { j with got := j.got ++ [(g, data)] } else s
    | _, none => s.mapSaved (fun c => c.farAnswer tag g code data)

/-- A STORE acknowledged: its request is done unless an answer has failed it (R170, R265). -/
def State.ackStore (s : State) (bs : List Byte) : State :=
  if bytesAt bs 0 1 % 16 == 1 then s.farAnswer (bytesAt bs 32 4) (bytesAt bs 24 8) 0 [] else s

/-- A cumulative acknowledgement: every packet up to a number is taken (R264, R265) (log 101: DEDUCED). -/
def State.trlsAcked (s : State) (panel n apsn : Nat) : State :=
  let x := s.stream panel n
  let gone := x.unacked.filter (fun p => !(after p.1 apsn))
  if gone.isEmpty then s
  else
    let s := s.modStream panel n (fun y => { y with unacked := y.unacked.filter (fun p => after p.1 apsn), retx := 0 })
    gone.foldl (fun s p => s.ackStore p.2) s

/-- A stream that has failed: F_LINK against every requester with a request outstanding on it; the pair is unreachable (R265)
(log 101: DEDUCED). -/
def State.streamFailed (s : State) (panel n : Nat) : State :=
  let mine (q : Req) : Bool := q.phase == .remote && gpaPanel q.gpa == panel && trlsStream q.gpa == n
  let js := (s.stream panel n).unacked.map (fun p => (bytesAt p.2 32 4, bytesAt p.2 24 8))
  let s := s.modStream panel n (fun x => { x with down := true, unacked := [] })
  let hit (j : Job) : Option Nat := match js.find? (fun x => x.1 == jobTag j.id) with
    | some x => some x.2
    | none => j.asked.find? (fun g => !(j.got.any (fun x => x.1 == g)) && gpaPanel g == panel && trlsStream g == n)
  let s := s.jobs.foldl (fun s j => match hit j with | some g => s.jobFault j .link (s.jobVa j g) | none => s) s
  let lose (q : Req) : Req := if mine q then q.lost else q
  let stop (j : Job) : Job := match hit j with | some g => { j with late := some (.link, g) } | none => j
  ({ s with reqs := s.reqs.map lose } : State).mapSaved (fun c => { c with reqs := c.reqs.map lose, jobs := c.jobs.map stop })

/-- Retransmission from a number on; the 17th fails the stream (R265). -/
def State.resend (s : State) (panel n psn : Nat) : State :=
  let x := s.stream panel n
  let ps := x.unacked.filter (fun p => !(after psn p.1))
  if ps.isEmpty || x.down then s
  else if 16 ≤ x.retx then s.streamFailed panel n
  else ps.foldl (fun s p => s.trlsEmit panel n p.2) (s.modStream panel n (fun y => { y with retx := y.retx + 1 }))

/-- TRLS_RETRANSMIT_TIMEOUT: 50 µs without an acknowledgement (R265) (log 13: DEDUCED). -/
def execTrlsRetransmitTimeout (panel stream : Nat) (s : State) : Host.Outcome State Fault Refusal :=
  match (s.stream panel stream).unacked with
  | [] => .next s
  | p :: _ => .next (s.resend panel stream p.1)

/-! Packets received. -/

/-- Is a packet one of an open session: from its panel, to this one, under the receive key (R264)? -/
def State.trlsOurs (s : State) (h : TrlsHdr) : Bool :=
  let x := s.panel.root.sessions.get h.spanel.toNat
  h.dpanel == s.panel.root.panelNo && h.spanel != s.panel.root.panelNo && x.isOpen && h.kgen == x.krx && h.stream.toNat < 16

/-- A packet with a place in its stream (R265): taken in order and acknowledged; one seen before is acknowledged again; a gap is
answered with NAK and the number expected. One that would need an answer on a stream that must first be rekeyed is not taken
(log 101: DEDUCED). -/
def State.trlsTake (s : State) (h : TrlsHdr) (f : State → State) : State :=
  let panel := h.spanel.toNat
  let n := h.stream.toNat
  if !(s.trlsOurs h) || s.streamFull panel n then s
  else
    let s := s.trlsAcked panel n h.apsn.toNat
    let e := (s.stream panel n).expect
    if h.psn.toNat == e % 2 ^ 32 then
      (f (s.modStream panel n (fun x => { x with expect := e + 1 }))).trlsControl panel n 5 0
    else if after h.psn.toNat e then s.trlsControl panel n 6 e
    else s.trlsControl panel n 5 0

/-- The kind of operation, the VF, the size, the operands and the data of a request's payload (log 59: DESIGN CHOICE). -/
def payTag (h : TrlsHdr) : Nat := bytesAt h.payload 0 4
def paySize (h : TrlsHdr) : Nat := bytesAt h.payload 4 1
def payVf (h : TrlsHdr) : Nat := bytesAt h.payload 5 1 % 64
def payKind (h : TrlsHdr) : Nat := bytesAt h.payload 6 1
def payB (h : TrlsHdr) : Nat := bytesAt h.payload 8 8
def payP (h : TrlsHdr) : Nat := bytesAt h.payload 16 8

/-- The key of a request of another panel here: the states of the port die, of its attached die and of the dies from there on, then
stage 2 of the VF (R145). -/
def State.farKey (s : State) (vf g n : Nat) (need : Rights) : Except FCode Nat :=
  let p := s.portFor g
  let src := s.portEntry p
  if s.isRemote g then .error .xlat
  else if !(s.isActive (idPort p)) || !(s.routeOk src g) then .error .quarantine
  else if !(s.attachOpen src) || !(s.lineOk src g) then .error .link
  else
    match s.stage2 vf g need with
    | .error c => .error c
    | .ok a => if s.eccBad a n then .error .ecc else .ok a

/-- A request of another panel served here: a fault is answered with its code. -/
def State.serveIn (s : State) (h : TrlsHdr) (need : Rights) (f : State → Nat → State) : State :=
  match s.farKey (payVf h) h.gpa.toNat (paySize h) need with
  | .error c => s.drawn.trlsAnswer h.spanel.toNat h.stream.toNat (payTag h) h.gpa.toNat c.num []
  | .ok a => f s.drawn a

/-- The answer of a request served here. -/
def State.answerIn (s : State) (h : TrlsHdr) (code : Nat) (data : List Byte) : State :=
  s.trlsAnswer h.spanel.toNat h.stream.toNat (payTag h) h.gpa.toNat code data

/-- TRLS_LOAD (R264, R138). -/
def execTrlsLoad (h : TrlsHdr) (s : State) : Host.Outcome State Fault Refusal :=
  .next (s.trlsTake h (fun s => s.serveIn h needRead (fun s a =>
    if s.marked a (paySize h) then s.answerIn h FCode.align.num [] else s.answerIn h 0 (memBytes s.mem a (paySize h)))))

/-- TRLS_STORE: the acknowledgement answers it, a fault is answered first (R264, R138). -/
def execTrlsStore (h : TrlsHdr) (s : State) : Host.Outcome State Fault Refusal :=
  .next (s.trlsTake h (fun s => s.serveIn h needWrite (fun s a =>
    if s.marked a (paySize h) then s.answerIn h FCode.align.num [] else s.putHome a ((h.payload.drop 24).take (paySize h)))))

/-- A sync-word operation of another panel put before its word. -/
def State.waitIn (s : State) (h : TrlsHdr) (op : ReqOp) (a : Nat) : State :=
  let q : Req := { id := s.nextId, op := op, who := .remote h.spanel.toNat h.stream.toNat (payTag h) (payKind h == 18), ret := { rk := farRegion },
                   gpa := h.gpa.toNat, size := 16, phase := .wait, word := a }
  ({ s with reqs := s.reqs ++ [q] } : State).fresh

/-- TRLS_ATOMIC: an ATG, an SYA or an SYWCH of another panel (R264, R400). -/
def execTrlsAtomic (h : TrlsHdr) (s : State) : Host.Outcome State Fault Refusal :=
  .next (s.trlsTake h (fun s =>
    if payKind h == 16 then
      s.serveIn h needSync (fun s a =>
        match syaCheck a (payB h) (payP h % 256) (payP h / 256) with
        | some c => s.answerIn h c.num []
        | none => s.waitIn h (.sya (payB h) (payP h % 256) (payP h / 256)) a)
    else if payKind h == 17 then
      s.serveIn h needRead (fun s a =>
        if !(s.marked a 16) then s.answerIn h FCode.align.num []
        else if s.wordMet a (payB h) then s.answerIn h 0 [] else s.waitIn h (.sywch (payB h)) a)
    else
      s.serveIn h needAtomic (fun s a =>
        if s.marked a (paySize h) then s.answerIn h FCode.align.num []
        else
          let old := bytesVal (memBytes s.mem a (paySize h))
          let x := atomNew (payKind h % 128) (128 ≤ payKind h) (paySize h) old (payB h) (payP h)
          (s.putHome a (valBytes (paySize h) x.1)).answerIn h 0 (valBytes (paySize h) old))))

/-- TRLS_SYNCADD: an increment from another panel (R139, R264). -/
def execTrlsSyncadd (h : TrlsHdr) (s : State) : Host.Outcome State Fault Refusal :=
  .next (s.trlsTake h (fun s => s.serveIn h needSync (fun s a =>
    if s.marked a 16 then s.waitIn h (.syadd (payB h)) a else s.answerIn h FCode.align.num [])))

/-- TRLS_DATA: the answer to a request of this panel (R264). -/
def execTrlsData (h : TrlsHdr) (s : State) : Host.Outcome State Fault Refusal :=
  .next (s.trlsTake h (fun s => s.farAnswer (payTag h) h.gpa.toNat (bytesAt h.payload 4 1) (h.payload.drop 8)))

/-- TRLS_ACK (R264, R265). -/
def execTrlsAck (h : TrlsHdr) (s : State) : Host.Outcome State Fault Refusal :=
  .next (if s.trlsOurs h then s.trlsAcked h.spanel.toNat h.stream.toNat h.apsn.toNat else s)

/-- TRLS_NAK: retransmission from the number expected (R265). -/
def execTrlsNak (h : TrlsHdr) (s : State) : Host.Outcome State Fault Refusal :=
  .next (if s.trlsOurs h then
      (s.trlsAcked h.spanel.toNat h.stream.toNat (h.psn.toNat + 2 ^ 32 - 1)).resend h.spanel.toNat h.stream.toNat h.psn.toNat
    else s)

/-! Keys. -/

/-- TRLS_KEYSWITCH: later packets from the panel come under the next generation, numbered from 0 (R264, R265) (log 101: DEDUCED). -/
def execTrlsKeyswitch (h : TrlsHdr) (s : State) : Host.Outcome State Fault Refusal :=
  .next (if s.trlsOurs h then
      ((s.modRoot (fun x => { x with sessions := x.sessions.modify h.spanel.toNat (fun y => { y with
        krx := y.krx + 1, rkey := Config.sessionKey s.draws }) })).modStreams h.spanel.toNat (fun x => { x with expect := 0 })).drawn
    else s)

/-- TRLS_UNDEFINED_OP: discarded and counted (R264). -/
def execTrlsUndefinedOp (_opc : BitVec 4) (_h : TrlsHdr) (s : State) : Host.Outcome State Fault Refusal :=
  .next (s.modRoot (fun x => { x with undef := x.undef + 1 }))

/-- A session opened by KEY_EXCHANGE, the lower panel number its requester (R264). -/
def State.newSession (s : State) (panel : Nat) : Session :=
  { isOpen := true, asker := s.panel.root.panelNo.toNat < panel, tkey := Config.sessionKey s.draws, rkey := Config.sessionKey (s.draws + 1) }

/-- TRLS_REKEY: the roots run KEY_EXCHANGE. With no session, or after a failure, one opens at generation 0; else the transmit key
rolls once every packet is acknowledged, with KEYSWITCH, and packets are numbered from 0 (R264, R265). A session needs a peer entry
(R267) (log 101: DEDUCED). -/
def execTrlsRekey (panel : Nat) (s : State) : Host.Outcome State Fault Refusal :=
  let x := s.panel.root.sessions.get panel
  if s.panel.root.takeover || (s.panel.root.peers.get panel).isEmpty || 1024 ≤ panel then .next s
  else if !x.isOpen || !(s.reachable panel) then
    .next (((s.modRoot (fun y => { y with sessions := y.sessions.set panel (s.newSession panel) })).modStreams panel (fun _ => {})).drawn).drawn
  else .next (if s.pairBusy panel then s else s.rollKeys panel)

end Sys2Proof.Machine
end

