-- ==== Sys2Proof/Machine/Dispatch.lean ====
section
/-! DEFINITION. The meaning of each instruction, one arm a constructor. -/

namespace Sys2Proof.Machine

def exec (i : Instr) (s : State) : Host.Outcome State Fault Refusal :=
  match i with
  | .add o f => Sys2Proof.Machine.execAdd o f s
  | .adds o f => Sys2Proof.Machine.execAdds o f s
  | .sub o f => Sys2Proof.Machine.execSub o f s
  | .subs o f => Sys2Proof.Machine.execSubs o f s
  | .mul o f => Sys2Proof.Machine.execMul o f s
  | .mulh o f => Sys2Proof.Machine.execMulh o f s
  | .mulw o f => Sys2Proof.Machine.execMulw o f s
  | .mad o f => Sys2Proof.Machine.execMad o f s
  | .madw o f => Sys2Proof.Machine.execMadw o f s
  | .neg o f => Sys2Proof.Machine.execNeg o f s
  | .abs o f => Sys2Proof.Machine.execAbs o f s
  | .min o f => Sys2Proof.Machine.execMin o f s
  | .max o f => Sys2Proof.Machine.execMax o f s
  | .clamp o f => Sys2Proof.Machine.execClamp o f s
  | .and o f => Sys2Proof.Machine.execAnd o f s
  | .or o f => Sys2Proof.Machine.execOr o f s
  | .xor o f => Sys2Proof.Machine.execXor o f s
  | .andn o f => Sys2Proof.Machine.execAndn o f s
  | .not o f => Sys2Proof.Machine.execNot o f s
  | .shl o f => Sys2Proof.Machine.execShl o f s
  | .shr o f => Sys2Proof.Machine.execShr o f s
  | .sar o f => Sys2Proof.Machine.execSar o f s
  | .rotl o f => Sys2Proof.Machine.execRotl o f s
  | .clz o f => Sys2Proof.Machine.execClz o f s
  | .ctz o f => Sys2Proof.Machine.execCtz o f s
  | .popc o f => Sys2Proof.Machine.execPopc o f s
  | .brev o f => Sys2Proof.Machine.execBrev o f s
  | .bfx o f => Sys2Proof.Machine.execBfx o f s
  | .bfi o f => Sys2Proof.Machine.execBfi o f s
  | .cmp o f => Sys2Proof.Machine.execCmp o f s
  | .sel o f => Sys2Proof.Machine.execSel o f s
  | .qdiv o f => Sys2Proof.Machine.execQdiv o f s
  | .fadd o f => Sys2Proof.Machine.execFadd o f s
  | .fsub o f => Sys2Proof.Machine.execFsub o f s
  | .fmul o f => Sys2Proof.Machine.execFmul o f s
  | .fma o f => Sys2Proof.Machine.execFma o f s
  | .fnma o f => Sys2Proof.Machine.execFnma o f s
  | .fmin o f => Sys2Proof.Machine.execFmin o f s
  | .fmax o f => Sys2Proof.Machine.execFmax o f s
  | .fabs o f => Sys2Proof.Machine.execFabs o f s
  | .fneg o f => Sys2Proof.Machine.execFneg o f s
  | .fcmp o f => Sys2Proof.Machine.execFcmp o f s
  | .fclass o f => Sys2Proof.Machine.execFclass o f s
  | .frnd o f => Sys2Proof.Machine.execFrnd o f s
  | .fcvt o f => Sys2Proof.Machine.execFcvt o f s
  | .fscl o f => Sys2Proof.Machine.execFscl o f s
  | .fexpn o f => Sys2Proof.Machine.execFexpn o f s
  | .frcp o f => Sys2Proof.Machine.execFrcp o f s
  | .frsq o f => Sys2Proof.Machine.execFrsq o f s
  | .fsqrt o f => Sys2Proof.Machine.execFsqrt o f s
  | .fdiv o f => Sys2Proof.Machine.execFdiv o f s
  | .fexp2 o f => Sys2Proof.Machine.execFexp2 o f s
  | .flog2 o f => Sys2Proof.Machine.execFlog2 o f s
  | .fsin o f => Sys2Proof.Machine.execFsin o f s
  | .fcos o f => Sys2Proof.Machine.execFcos o f s
  | .fsncs o f => Sys2Proof.Machine.execFsncs o f s
  | .ficv o f => Sys2Proof.Machine.execFicv o f s
  | .pkspl o f => Sys2Proof.Machine.execPkspl o f s
  | .pkmrg o f => Sys2Proof.Machine.execPkmrg o f s
  | .pklenGet o f => Sys2Proof.Machine.execPklenGet o f s
  | .pklenSet o f => Sys2Proof.Machine.execPklenSet o f s
  | .lswap o f => Sys2Proof.Machine.execLswap o f s
  | .lperm o f => Sys2Proof.Machine.execLperm o f s
  | .lbcast o f => Sys2Proof.Machine.execLbcast o f s
  | .lext o f => Sys2Proof.Machine.execLext o f s
  | .lins o f => Sys2Proof.Machine.execLins o f s
  | .lred o f => Sys2Proof.Machine.execLred o f s
  | .lscan o f => Sys2Proof.Machine.execLscan o f s
  | .eofm o f => Sys2Proof.Machine.execEofm o f s
  | .dot o f => Sys2Proof.Machine.execDot o f s
  | .amax o f => Sys2Proof.Machine.execAmax o f s
  | .sclx o f => Sys2Proof.Machine.execSclx o f s
  | .qnt o f => Sys2Proof.Machine.execQnt o f s
  | .dqnt o f => Sys2Proof.Machine.execDqnt o f s
  | .sclm o f => Sys2Proof.Machine.execSclm o f s
  | .unp6 o f => Sys2Proof.Machine.execUnp6 o f s
  | .pck6 o f => Sys2Proof.Machine.execPck6 o f s
  | .nzc o f => Sys2Proof.Machine.execNzc o f s
  | .abrd o f => Sys2Proof.Machine.execAbrd o f s
  | .abwr o f => Sys2Proof.Machine.execAbwr o f s
  | .fwd o f => Sys2Proof.Machine.execFwd o f s
  | .steer o f => Sys2Proof.Machine.execSteer o f s
  | .mrg o f => Sys2Proof.Machine.execMrg o f s
  | .splt o f => Sys2Proof.Machine.execSplt o f s
  | .join o f => Sys2Proof.Machine.execJoin o f s
  | .seqtCnt o f => Sys2Proof.Machine.execSeqtCnt o f s
  | .seqtSet o f => Sys2Proof.Machine.execSeqtSet o f s
  | .seqtGet o f => Sys2Proof.Machine.execSeqtGet o f s
  | .bnd o f => Sys2Proof.Machine.execBnd o f s
  | .stset o f => Sys2Proof.Machine.execStset o f s
  | .stxor o f => Sys2Proof.Machine.execStxor o f s
  | .exit o f => Sys2Proof.Machine.execExit o f s
  | .nop o f => Sys2Proof.Machine.execNop o f s
  | .trap o f => Sys2Proof.Machine.execTrap o f s
  | .brk o f => Sys2Proof.Machine.execBrk o f s
  | .ldb o f => Sys2Proof.Machine.execLdb o f s
  | .stb o f => Sys2Proof.Machine.execStb o f s
  | .ldv o f => Sys2Proof.Machine.execLdv o f s
  | .stv o f => Sys2Proof.Machine.execStv o f s
  | .rclm o f => Sys2Proof.Machine.execRclm o f s
  | .gath o f => Sys2Proof.Machine.execGath o f s
  | .scat o f => Sys2Proof.Machine.execScat o f s
  | .bfst o f => Sys2Proof.Machine.execBfst o f s
  | .bfsetFull o f => Sys2Proof.Machine.execBfsetFull o f s
  | .bfsetEmpty o f => Sys2Proof.Machine.execBfsetEmpty o f s
  | .atb o f => Sys2Proof.Machine.execAtb o f s
  | .sya o f => Sys2Proof.Machine.execSya o f s
  | .syadd o f => Sys2Proof.Machine.execSyadd o f s
  | .sywch o f => Sys2Proof.Machine.execSywch o f s
  | .ldg o f => Sys2Proof.Machine.execLdg o f s
  | .stg o f => Sys2Proof.Machine.execStg o f s
  | .atg o f => Sys2Proof.Machine.execAtg o f s
  | .fnc o f => Sys2Proof.Machine.execFnc o f s
  | .pfg o f => Sys2Proof.Machine.execPfg o f s
  | .cparm o f => Sys2Proof.Machine.execCparm o f s
  | .cpdis o f => Sys2Proof.Machine.execCpdis o f s
  | .cpfire o f => Sys2Proof.Machine.execCpfire o f s
  | .cpq o f => Sys2Proof.Machine.execCpq o f s
  | .tmov o f => Sys2Proof.Machine.execTmov o f s
  | .jcard o f => Sys2Proof.Machine.execJcard o f s
  | .mgopen o f => Sys2Proof.Machine.execMgopen o f s
  | .mgclose o f => Sys2Proof.Machine.execMgclose o f s
  | .mgsplAllow o f => Sys2Proof.Machine.execMgsplAllow o f s
  | .mgsplForbid o f => Sys2Proof.Machine.execMgsplForbid o f s
  | .mgsplForce o f => Sys2Proof.Machine.execMgsplForce o f s
  | .mgsplXqreg o f => Sys2Proof.Machine.execMgsplXqreg o f s
  | .mgsplXqdel o f => Sys2Proof.Machine.execMgsplXqdel o f s
  | .mgstIsland o f => Sys2Proof.Machine.execMgstIsland o f s
  | .mgstQueue o f => Sys2Proof.Machine.execMgstQueue o f s
  | .mxtok o f => Sys2Proof.Machine.execMxtok o f s
  | .mxcfg o f => Sys2Proof.Machine.execMxcfg o f s
  | .mxdrn o f => Sys2Proof.Machine.execMxdrn o f s
  | .lutx o f => Sys2Proof.Machine.execLutx o f s
  | .bspl o f => Sys2Proof.Machine.execBspl o f s
  | .bjn o f => Sys2Proof.Machine.execBjn o f s
  | .phlx o f => Sys2Proof.Machine.execPhlx o f s
  | .rngf o f => Sys2Proof.Machine.execRngf o f s
  | .tamp o f => Sys2Proof.Machine.execTamp o f s
  | .thaw o f => Sys2Proof.Machine.execThaw o f s
  | .thawTrap o f => Sys2Proof.Machine.execThawTrap o f s
  | .scrd o f => Sys2Proof.Machine.execScrd o f s
  | .scwrVft o f => Sys2Proof.Machine.execScwrVft o f s
  | .scwrEs o f => Sys2Proof.Machine.execScwrEs o f s
  | .scwrSt o f => Sys2Proof.Machine.execScwrSt o f s
  | .rtwr o f => Sys2Proof.Machine.execRtwr o f s
  | .prtd o f => Sys2Proof.Machine.execPrtd o f s
  | .ptctRead o f => Sys2Proof.Machine.execPtctRead o f s
  | .ptctWrite o f => Sys2Proof.Machine.execPtctWrite o f s
  | .ptctDefine o f => Sys2Proof.Machine.execPtctDefine o f s
  | .ptctSave o f => Sys2Proof.Machine.execPtctSave o f s
  | .ptctRestore o f => Sys2Proof.Machine.execPtctRestore o f s
  | .ptctRelease o f => Sys2Proof.Machine.execPtctRelease o f s
  | .tlbiS1va o f => Sys2Proof.Machine.execTlbiS1va o f s
  | .tlbiS1pid o f => Sys2Proof.Machine.execTlbiS1pid o f s
  | .tlbiS2g o f => Sys2Proof.Machine.execTlbiS2g o f s
  | .tlbiS2vf o f => Sys2Proof.Machine.execTlbiS2vf o f s
  | .pgfwStart o f => Sys2Proof.Machine.execPgfwStart o f s
  | .pgfwClear o f => Sys2Proof.Machine.execPgfwClear o f s
  | .pgfwAbort o f => Sys2Proof.Machine.execPgfwAbort o f s
  | .pgfwQuery o f => Sys2Proof.Machine.execPgfwQuery o f s
  | .vfenSet o f => Sys2Proof.Machine.execVfenSet o f s
  | .vfenClr o f => Sys2Proof.Machine.execVfenClr o f s
  | .vdmap o f => Sys2Proof.Machine.execVdmap o f s
  | .kroll o f => Sys2Proof.Machine.execKroll o f s
  | .atstQuery o f => Sys2Proof.Machine.execAtstQuery o f s
  | .atstChallenge o f => Sys2Proof.Machine.execAtstChallenge o f s
  | .atstQuarantine o f => Sys2Proof.Machine.execAtstQuarantine o f s
  | .atstReset o f => Sys2Proof.Machine.execAtstReset o f s
  | .fltakTake o f => Sys2Proof.Machine.execFltakTake o f s
  | .fltakPeek o f => Sys2Proof.Machine.execFltakPeek o f s
  | .qsckRead o f => Sys2Proof.Machine.execQsckRead o f s
  | .qsckRestart o f => Sys2Proof.Machine.execQsckRestart o f s
  | .rlim o f => Sys2Proof.Machine.execRlim o f s
  | .sqarm off => Sys2Proof.Machine.execSqarm off s
  | .sqbr off => Sys2Proof.Machine.execSqbr off s
  | .sqloop lc count off => Sys2Proof.Machine.execSqloop lc count off s
  | .sqwait g va => Sys2Proof.Machine.execSqwait g va s
  | .sqlaunch ex ey bit g va => Sys2Proof.Machine.execSqlaunch ex ey bit g va s
  | .sqjoin g => Sys2Proof.Machine.execSqjoin g s
  | .sqend => Sys2Proof.Machine.execSqend s
  | .sqmark m => Sys2Proof.Machine.execSqmark m s
  | .sqfence => Sys2Proof.Machine.execSqfence s
  | .mma t => Sys2Proof.Machine.execMma t s
  | .mmas t => Sys2Proof.Machine.execMmas t s
  | .mmsc t => Sys2Proof.Machine.execMmsc t s
  | .mmi t => Sys2Proof.Machine.execMmi t s
  | .mzero t => Sys2Proof.Machine.execMzero t s
  | .mldm t => Sys2Proof.Machine.execMldm t s
  | .stwLaunch tag vdn hdr => Sys2Proof.Machine.execStwLaunch tag vdn hdr s
  | .portAddr tag port plen addr => Sys2Proof.Machine.execPortAddr tag port plen addr s
  | .peerSet tag panel addrs => Sys2Proof.Machine.execPeerSet tag panel addrs s
  | .trlsCfg tag port panel => Sys2Proof.Machine.execTrlsCfg tag port panel s
  | .qpOpen tag vf pid port rqpn rip psn => Sys2Proof.Machine.execQpOpen tag vf pid port rqpn rip psn s
  | .qpClose tag qpn => Sys2Proof.Machine.execQpClose tag qpn s
  | .mwOpen tag vf pid rd wr va len => Sys2Proof.Machine.execMwOpen tag vf pid rd wr va len s
  | .mwClose tag key => Sys2Proof.Machine.execMwClose tag key s
  | .sqBind tag vf q pid qpn va key entries => Sys2Proof.Machine.execSqBind tag vf q pid qpn va key entries s
  | .ringSet tag vf ring qpn va key => Sys2Proof.Machine.execRingSet tag vf ring qpn va key s
  | .cfgRead tag item index => Sys2Proof.Machine.execCfgRead tag item index s
  | .mgmtMalformedCommand msg => Sys2Proof.Machine.execMgmtMalformedCommand msg s
  | .trlsLoad h => Sys2Proof.Machine.execTrlsLoad h s
  | .trlsStore h => Sys2Proof.Machine.execTrlsStore h s
  | .trlsAtomic h => Sys2Proof.Machine.execTrlsAtomic h s
  | .trlsSyncadd h => Sys2Proof.Machine.execTrlsSyncadd h s
  | .trlsData h => Sys2Proof.Machine.execTrlsData h s
  | .trlsAck h => Sys2Proof.Machine.execTrlsAck h s
  | .trlsNak h => Sys2Proof.Machine.execTrlsNak h s
  | .trlsKeyswitch h => Sys2Proof.Machine.execTrlsKeyswitch h s
  | .trlsUndefinedOp opc h => Sys2Proof.Machine.execTrlsUndefinedOp opc h s
  | .launchSubmit vf q hdr => Sys2Proof.Machine.execLaunchSubmit vf q hdr s
  | .launchPlace pid lnch rect => Sys2Proof.Machine.execLaunchPlace pid lnch rect s
  | .launchAgeing pid lnch => Sys2Proof.Machine.execLaunchAgeing pid lnch s
  | .passStart pid lnch fslot => Sys2Proof.Machine.execPassStart pid lnch fslot s
  | .launchComplete pid lnch => Sys2Proof.Machine.execLaunchComplete pid lnch s
  | .blockArm r => Sys2Proof.Machine.execBlockArm r s
  | .frameFire r frm => Sys2Proof.Machine.execFrameFire r frm s
  | .blockCommit r frm => Sys2Proof.Machine.execBlockCommit r frm s
  | .iterationToken r frm => Sys2Proof.Machine.execIterationToken r frm s
  | .packetDeliver ix => Sys2Proof.Machine.execPacketDeliver ix s
  | .outputChannelSend e ch => Sys2Proof.Machine.execOutputChannelSend e ch s
  | .creditReturn ix => Sys2Proof.Machine.execCreditReturn ix s
  | .bndPacketRelease ix => Sys2Proof.Machine.execBndPacketRelease ix s
  | .slotAgeing e n => Sys2Proof.Machine.execSlotAgeing e n s
  | .baristaWindow die pid idle => Sys2Proof.Machine.execBaristaWindow die pid idle s
  | .dripWindow r cls => Sys2Proof.Machine.execDripWindow r cls s
  | .quietCountExpire die pid => Sys2Proof.Machine.execQuietCountExpire die pid s
  | .quiescenceProbe pid => Sys2Proof.Machine.execQuiescenceProbe pid s
  | .streamReadAhead r frm b => Sys2Proof.Machine.execStreamReadAhead r frm b s
  | .tagWordArrive ix => Sys2Proof.Machine.execTagWordArrive ix s
  | .tileBankCycle r tile => Sys2Proof.Machine.execTileBankCycle r tile s
  | .syncHomeCycle word k => Sys2Proof.Machine.execSyncHomeCycle word k s
  | .versionHomeCycle word => Sys2Proof.Machine.execVersionHomeCycle word s
  | .postedWriteDrain ix => Sys2Proof.Machine.execPostedWriteDrain ix s
  | .homeAccess ix => Sys2Proof.Machine.execHomeAccess ix s
  | .memoryResponse ix => Sys2Proof.Machine.execMemoryResponse ix s
  | .tableWalk ix => Sys2Proof.Machine.execTableWalk ix s
  | .engineJobStart ix => Sys2Proof.Machine.execEngineJobStart ix s
  | .copyFireToken die edge q => Sys2Proof.Machine.execCopyFireToken die edge q s
  | .copyPermitToken die edge q => Sys2Proof.Machine.execCopyPermitToken die edge q s
  | .copyJob ix => Sys2Proof.Machine.execCopyJob ix s
  | .copyJobComplete ix => Sys2Proof.Machine.execCopyJobComplete ix s
  | .nodeRouteSend e => Sys2Proof.Machine.execNodeRouteSend e s
  | .mergeLeafPacket ix => Sys2Proof.Machine.execMergeLeafPacket ix s
  | .mergeRootEmit die q => Sys2Proof.Machine.execMergeRootEmit die q s
  | .mergeRemergePass die q => Sys2Proof.Machine.execMergeRemergePass die q s
  | .mergeOutputSend die q => Sys2Proof.Machine.execMergeOutputSend die q s
  | .xqMessage ix => Sys2Proof.Machine.execXqMessage ix s
  | .xqDivert die desc => Sys2Proof.Machine.execXqDivert die desc s
  | .freezeArrive die pid => Sys2Proof.Machine.execFreezeArrive die pid s
  | .sliceEnd pid => Sys2Proof.Machine.execSliceEnd pid s
  | .scrubComplete pid => Sys2Proof.Machine.execScrubComplete pid s
  | .sliceCopyComplete kind site lfn => Sys2Proof.Machine.execSliceCopyComplete kind site lfn s
  | .faultRecordDeliver ix => Sys2Proof.Machine.execFaultRecordDeliver ix s
  | .doorbellWrite vf off data => Sys2Proof.Machine.execDoorbellWrite vf off data s
  | .roceWrite qpn key va data => Sys2Proof.Machine.execRoceWrite qpn key va data s
  | .roceRead qpn key va len => Sys2Proof.Machine.execRoceRead qpn key va len s
  | .roceCnp qpn => Sys2Proof.Machine.execRoceCnp qpn s
  | .roceInvalidOpcode qpn opc => Sys2Proof.Machine.execRoceInvalidOpcode qpn opc s
  | .trlsRetransmitTimeout panel stream => Sys2Proof.Machine.execTrlsRetransmitTimeout panel stream s
  | .trlsRekey panel => Sys2Proof.Machine.execTrlsRekey panel s
  | .getVersion u => Sys2Proof.Machine.execGetVersion u s
  | .getCapabilities u => Sys2Proof.Machine.execGetCapabilities u s
  | .negotiateAlgorithms u offer => Sys2Proof.Machine.execNegotiateAlgorithms u offer s
  | .getDigests u cslot => Sys2Proof.Machine.execGetDigests u cslot s
  | .getCertificate u cslot off len => Sys2Proof.Machine.execGetCertificate u cslot off len s
  | .challenge u sigOk => Sys2Proof.Machine.execChallenge u sigOk s
  | .getMeasurements u sigOk => Sys2Proof.Machine.execGetMeasurements u sigOk s
  | .keyExchange u => Sys2Proof.Machine.execKeyExchange u s
  | .finish u ok => Sys2Proof.Machine.execFinish u ok s
  | .keyUpdate u => Sys2Proof.Machine.execKeyUpdate u s
  | .endSession u => Sys2Proof.Machine.execEndSession u s
  | .spdmUnsupportedRequest u code => Sys2Proof.Machine.execSpdmUnsupportedRequest u code s
  | .keyDeliver u n rx gen => Sys2Proof.Machine.execKeyDeliver u n rx gen s
  | .keyRollDue u n => Sys2Proof.Machine.execKeyRollDue u n s
  | .keyswitchReceive u n gen => Sys2Proof.Machine.execKeyswitchReceive u n gen s
  | .linkFrameSend u n flits => Sys2Proof.Machine.execLinkFrameSend u n flits s
  | .frameCounterExhausted u n => Sys2Proof.Machine.execFrameCounterExhausted u n s
  | .linkFrameReceive u n gen flits crcOk tagOk chkOk peerOk => Sys2Proof.Machine.execLinkFrameReceive u n gen flits crcOk tagOk chkOk peerOk s
  | .rootTakeover port done => Sys2Proof.Machine.execRootTakeover port done s
  | .powerGood fw => Sys2Proof.Machine.execPowerGood fw s
  | .clockRaise die => Sys2Proof.Machine.execClockRaise die s
  | .droopStretch r on => Sys2Proof.Machine.execDroopStretch r on s
  | .powerEval power => Sys2Proof.Machine.execPowerEval power s
  | .thermalThrottle u temp => Sys2Proof.Machine.execThermalThrottle u temp s
  | .thermalTrip u temp => Sys2Proof.Machine.execThermalTrip u temp s
  | .patrolScrub addr bad => Sys2Proof.Machine.execPatrolScrub addr bad s
  | .channelSpare vsn ch => Sys2Proof.Machine.execChannelSpare vsn ch s
  | .sessionLost u => Sys2Proof.Machine.execSessionLost u s
  | .junctionBelowThrottle u temp => Sys2Proof.Machine.execJunctionBelowThrottle u temp s
  | .pfcFrame port prio pause => Sys2Proof.Machine.execPfcFrame port prio pause s

end Sys2Proof.Machine
end

