-- ==== Sys2Proof/Machine/Turns.lean ====
section
/-! DEFINITION. What a turn does: the agent it names takes up its next instruction, which the decoder reads, and does it (R57, R72,
R89, R191, R267, R264). An agent with nothing to do lets the turn pass. -/

namespace Sys2Proof.Machine

/-! Elements. -/

/-- The instruction of a selected slot. Two opcodes stand for rows that an operand tells apart: SCWR by the space in [31:28] of a's
lane 0 (R390), THAW by TRP in [8] of it (R402) (log 11: DEDUCED). -/
def State.firing (s : State) (e n : Nat) (op : SlotOp) (o : Slot) (f : Fn) : Instr :=
  let w := ((rawPk (s.envOf e n o f).a).lanes.headD 0).toNat
  match op with
  | .scwrVft => if w / 2 ^ 28 == 4 then .scwrEs o f else if w / 2 ^ 28 == 5 then .scwrSt o f else .scwrVft o f
  | .thaw => if w / 2 ^ 8 % 2 == 1 then .thawTrap o f else .thaw o f
  | op => slotInstr op o f

/-- The firing that an element's trigger stage selects (R72, R92). -/
def State.selected (s : State) (e : Nat) : Option (Nat × SlotOp × Slot × Fn) :=
  if (s.elem e).hold != .run || !(s.moving (ekRegion e)) then none
  else match s.select e with
    | none => none
    | some n => match ((s.elem e).slots.get n).parts with
      | none => none
      | some (op, o, f) => some (n, op, o, f)

/-- A slot that has stopped being ready counts its cycles anew (R92) (log 37: DEDUCED). -/
def State.settleAges (s : State) (e : Nat) : State :=
  (List.range 32).foldl (fun t n =>
    if ((s.elem e).slots.get n).aged && !(s.ready e n) then t.modSlot e n (fun x => { x with aged := false }) else t) s

/-- The bits of ST that a firing's next state writes (R75). -/
def nsMask (o : Slot) : BitVec 6 := match o.nsm.toNat with | 0 => 0x3F | 1 => o.gm | _ => 0

/-- What a selected firing takes with it to stage F, with the channels it dequeues. -/
def State.parkedOf (s : State) (e n : Nat) (o : Slot) (chans : BitVec 4) : Parked :=
  let el := s.elem e
  let sl := el.slots.get n
  { slot := n, st := el.st, d := el.d, dt := o.dt, tt := o.tt, ord := (s.retOf e n o {}).ord,
    chans := (maskList chans).filterMap (fun c => (el.ins.get c).q.head?.map (fun h => (c, h))),
    l := if sl.aw.getLsbD 0 then sl.l else none, r := if sl.aw.getLsbD 1 then sl.r else none,
    p := if sl.aw.getLsbD 2 then sl.p else none }

/-- A selected access that holds at stage F (R89, R168, R345): its next state is written, its credits and channel space are spent, and
what it dequeues and empties is taken; younger firings that access no memory go on (log 36: DEDUCED). -/
def State.park (s : State) (e n : Nat) (o : Slot) : State :=
  let x := s.parkedOf e n o o.icn
  let el := triggerElem (s.elem e) n o o.icn
  ((s.setElem e { el with parked := el.parked ++ [x] }).reserve e o.dt o.tt).touch (ekRegion e)

/-- An element with what a firing took back in place: packets at the heads of their channels, fields full (R91, R345). -/
def Elem.giveBack (el : Elem) (x : Parked) : Elem :=
  { el with
    ins := x.chans.foldl (fun m c => m.modify c.1 (fun i => { i with q := c.2 :: i.q })) el.ins
    slots := el.slots.modify x.slot (fun sl => { sl with l := x.l.or sl.l, r := x.r.or sl.r, p := x.p.or sl.p }) }

/-- The element as a held access found it: what it took is back in place, and the credits it spent; its output channel as its place in it
has it (R90) (log 120: DEDUCED). -/
def State.unpark (s : State) (e : Nat) (x : Parked) : State :=
  let s := s.freeEntries { e := e, dt := x.dt, tt := x.tt }
  let s := match dtOut x.dt with | some c => s.modOut e c (fun o => o.upTo x.ord) | none => s
  s.modElem e (fun el => { (el.giveBack x) with st := x.st, d := x.d, parked := el.parked.drop 1 })

/-- An element after a held access has passed stage F: the younger firings' writes of ST and of the data registers stand, but for a
register that the access itself has written, and their packets stand behind its own in the output channel (R90); a fault gives back the
bits of ST that the access's next state wrote (R95) (log 120: DEDUCED). -/
def passedF (old new : Elem) (x : Parked) (o : Slot) : Elem :=
  { new with
    st := if new.hold == .run then old.st else (old.st &&& ~~~(nsMask o)) ||| (x.st &&& nsMask o)
    d := if x.dt.toNat < 4 then old.d.set x.dt.toNat (new.d.get x.dt.toNat) else old.d
    outs := match dtOut x.dt with
      | some c => new.outs.modify c (fun y => y.rejoin (old.outs.get c) x.ord)
      | none => new.outs
    lastSel := old.lastSel }

/-- The oldest access that holds at stage F, when the fences it held behind are done (log 36: DEDUCED). -/
def State.released (s : State) (e : Nat) : Option (Parked × SlotOp × Slot × Fn) :=
  match (s.elem e).parked with
  | [] => none
  | x :: _ =>
    if (s.elem e).hold != .run || !(s.moving (ekRegion e)) then none
    else match ((s.elem e).slots.get x.slot).parts with
      | some (op, o, f) => if s.fencesOpen e op then some (x, op, o, f) else none
      | none => none

/-- A held access passes stage F: it fires on what it found at its selection. -/
def State.resume (s : State) (e : Nat) (x : Parked) (op : SlotOp) (o : Slot) (f : Fn) : Host.Outcome State Fault Refusal :=
  let u := s.unpark e x
  match exec (u.firing e x.slot op o f) { u with cur := (e, x.slot) } with
  | .next t => .next (t.modElem e (fun el => passedF (s.elem e) el x o))
  | r => r

/-- Would a firing be squashed by the change of some bits of ST: does its guard examine one, its next state cover one, or does it read
ST (R91)? (log 119: DESIGN CHOICE) -/
def squashes (m : BitVec 6) (o : Slot) : Bool :=
  (o.gm &&& m) != 0 || o.nsm == 0 || (o.nsm == 1 && (o.gm &&& m) != 0) || o.sa == 12 || o.sb == 12

/-- ST as the trigger stage sees it before an STSET or STXOR has reached stage W (R91). -/
def State.assumed (s : State) (e : Nat) : State :=
  s.modElem e (fun el => { el with st := el.st ^^^ (el.late &&& ~~~(el.ghosts.foldl (fun m x => m ||| x.ns) 0)) })

/-- A firing selected that the write of ST on its way will squash (R91): until then its trigger effects stand (log 119: DESIGN CHOICE). -/
def State.ghost (s : State) (e n : Nat) (op : SlotOp) (o : Slot) (f : Fn) : State :=
  let chans := takes (s.elem e) n op o f
  let dt := if op == .splt then o.dt + BitVec.ofNat 4 ((s.elem e).slots.get n).ptr else o.dt
  let x : Parked := { s.parkedOf e n o chans with ns := nsMask o, dt := dt }
  let el := triggerElem (s.elem e) n o chans
  ((s.setElem e { el with ghosts := el.ghosts ++ [x] }).reserve e dt o.tt).touch (ekRegion e)

/-- A squashed firing has no effect at all (R91) (log 119: DESIGN CHOICE). -/
def State.squash (s : State) (e : Nat) (x : Parked) : State :=
  let s := s.release { e := e, dt := x.dt, tt := x.tt, ord := x.ord }
  s.modElem e (fun el => { (el.giveBack x) with st := (el.st &&& ~~~x.ns) ||| (x.st &&& x.ns), ghosts := el.ghosts.dropLast })

/-- A write of ST has reached stage W: the firings that it squashes are undone, the youngest first (R91) (log 119: DESIGN CHOICE). -/
def State.landed (s : State) (e : Nat) : State :=
  (s.elem e).ghosts.reverse.foldl (fun s x => s.squash e x) (s.modElem e (fun el => { el with late := 0 }))

/-- A firing that is not squashed keeps its next-state write over an older one's that is (R91). -/
def State.outlive (s : State) (e : Nat) (o : Slot) : State :=
  s.modElem e (fun el => { el with ghosts := el.ghosts.map (fun x => { x with ns := x.ns &&& ~~~(nsMask o) }) })

/-- A selected firing passes stage F, or holds there behind a fence. -/
def State.enterF (s : State) (e n : Nat) (op : SlotOp) (o : Slot) (f : Fn) : Host.Outcome State Fault Refusal :=
  if s.holdsAtF e op then .next (s.park e n o) else exec (s.firing e n op o f) { s with cur := (e, n) }

/-- A selected firing that stalls at stage F for a register that awaits a response (R90, R314): its next state is written, and nothing
more is selected until it goes on (log 12: DEDUCED). -/
def State.stall (s : State) (e n : Nat) (o : Slot) : State :=
  ((s.landed e).modElem e (fun el => { el with
    stalled := some (n, el.st), st := nextSt o el.st, slots := el.slots.modify n (fun x => { x with aged := false }) })).touch (ekRegion e)

/-- A firing selected: done, or held at stage F. -/
def State.fireSelected (s : State) (e n : Nat) (op : SlotOp) (o : Slot) (f : Fn) : Host.Outcome State Fault Refusal :=
  if stalls (s.pendingD e) op o then .next (s.stall e n o) else s.enterF e n op o f

/-- The firing that stalls at stage F goes on once its registers have their values; what the sequencer has written to ST since its
selection stands (log 12: DEDUCED). -/
def stalledTurn (e n : Nat) (st : BitVec 6) (s : State) : Host.Outcome State Fault Refusal :=
  match ((s.elem e).slots.get n).parts with
  | none => .next (s.modElem e (fun el => { el with stalled := none }))
  | some (op, o, f) =>
    if (s.elem e).hold != .run || !(s.moving (ekRegion e)) || stalls (s.pendingD e) op o then .next s
    else
      let d := (s.elem e).st ^^^ nextSt o st
      match (s.modElem e (fun el => { el with st := st, stalled := none })).enterF e n op o f with
      | .next t => .next (t.modElem e (fun el => { el with st := el.st ^^^ d }))
      | r => r

/-- The selection of an element whose ST has no write under way. -/
def selectTurn (e : Nat) (s : State) : Host.Outcome State Fault Refusal :=
  match s.selected e with
  | none => .next s
  | some (n, op, o, f) => s.fireSelected e n op o f

/-- A turn of an element: its ages are settled; the oldest access that no fence holds any more passes stage F, or the firing that stalls
there; else the firing selected is done. While a write of ST is on its way to stage W, selections go by the old bits, and a firing that
the change concerns is squashed when it lands (R91); when that is is free (log 37: DEDUCED; log 119: DESIGN CHOICE). -/
def elementTurn (e : Nat) (s : State) : Host.Outcome State Fault Refusal :=
  let t := s.settleAges e
  match t.released e with
  | some (x, op, o, f) => t.resume e x op o f
  | none => match (t.elem e).stalled with
    | some (n, st) => stalledTurn e n st t
    | none =>
      if (t.elem e).late == 0 then selectTurn e t
      else if Config.choice t.draws then selectTurn e (t.drawn.landed e)
      else match (t.assumed e).selected e with
        | none => .next (t.drawn.landed e)
        | some (n, op, o, f) =>
          if squashes (t.elem e).late o then .next (t.drawn.ghost e n op o f) else (t.drawn.outlive e o).fireSelected e n op o f

/-! Sequencers. -/

/-- The words at a region's place in its stream: the first, and the second where the first says there is one. -/
def State.streamWords (s : State) (r : Nat) : Except (FCode × Nat) (Dword × Dword) :=
  let va := s.streamVa r (s.region r).sqp
  match s.readWords r va 1 with
  | .error x => .error x
  | .ok ws =>
    let w := ws.headD 0
    if seqLength w == 2 then
      match s.readWords r (va + 8) 1 with
      | .error x => .error x
      | .ok vs => .ok (w, vs.headD 0)
    else .ok (w, 0)

/-- Has an offset led to the second doubleword of an SQWAIT or SQLAUNCH, which is no position (R299)? (log 48: DEDUCED) -/
def State.midWord (s : State) (r : Nat) : Bool :=
  let x := s.region r
  x.branched && (match s.readWords r (s.streamVa r (streamPos ((x.sqp : Int) - 1))) 1 with
    | .ok ws => (match decodeSeq (ws.headD 0) 0 with | .ok (.sqwait _ _) | .ok (.sqlaunch _ _ _ _ _) => true | _ => false)
    | .error _ => false)

/-- The next word of a region's stream: a block header is armed, a sequencer word is done, any other faults (R57, R299, R394). -/
def streamTurn (r : Nat) (s : State) : Host.Outcome State Fault Refusal :=
  let x := s.region r
  match s.streamWords r with
  | .error (c, va) => .next (s.seqFault c r x.sqp 0 (some va)).drawn
  | .ok (w, v) =>
    if s.midWord r then .next (s.seqFault .blkAlign r x.fromOff 0 none).drawn
    else if bitsOf w 48 16 == 0x5A3C then exec (.blockArm r) s
    else match decodeSeq w v with
      | .ok i => exec i { s.drawn with cur := (r, 0) }
      | .error .badSequencer => .next (s.seqFault .illegal r x.sqp 0 none).drawn
      | .error _ => .next (s.seqFault .blkAlign r x.fromOff 0 none).drawn

/-- A turn of a region's sequencer. A steward's takes up the launch that waits, and ends the one whose stream has ended (R269)
(log 47: DEDUCED; log 48: DEDUCED). -/
def sequencerTurn (r : Nat) (s : State) : Host.Outcome State Fault Refusal :=
  if !(s.moving r) then .next s
  else match (s.region r).seq with
    | .run => streamTurn r s
    | .branch _ => .next (s.resolve r)
    | .reached a => .next (if s.keyWay (s.physDie (rkDie r)) a then s.seqAcquire r a else s)
    | .idle => if isStw r then .next (s.startSteward (rkDie r)) else .next s
    | .ended => if isStw r then .next (s.finishSteward (rkDie r)) else .next s
    | _ => .next s

/-! Nodes. -/

/-- A turn of a matrix node: the control token at the head of its queue (R185, R187, R191). -/
def nodeTurn (e : Nat) (s : State) : Host.Outcome State Fault Refusal :=
  let n := s.node e
  match n.cmds with
  | .tok p :: _ =>
    if !(s.moving n.rk) then .next s
    else match tokenWord p with
      | .error c => .next (s.badToken e c)
      | .ok w => match decodeTok w with
        | .ok i => exec i { s with cur := (e, 0) }
        | .error _ => .next (s.badToken e .illegal)
  | _ => .next s

/-! Messages. -/

/-- May a management host use the queue pair of a port die: it is open, and the configuration record, where there is one, lists the
host's address (R267)? (log 91: DEDUCED) -/
def State.manages (s : State) (p : Nat) (who : BitVec 128) : Bool :=
  s.mgmtOpen p && (!s.panel.root.recordOk || s.panel.root.hosts.contains who)

/-- Is a command of a port die's queue pair not yet answered, so that those behind it wait (R268)? -/
def State.mgmtBusy (s : State) (p : Nat) : Bool :=
  s.panel.windows.any (fun w => match w.2.closing with | some (q, _) => q == p | none => false)

/-- A message on the management queue pair of a port die, from a host; the port die serves them in order (R267, R268). -/
def mgmtTurn (port : Nat) (who : BitVec 128) (msg : List Byte) (s : State) : Host.Outcome State Fault Refusal :=
  if !(s.manages port who) then .next s
  else if s.mgmtBusy port then
    .next { s with panel := { s.panel with ports := s.panel.ports.modify port (fun x => { x with queued := x.queued ++ [(who, msg)] }) } }
  else exec (decodeMgmt msg) { s with cur := (port, 0) }

/-- Does a packet's tag check under the key of the session with the panel that it names (R264)? -/
def State.trlsTagOk (s : State) (bs tag : List Byte) : Bool :=
  trlsTag (s.panel.root.sessions.get (trlsFields bs).spanel.toNat).rkey bs == tag

/-- A packet from another panel: header, encrypted payload and tag (R264). One whose header R264 does not lay out, or whose tag fails, is discarded
(log 102: DESIGN CHOICE). -/
def trlsTurn (msg : List Byte) (s : State) : Host.Outcome State Fault Refusal :=
  let bs := msg.take (msg.length - 16)
  match decodeTrls (trlsCrypt (s.panel.root.sessions.get (trlsFields bs).spanel.toNat).rkey bs) with
  | .ok (.trlsUndefinedOp c h) => exec (.trlsUndefinedOp c h) s
  | .ok i => if s.trlsTagOk bs (msg.drop (msg.length - 16)) then exec i s else .next s
  | .error _ => .next s

/-- A management command. -/
def isCommand : Instr → Bool
  | .stwLaunch _ _ _ | .portAddr _ _ _ _ | .peerSet _ _ _ | .trlsCfg _ _ _ | .qpOpen _ _ _ _ _ _ _ | .qpClose _ _
  | .mwOpen _ _ _ _ _ _ _ | .mwClose _ _ | .sqBind _ _ _ _ _ _ _ _ | .ringSet _ _ _ _ _ _ | .cfgRead _ _ _
  | .mgmtMalformedCommand _ => true
  | _ => false

/-- Is an instruction an event: no word, no message names it, and the sequencer does not take it up itself? -/
def isEvent (i : Instr) : Bool :=
  (instrSlot i).isNone && (encode i).isEmpty && (encodeTrls i).isEmpty && !(isCommand i)
    && !(match i with | .blockArm _ => true | _ => false)

/-- The only turn of a package that has stopped: power good (R3, R273). -/
def isPowerGood : Turn → Bool
  | .event (.powerGood _) => true
  | _ => false

/-- What a turn does; nothing in a package that has stopped (R3) (log 1: DESIGN CHOICE). -/
def runTurn (t : Turn) (s : State) : Host.Outcome State Fault Refusal :=
  if s.panel.stopped && !(isPowerGood t) then .next s else
  match t with
  | .element e => elementTurn e s
  | .sequencer r => sequencerTurn r s
  | .node e => nodeTurn e s
  | .mgmt port who msg => mgmtTurn port who msg s
  | .trls msg => trlsTurn msg s
  | .event i => if isEvent i then exec i s else .next s

/-- The next turn: the next of the agenda, else the free schedule's (R66) (log 1: DESIGN CHOICE). -/
def State.nextTurn (s : State) : Turn × State :=
  match s.agenda with
  | t :: rest => (t, { s with agenda := rest })
  | [] => (Config.schedule s.draws, s.drawn)

/-! Placing one instruction where the next step takes it up. -/

/-- A packet of one word, of frame 0 of a region (log 9: DESIGN CHOICE). -/
def oneWord (r : Nat) : Held := { pkt := { lanes := [0] }, rk := r, frm := 0 }

/-- A region with frame 0 firing, defined in partition 0 unless it is a steward's. -/
def Region.placed (x : Region) (stw : Bool) : Region :=
  let b : Binding := { shape := { mode := 1 } }
  let fr : Frame := { st := .firing, bnds := (List.range 8).foldl (fun m k => PMap.set m k b) [] }
  { x with pid := (if stw then 0 else 1), frames := x.frames.set 0 fr }

/-- A slot word in slot 0 of an element of die 0, in a steward region for a privileged word: its guard holds, its fields are full and
every channel has a packet. -/
def State.placeSlot (s : State) (w : Dword) (op : SlotOp) (o : Slot) : State :=
  let stw : Bool := decide (0xE0 ≤ (opRow op).opc)
  let r := if stw then 16 else 0
  let aw : BitVec 3 := if o.awt then 7 else 0
  let sl : SlotSt := { word := w, frm := 1, aw := aw, l := some (oneWord r), r := some (oneWord r), p := some (oneWord r) }
  let ins := (List.range 4).foldl (fun m c => PMap.set m c { q := [oneWord r], frm := 1 }) []
  let el : Elem := { st := o.gv &&& o.gm, slots := [(0, sl)], ins := ins }
  let e := ekOf r 0
  let t : State := { s with
    agenda := .element e :: s.agenda, reqs := s.reqs.filter (fun q => q.ret.e != e),
    parts := s.parts.modify 0 (fun p => { p with frozen := [] }) }
  (t.setElem e el).modRegion r (fun x => x.placed stw)

/-- Where a placed sequencer word lies: a guest-physical address of the window of die 0 (log 9: DESIGN CHOICE). -/
def placeAt : Nat := 2 ^ 44 + 0x1000

/-- A sequencer word at the place in the stream of the steward region of die 0, which is ACTIVE. -/
def State.placeSeq (s : State) (w v : Dword) : State :=
  let t := s.modIdent (idFabric (s.physDie 0)) (fun x => { x with das := putBits x.das 61 3 3 })
  let t : State := { t with agenda := .sequencer 16 :: s.agenda }
  let t := t.modRegion 16 (fun x => { x with seq := .run, base := placeAt, sqp := 0 })
  (t.write (windowKey (s.physDie 0) 0x1000) (valBytes 8 w.toNat)).write (windowKey (s.physDie 0) 0x1008) (valBytes 8 v.toNat)

/-- A control token at the head of the queue of a node at element 0 of region 0. -/
def State.placeTok (s : State) (w : Dword) : State :=
  let p : Packet := { fmt := tyFmt .n64, fpx := tyFpx .n64, lanes := [w.extractLsb' 0 32, w.extractLsb' 32 32] }
  let n : Node := { k := [0, 0, 0, 0, 0, 0], cmds := [.tok p] }
  let t : State := { s with agenda := .node 0 :: s.agenda, nodes := s.nodes.set 0 n, parts := s.parts.modify 0 (fun p => { p with frozen := [] }) }
  t.modRegion 0 (fun x => x.placed false)

/-- The instruction that `decodeTableWord` reads, stored where the next step takes it up; nothing where it reads none
(log 9: DESIGN CHOICE; log 10: DEDUCED). -/
def State.placeWord (s : State) (nbits w : Nat) : State :=
  let lo := BitVec.ofNat 64 w
  let hi := BitVec.ofNat 64 (w / 2 ^ 64)
  let seq (s : State) : State := if (decodeSeq lo hi).toOption.isSome then s.placeSeq lo hi else s.placeTok lo
  if nbits ≤ 64 then
    match decodeSlotParts lo with
    | .ok (op, o, _) => s.placeSlot lo op o
    | .error _ => seq s
  else seq s

end Sys2Proof.Machine
end

