-- ==== Sys2Proof/Machine/Step.lean ====
section
/-! DEFINITION. One step: the next turn. -/

namespace Sys2Proof.Machine

/-- One step of the machine (R66). -/
def step (s : State) : Host.Outcome State Fault Refusal := runTurn s.nextTurn.1 s.nextTurn.2

/-- The machine with one instruction stored where the next step takes it up (log 9: DESIGN CHOICE). -/
def State.withFetchWord (s : State) (nbits w : Nat) : State := s.placeWord nbits w

end Sys2Proof.Machine
end

