-- ==== Sys2Proof/Certificates/Slice0/Obligations.lean ====
section
/-! DEFINITION. The statements for the provers, after the words they are said in. -/

namespace Sys2Proof.Claims

open Sys2Proof.Machine

/-! Firings. -/

/-- What a firing of the slot in progress sees. -/
def seen (s : State) (o : Slot) (f : Fn) : Env := s.envOf s.cur.1 s.cur.2 o f

/-- The way of every packet that a firing sends through a target entry is open (R58, R222). -/
def wayOpen (s : State) (o : Slot) (a : Act) : Prop := s.outStop s.cur.1 (a.entries o) = none

/-- A firing completed: its trigger effects (R75, R76), then its result (R89). -/
def completed (s : State) (o : Slot) (a : Act) : Host.Outcome State Fault Refusal :=
  .next ((s.trigger s.cur.1 s.cur.2 o o.icn).complete s.cur.1 s.cur.2 o a)

/-- A firing that faults: no effect but the fault raised against its slot and the element's hold (R95). -/
def faulted (s : State) (c : FCode) : Host.Outcome State Fault Refusal := .next (s.raiseSlot c s.cur.1 s.cur.2)

/-- How many lanes a value of a type takes at least (R84). -/
def unitOf (t : Ty) : Nat := if tyIs64 t then 2 else 1

/-- Sources of one legal type that R86 and R87 accept: each has the type, a length its format allows, no scale tag, and the
lengths agree or are one unit; n is the common number of lanes. -/
structure Sources (set : TySet) (f : Fn) (e : Env) (srcs : List Operand) (t : Ty) (n : Nat) : Prop where
  type : srcTy f e.a e.b = some t
  legal : t ≠ .any ∧ tySetHas set t = true
  packets : ∀ x ∈ srcs, ownLenOk (srcFor f t x) = true ∧ hasTy t (srcFor f t x) = true ∧ (srcFor f t x).sc = false
  lengths : lengthRule (unitOf t) (srcs.map (fun x => (srcFor f t x).lanes.length)) = some n

/-- The values of each source over n lanes, a source of one unit applied everywhere (R86, R312). -/
def values (f : Fn) (srcs : List Operand) (t : Ty) (n : Nat) : List (List Nat) := srcs.map (fun x => spread t n (srcFor f t x).lanes)

/-- What a multiplying instruction needs of the element's fusing control word under .any (R100). -/
def fused (f : Fn) (e : Env) (t : Ty) (dot : Bool) : Prop := declaredAny f = true → fcwServes e.fcw t dot = true

/-- The number that a value of a type is (R312). -/
def number (t : Ty) (x : Nat) : Int :=
  if tyIsSigned t ∧ 2 ^ (tyWidth t - 1) ≤ x then (x : Int) - (2 ^ tyWidth t : Nat) else x

/-- wrap of R312: the value mod 2^w. -/
def wrapped (t : Ty) (x : Int) : Nat × BitVec 32 := ((x % (2 ^ tyWidth t : Nat)).toNat, 0)

/-- sat of R312: held to the limits of the type, with SAT where that changed it. -/
def saturated (t : Ty) (x : Int) : Nat × BitVec 32 :=
  let lo : Int := if tyIsSigned t then -((2 ^ (tyWidth t - 1) : Nat) : Int) else 0
  let hi : Int := if tyIsSigned t then ((2 ^ (tyWidth t - 1) : Nat) : Int) - 1 else ((2 ^ tyWidth t : Nat) : Int) - 1
  if x < lo then ((lo % (2 ^ tyWidth t : Nat)).toNat, esSAT)
  else if hi < x then ((hi % (2 ^ tyWidth t : Nat)).toNat, esSAT)
  else ((x % (2 ^ tyWidth t : Nat)).toNat, 0)

/-- sat(x) under sub-code .sat, wrap(x) otherwise (R357, R359). -/
def satWhen (f : Fn) (t : Ty) (x : Int) : Nat × BitVec 32 := if fnSub f = 1 then saturated t x else wrapped t x

/-- One bit string, no flag. -/
def flagless (x : Nat) : Nat × BitVec 32 := (x, 0)

/-- The rule of a value-wise instruction: its types, its sources, and the result and flags at each value. -/
structure ValueRule where
  instr : Slot → Fn → Instr
  set : TySet
  srcs : Env → List Operand
  multiplies : Bool
  value : Fn → Env → Ty → Nat → Nat → Nat → Nat × BitVec 32

def srcsA (e : Env) : List Operand := [e.a]
def srcsAB (e : Env) : List Operand := [e.a, e.b]
def srcsABP (e : Env) : List Operand := [e.a, e.b, thirdOp e]

/-- The result of a value-wise instruction: a packet of n lanes of the type with source A's header (R85), and the flags of all its
values. -/
def valueResult (r : ValueRule) (f : Fn) (e : Env) (t : Ty) (n : Nat) : Act :=
  let v := eachVal (fun x => r.value f e t (x.getD 0 0) (x.getD 1 0) (x.getD 2 0)) (values f (r.srcs e) t n)
  { out := some (resPk e.a t (packLanes t n v.1)), flags := v.2 }

/-- A value-wise instruction completes with its rule's result wherever R86, R87 and R100 accept its sources and the way of its result
is open (R58, R222). -/
def ValueRule.Completes (r : ValueRule) : Prop :=
  ∀ (s : State) (o : Slot) (f : Fn) (t : Ty) (n : Nat),
    Sources r.set f (seen s o f) (r.srcs (seen s o f)) t n → (r.multiplies = true → fused f (seen s o f) t false) →
    wayOpen s o (valueResult r f (seen s o f) t n) → exec (r.instr o f) s = completed s o (valueResult r f (seen s o f) t n)

/-- The integer and bit instructions (R316, R318, R332, R357, R359, R386). -/
def integerRules : List ValueRule :=
  [ ⟨.add, .int, srcsAB, false, fun _ _ t a b _ => wrapped t (number t a + number t b)⟩,
    ⟨.adds, .int, srcsAB, false, fun _ _ t a b _ => saturated t (number t a + number t b)⟩,
    ⟨.sub, .int, srcsAB, false, fun _ _ t a b _ => wrapped t (number t a - number t b)⟩,
    ⟨.subs, .int, srcsAB, false, fun _ _ t a b _ => saturated t (number t a - number t b)⟩,
    ⟨.mul, .int, srcsAB, true, fun f _ t a b _ => satWhen f t (number t a * number t b)⟩,
    ⟨.mulh, .int, srcsAB, true, fun _ _ t a b _ =>
      flagless ((number t a * number t b % (2 ^ (2 * tyWidth t) : Nat)).toNat / 2 ^ tyWidth t)⟩,
    ⟨.mad, .int, srcsABP, true, fun f _ t a b p => satWhen f t (number t a * number t b + number t p)⟩,
    ⟨.neg, .signed, srcsA, false, fun f _ t a _ _ => satWhen f t (-(number t a))⟩,
    ⟨.abs, .signed, srcsA, false, fun f _ t a _ _ => satWhen f t (number t a).natAbs⟩,
    ⟨.min, .int, srcsAB, false, fun _ _ t a b _ => flagless (if number t a ≤ number t b then a else b)⟩,
    ⟨.max, .int, srcsAB, false, fun _ _ t a b _ => flagless (if number t b ≤ number t a then a else b)⟩,
    ⟨.clamp, .int, srcsABP, false, fun _ _ t a b p => wrapped t (Min.min (Max.max (number t a) (number t b)) (number t p))⟩,
    ⟨.and, .int, srcsAB, false, fun _ _ _ a b _ => flagless (a &&& b)⟩,
    ⟨.or, .int, srcsAB, false, fun _ _ _ a b _ => flagless (a ||| b)⟩,
    ⟨.xor, .int, srcsAB, false, fun _ _ _ a b _ => flagless (a ^^^ b)⟩,
    ⟨.andn, .int, srcsAB, false, fun _ _ t a b _ => flagless (a &&& (2 ^ tyWidth t - 1 - b))⟩,
    ⟨.not, .int, srcsA, false, fun _ _ t a _ _ => flagless (2 ^ tyWidth t - 1 - a)⟩ ] ++
  [ ⟨.shl, .int, srcsAB, false, fun _ _ t a n _ => flagless (if n < tyWidth t then a * 2 ^ n % 2 ^ tyWidth t else 0)⟩,
    ⟨.shr, .int, srcsAB, false, fun _ _ t a n _ => flagless (if n < tyWidth t then a / 2 ^ n else 0)⟩,
    ⟨.sar, .signed, srcsAB, false, fun _ _ t a n _ =>
      wrapped t ((number t a).fdiv (2 ^ (if n < tyWidth t then n else tyWidth t) : Nat))⟩,
    ⟨.rotl, .int, srcsAB, false, fun _ _ t a n _ =>
      flagless (a * 2 ^ (n % tyWidth t) % 2 ^ tyWidth t + a / 2 ^ (tyWidth t - n % tyWidth t))⟩,
    ⟨.clz, .int, srcsA, false, fun _ _ t a _ _ => flagless (if a = 0 then tyWidth t else tyWidth t - 1 - Nat.log2 a)⟩,
    ⟨.ctz, .int, srcsA, false, fun _ _ t a _ _ =>
      flagless (if a = 0 then tyWidth t else Nat.log2 (a &&& (2 ^ tyWidth t - a)))⟩,
    ⟨.popc, .int, srcsA, false, fun _ _ t a _ _ => flagless ((List.range (tyWidth t)).filter (fun i => a.testBit i)).length⟩,
    ⟨.brev, .int, srcsA, false, fun _ _ t a _ _ =>
      flagless ((List.range (tyWidth t)).foldl (fun x k => if a.testBit k then x + 2 ^ (tyWidth t - 1 - k) else x) 0)⟩,
    ⟨.cmp, .int, srcsAB, false, fun f _ t a b _ =>
      let x := number t a
      let y := number t b
      let holds : Bool := match fnSub f with
        | 0 => x = y | 1 => x ≠ y | 2 => x < y | 3 => x ≤ y | 4 => y < x | _ => y ≤ x
      flagless (if holds then 2 ^ tyWidth t - 1 else 0)⟩ ]

/-- A value rounded into a type in a mode, with NV where the operation was invalid (R103, R112, R115). -/
def rounded (e : Env) (t : Ty) (m : Rnd) (v : FVal × Bool) : Nat × BitVec 32 :=
  let x := roundTy t { rnd := m } e.ftz e.inf8 v.1
  (x.1, x.2 ||| (if v.2 then esNV else 0))

/-- The value of an encoding as the block's flags have it read (R114, R335). -/
def real (e : Env) (t : Ty) (x : Nat) : FVal := fval t e.ftz e.inf8 x

/-- The smaller or larger of two values, −0 below +0; NaN where either is (R340). -/
def pick (larger : Bool) (x y : FVal) : FVal × Bool :=
  if isNan x || isNan y then (.nan false, isSnan x || isSnan y)
  else if larger then (if fBelow x y then y else x, false) else (if fBelow y x then y else x, false)

/-- x × y + z, rounded once (R340). -/
def fusedSum (m : Rnd) (x y z : FVal) : FVal × Bool :=
  ((fAdd (m == .rdn) (fMul x y).1 z).1, (fMul x y).2 || (fAdd (m == .rdn) (fMul x y).1 z).2)

/-- A NaN made quiet (R103). -/
def quieted (x : FVal) : FVal × Bool := (if isNan x then .nan false else x, isSnan x)

/-- The floating-point arithmetic (R340, R343). -/
def floatRules : List ValueRule :=
  [ ⟨.fadd, .float, srcsAB, false, fun f e t a b _ => rounded e t (fnRnd e f) (fAdd (fnRnd e f == .rdn) (real e t a) (real e t b))⟩,
    ⟨.fsub, .float, srcsAB, false, fun f e t a b _ =>
      rounded e t (fnRnd e f) (fAdd (fnRnd e f == .rdn) (real e t a) (fNegate (real e t b)))⟩,
    ⟨.fmul, .float, srcsAB, true, fun f e t a b _ => rounded e t (fnRnd e f) (fMul (real e t a) (real e t b))⟩,
    ⟨.fma, .float, srcsABP, true, fun f e t a b p =>
      rounded e t (fnRnd e f) (fusedSum (fnRnd e f) (real e t a) (real e t b) (real e t p))⟩,
    ⟨.fnma, .float, srcsABP, true, fun f e t a b p =>
      rounded e t (fnRnd e f) (fusedSum (fnRnd e f) (fNegate (real e t a)) (real e t b) (real e t p))⟩,
    ⟨.fmin, .float, srcsAB, false, fun _ e t a b _ => rounded e t .rne (pick false (real e t a) (real e t b))⟩,
    ⟨.fmax, .float, srcsAB, false, fun _ e t a b _ => rounded e t .rne (pick true (real e t a) (real e t b))⟩,
    ⟨.fabs, .floatSignedAny, srcsA, false, fun _ e t a _ _ => rounded e t .rne (quieted (fAbsolute (real e t a)))⟩,
    ⟨.fneg, .floatSignedAny, srcsA, false, fun _ e t a _ _ => rounded e t .rne (quieted (fNegate (real e t a)))⟩,
    ⟨.frnd, .float, srcsA, false, fun f e t a _ _ =>
      let q := quieted (real e t a)
      let i : FVal × Bool := match q.1 with
        | .fin neg m x => if m = 0 then (q.1, false)
          else (.fin neg (roundMul { rnd := fnRnd e f } neg m x 0).1 0, (roundMul { rnd := fnRnd e f } neg m x 0).2)
        | v => (v, false)
      let x := rounded e t (fnRnd e f) (i.1, q.2)
      (x.1, x.2 ||| (if i.2 then esNX else 0))⟩,
    ⟨.fdiv, .f32, srcsAB, false, fun f e _ a b _ => divVal e (fnRnd e f) a b⟩,
    ⟨.fsqrt, .f32, srcsA, false, fun f e _ a _ _ => sqrtVal e (fnRnd e f) a⟩,
    ⟨.frcp, .f32, srcsA, false, fun _ e _ a _ _ => rcpVal e a⟩,
    ⟨.frsq, .f32, srcsA, false, fun _ e _ a _ _ => rsqVal e a⟩,
    ⟨.fexp2, .f32, srcsA, false, fun _ e _ a _ _ => exp2Val e a⟩,
    ⟨.flog2, .f32, srcsA, false, fun _ e _ a _ _ => log2Val e a⟩,
    ⟨.fsin, .f32, srcsA, false, fun _ e _ a _ _ => sinVal e a⟩,
    ⟨.fcos, .f32, srcsA, false, fun _ e _ a _ _ => cosVal e a⟩ ]

end Sys2Proof.Claims

section Statements

open Sys2Proof Sys2Proof.Machine Sys2Proof.Claims

/-- Each integer and bit instruction, in every type and at every length that the length and type rules accept, answers a next
state: its trigger effects and the result of its rule at each value (R312, R316, R318, R332, R357, R359, R386). -/
def Obligations.IntegerInstructionsCompute : Prop := ∀ r ∈ integerRules, r.Completes

/-- Each value-wise floating-point instruction answers a next state: the exact operation at each value, rounded once (R340, R342,
R343); a special function's result is the model's, one of the two neighbours (R124, log entries of the free value). -/
def Obligations.FloatInstructionsCompute : Prop := ∀ r ∈ floatRules, r.Completes

end Statements

namespace Sys2Proof.Claims

open Sys2Proof.Machine

/-- The rule of an instruction that completes in its element: when it does, for sources of a type over a number of lanes, and what
it gives. -/
structure ActRule where
  instr : Slot → Fn → Instr
  when : Fn → Env → Ty → Nat → Prop
  act : Fn → Env → Ty → Nat → Act

/-- The instruction completes with its rule's result wherever the rule's conditions on its operands hold and the way of what it sends is
open (R58, R222). -/
def ActRule.Completes (r : ActRule) : Prop :=
  ∀ (s : State) (o : Slot) (f : Fn) (t : Ty) (n : Nat), r.when f (seen s o f) t n →
    wayOpen s o (r.act f (seen s o f) t n) → exec (r.instr o f) s = completed s o (r.act f (seen s o f) t n)

/-- A control operand's number, and what R313 asks of it: one unscaled .n32 lane with no bit set outside the mask. -/
def controlNumber (t : Ty) (x : Operand) : Nat := ((litPk t x).lanes.headD 0).toNat
def Control (t : Ty) (mask : Nat) (x : Operand) : Prop :=
  (litPk t x).lanes.length = 1 ∧ hasTy .n32 (litPk t x) = true ∧ (litPk t x).sc = false
    ∧ controlNumber t x &&& mask = controlNumber t x

/-- Results at each value of sources, packed over lanes of a type. -/
def packed (e : Env) (t : Ty) (n : Nat) (cols : List (List Nat)) (g : List Nat → Nat) : Packet :=
  resPk e.a t (packLanes t n (eachVal (fun x => (g x, 0)) cols).1)

/-- The flags of a function at each value. -/
def flagsOf (cols : List (List Nat)) (g : List Nat → BitVec 32) : BitVec 32 := (eachVal (fun x => (0, g x)) cols).2

/-- Bits [s+k−1:s] of a value (R326). -/
def bitsFrom (x s k : Nat) : Nat := x / 2 ^ s % 2 ^ k

/-- Does a fold take its operation on this type (R352)? -/
def foldHas (f : Fn) (t : Ty) : Prop := tyIsFloat t = true → fnSub f < 3

/-- One step of a fold (R352). -/
def foldOne (e : Env) (t : Ty) (op x y : Nat) : Nat × BitVec 32 :=
  if tyIsFloat t then
    match op with
    | 0 => rounded e t e.rnd (fAdd (e.rnd == .rdn) (real e t x) (real e t y))
    | 1 => rounded e t .rne (pick false (real e t x) (real e t y))
    | _ => rounded e t .rne (pick true (real e t x) (real e t y))
  else match op with
    | 0 => wrapped t (number t x + number t y)
    | 1 => flagless (if number t x ≤ number t y then x else y)
    | 2 => flagless (if number t y ≤ number t x then x else y)
    | 3 => flagless (x &&& y)
    | 4 => flagless (x ||| y)
    | _ => flagless (x ^^^ y)

/-- Where a fold begins: the first value; of a float, that value as a result of its type (R103, R114). -/
def foldStart (e : Env) (t : Ty) (x : Nat) : Nat × BitVec 32 :=
  if tyIsFloat t then rounded e t .rne (quieted (real e t x)) else flagless x

/-- The fold of the first i + 1 values, from the left. -/
def foldTo (e : Env) (t : Ty) (op : Nat) (vs : List Nat) (i : Nat) : Nat × BitVec 32 :=
  ((vs.drop 1).take i).foldl (fun s v => ((foldOne e t op s.1 v).1, s.2 ||| (foldOne e t op s.1 v).2)) (foldStart e t (vs.headD 0))

/-- Integer instructions of several results, a control operand or a selection (R326, R357, R358, R379, R391). -/
def integerActs : List ActRule :=
  [ ⟨.mulw, fun f e t n => Sources .intNo64 f e (srcsAB e) t n ∧ fused f e t false ∧ n ≤ 4,
      fun f e t n =>
        { out := some (packed e (doubleTy t) (2 * n) (values f (srcsAB e) t n)
            (fun x => (wrapped (doubleTy t) (number t (x.getD 0 0) * number t (x.getD 1 0))).1)) }⟩,
    ⟨.madw, fun f e t n => Sources .intNo64 f e (srcsAB e) t n ∧ fused f e t false ∧ n ≤ 4
        ∧ ((srcPk (doubleTy t) (thirdOp e)).lanes.length = 2 * n ∨ (srcPk (doubleTy t) (thirdOp e)).lanes.length = unitOf (doubleTy t))
        ∧ hasTy (doubleTy t) (srcPk (doubleTy t) (thirdOp e)) = true ∧ (srcPk (doubleTy t) (thirdOp e)).sc = false,
      fun f e t n =>
        { out := some (packed e (doubleTy t) (2 * n)
            (values f (srcsAB e) t n ++ [spread (doubleTy t) (2 * n) (srcPk (doubleTy t) (thirdOp e)).lanes])
            (fun x => (wrapped (doubleTy t)
              (number t (x.getD 0 0) * number t (x.getD 1 0) + number (doubleTy t) (x.getD 2 0))).1)) }⟩,
    ⟨.bfx, fun f e t n => Sources .int f e (srcsA e) t n ∧ Control (readTy f t e.b) 0x1FFF e.b ∧ 1 ≤ controlNumber (readTy f t e.b) e.b / 64
        ∧ controlNumber (readTy f t e.b) e.b % 64 + controlNumber (readTy f t e.b) e.b / 64 ≤ tyWidth t,
      fun f e t n =>
        let s := controlNumber (readTy f t e.b) e.b % 64
        let k := controlNumber (readTy f t e.b) e.b / 64
        { out := some (packed e t n (values f (srcsA e) t n) (fun x =>
            let v := bitsFrom (x.getD 0 0) s k
            if tyIsSigned t ∧ 2 ^ (k - 1) ≤ v then v + 2 ^ tyWidth t - 2 ^ k else v)) }⟩,
    ⟨.bfi, fun f e t n => Sources .int f e (srcsAB e) t n ∧ Control (readTy f t (thirdOp e)) 0x1FFF (thirdOp e)
        ∧ 1 ≤ controlNumber (readTy f t (thirdOp e)) (thirdOp e) / 64
        ∧ controlNumber (readTy f t (thirdOp e)) (thirdOp e) % 64 + controlNumber (readTy f t (thirdOp e)) (thirdOp e) / 64 ≤ tyWidth t,
      fun f e t n =>
        let s := controlNumber (readTy f t (thirdOp e)) (thirdOp e) % 64
        let k := controlNumber (readTy f t (thirdOp e)) (thirdOp e) / 64
        { out := some (packed e t n (values f (srcsAB e) t n) (fun x =>
            x.getD 1 0 - bitsFrom (x.getD 1 0) s k * 2 ^ s + x.getD 0 0 % 2 ^ k * 2 ^ s)) }⟩,
    ⟨.qdiv, fun f e t n => Sources .int f e (srcsAB e) t n ∧ ∀ b ∈ (values f (srcsAB e) t n).getD 1 [], b ≠ 0,
      fun f e t n =>
        let cols := values f (srcsAB e) t n
        let quo (x : List Nat) : Int := (number t (x.getD 0 0)).tdiv (number t (x.getD 1 0))
        { out := some (packed e t n cols (fun x => (wrapped t (quo x)).1)),
          second := some (packed e t n cols (fun x => (wrapped t ((number t (x.getD 0 0)).tmod (number t (x.getD 1 0)))).1)),
          flags := flagsOf cols (fun x => (saturated t (quo x)).2) }⟩,
    ⟨.sel, fun f e t n =>
        let p := match e.p with | some p => p | none => srcPk t (.const 0)
        srcTy f e.a e.b = some t ∧ t ≠ .any ∧ tyIsMx6 t = false
          ∧ (ownLenOk (srcFor f t e.a) && ownLenOk (srcFor f t e.b) && ownLenOk p) = true
          ∧ lengthRule (unitOf t) [(srcFor f t e.a).lanes.length, (srcFor f t e.b).lanes.length, p.lanes.length] = some n
          ∧ hasTy t (srcFor f t e.a) = true ∧ hasTy t (srcFor f t e.b) = true
          ∧ (∃ q, tyOfFmt p.fmt p.fpx = some q ∧ tyWidth q = tyWidth t)
          ∧ (srcFor f t e.a).sc = (srcFor f t e.b).sc ∧ ((srcFor f t e.a).sc = true → (srcFor f t e.a).sce = (srcFor f t e.b).sce),
      fun f e t n =>
        let p := match e.p with | some p => p | none => srcPk t (.const 0)
        { out := some (packed e t n (values f (srcsAB e) t n ++ [spread t n p.lanes])
            (fun x => if x.getD 2 0 ≠ 0 then x.getD 0 0 else x.getD 1 0)) }⟩ ]

/-- Source A of an instruction that takes its type from its own header (R343). -/
def OwnHeader (set : Ty → Bool) (e : Env) (t : Ty) : Prop :=
  ownLenOk (rawPk e.a) = true ∧ tyOfFmt (rawPk e.a).fmt (rawPk e.a).fpx = some t ∧ set t = true ∧ (rawPk e.a).sc = false

/-- The random bits that stochastic rounding asks of field P: an unscaled .n32 packet of a's length (R113, R343). -/
def Random (f : Fn) (e : Env) : Prop :=
  fnRnd e f = .sr → (rawPk (thirdOp e)).lanes.length = (rawPk e.a).lanes.length ∧ hasTy .n32 (rawPk (thirdOp e)) = true
    ∧ (rawPk (thirdOp e)).sc = false

/-- How value i of a source type is rounded: by the mode, under .sr with the bits that field P supplies for it (R113). -/
def modeAt (f : Fn) (e : Env) (t : Ty) (i : Nat) : RMode :=
  if fnRnd e f = .sr then srMode t (rawPk (thirdOp e)).lanes i else { rnd := fnRnd e f }

/-- Values converted in order into a type. -/
def converted (f : Fn) (e : Env) (t rt : Ty) (scale : Int) (vals : List Nat) : List (Nat × BitVec 32) :=
  (List.range vals.length).map (fun i =>
    let q := quieted (real e t (vals.getD i 0))
    let x := roundTy rt (modeAt f e t i) e.ftz e.inf8 (fScale q.1 scale)
    (x.1, x.2 ||| (if q.2 then esNV else 0)))

/-- The union of the flags of several results. -/
def allFlags (rs : List (Nat × BitVec 32)) : BitVec 32 := rs.foldl (fun fl x => fl ||| x.2) 0

/-- The values of source A. -/
def valuesA (e : Env) (t : Ty) : List Nat := laneVals t (rawPk e.a).lanes

/-- FCVT and FICV (R343): the values of a, converted in order, at most 8 lanes of them. -/
def convertRule (i : Slot → Fn → Instr) (set : Fn → Ty → Bool) : ActRule :=
  ⟨i, fun f e t _ => OwnHeader (set f) e t ∧ Random f e ∧ lanesFor (fnTy f) (valuesA e t).length ≤ 8,
    fun f e t _ =>
      let rs := converted f e t (fnTy f) 0 (valuesA e t)
      { out := some (resPk e.a (fnTy f) (packVals (fnTy f) (rs.map (·.1)))), flags := allFlags rs }⟩

/-- Floating-point inspection and conversion, and the two results of FSNCS (R341 to R343). -/
def floatActs : List ActRule :=
  [ ⟨.fcmp, fun f e t n => Sources .float f e (srcsAB e) t n,
      fun f e t n =>
        let cols := values f (srcsAB e) t n
        let holds (x y : FVal) : Bool :=
          if isNan x || isNan y then fnSub f == 1 || fnSub f == 6
          else match fnSub f with
            | 0 => fOrder x y = 0 | 1 => fOrder x y ≠ 0 | 2 => fOrder x y < 0 | 3 => fOrder x y ≤ 0 | 4 => 0 < fOrder x y
            | 5 => 0 ≤ fOrder x y | 6 => false | _ => true
        let rt := widthTy false (tyWidth t)
        { out := some (packed e rt n cols (fun x =>
            if holds (real e t (x.getD 0 0)) (real e t (x.getD 1 0)) then 2 ^ tyWidth t - 1 else 0)),
          flags := flagsOf cols (fun x =>
            if isSnan (real e t (x.getD 0 0)) || isSnan (real e t (x.getD 1 0)) then esNV else 0) }⟩,
    ⟨.fclass, fun f e t n => Sources .float f e (srcsA e) t n,
      fun f e t n => { out := some (packed e (widthTy false (tyWidth t)) n (values f (srcsA e) t n)
        (fun x => classCode t e.inf8 (x.getD 0 0))) }⟩,
    ⟨.fexpn, fun f e t n => Sources .float f e (srcsA e) t n,
      fun f e t n =>
        let cols := values f (srcsA e) t n
        let rt := widthTy true (tyWidth t)
        let lo := 2 ^ (tyWidth t - 1)
        { out := some (packed e rt n cols (fun x =>
            match real e t (x.getD 0 0) with
            | .fin _ m ex => if m = 0 then lo else ((((Nat.log2 m : Nat) : Int) + ex) % (2 ^ tyWidth t : Nat)).toNat
            | .nan _ => lo
            | .inf _ => lo - 1)),
          flags := flagsOf cols (fun x => match real e t (x.getD 0 0) with
            | .fin _ m _ => if m = 0 then esNV else 0
            | _ => esNV) }⟩,
    convertRule .fcvt (fun _ => tyIsFloat),
    convertRule .ficv (fun f => if tyIsInt (fnTy f) then tyIsFloat else tyIsInt),
    ⟨.fscl, fun f e t n => Sources .float f e (srcsA e) t n ∧ (litPk (fnTy f) e.b).lanes.length = 1
        ∧ hasTy .s32 (litPk (fnTy f) e.b) = true ∧ (litPk (fnTy f) e.b).sc = false,
      fun f e t n =>
        let k := ((litPk (fnTy f) e.b).lanes.headD 0).toInt
        let v (x : List Nat) : Nat × BitVec 32 :=
          rounded e t (fnRnd e f) (fScale (quieted (real e t (x.getD 0 0))).1 k, (quieted (real e t (x.getD 0 0))).2)
        { out := some (packed e t n (values f (srcsA e) t n) (fun x => (v x).1)),
          flags := flagsOf (values f (srcsA e) t n) (fun x => (v x).2) }⟩,
    ⟨.fsncs, fun f e t n => Sources .f32 f e (srcsA e) t n,
      fun f e t n =>
        let cols := values f (srcsA e) t n
        { out := some (packed e t n cols (fun x => (sinVal e (x.getD 0 0)).1)),
          second := some (packed e t n cols (fun x => (cosVal e (x.getD 0 0)).1)),
          flags := flagsOf cols (fun x => (sinVal e (x.getD 0 0)).2) ||| flagsOf cols (fun x => (cosVal e (x.getD 0 0)).2) }⟩ ]

end Sys2Proof.Claims

section Statements

open Sys2Proof Sys2Proof.Machine Sys2Proof.Claims

/-- The integer instructions with two results, a wide result, a control operand or a selection each answer a next state with the
result of their rule (R326, R357, R358, R379, R391). -/
def Obligations.IntegerPairsAndFieldsCompute : Prop := ∀ r ∈ integerActs, r.Completes

/-- The floating-point comparisons, classifications, conversions and FSNCS each answer a next state with the result of their rule
(R341 to R343); sine and cosine as the model's neighbours (R124). -/
def Obligations.FloatInspectionsAndConversionsCompute : Prop := ∀ r ∈ floatActs, r.Completes

end Statements

namespace Sys2Proof.Claims

open Sys2Proof.Machine

/-- Source A's packet with its own header (R85). -/
def kept (e : Env) : Packet := { rawPk e.a with cov := [] }

/-- Source A keeps the length that its own format allows (R84, R109). -/
abbrev Whole (e : Env) : Prop := ownLenOk (kept e) = true

/-- LEN of a packet (R83). -/
def lastLane (p : Packet) : Nat := p.lanes.length - 1

/-- A result of one .n32 lane (R85). -/
def oneLane (e : Env) (v : Nat) : Packet := resPk e.a .n32 [BitVec.ofNat 32 v]

/-- The packets that a firing of PKMRG puts in its channel and what it leaves in Dn (R374). -/
def pkmrgResult (f : Fn) (e : Env) : List Packet × Packet :=
  let a := kept e
  let held : Packet := (e.d.get (fnIm f % 4)).getD { lanes := [] }
  let h := if (e.d.get (fnIm f % 4)).isSome then held.seq.toNat % 16 else 0
  let cap := if a.fmt = 13 then 6 else 8
  let ls := if a.kind = 2 then [] else a.lanes
  let buf := held.lanes.take h ++ ls
  let left := if cap ≤ buf.length then buf.drop cap else buf
  let data (x : List Lane) (eof : BitVec 2) : Packet :=
    if ls = [] then { held with lanes := x, eof := eof, seq := a.seq, tag := a.tag, cov := [] } else { a with lanes := x, eof := eof }
  let keep := if a.eof = 0 then left else []
  let queue : List Packet :=
    if a.eof = 0 then (if cap ≤ buf.length then [data (buf.take cap) 0] else [])
    else if left ≠ [] then (if cap ≤ buf.length then [data (buf.take cap) 0] else []) ++ [data left a.eof]
    else if cap ≤ buf.length then [data (buf.take cap) a.eof]
    else [{ oneLane e 0 with kind := 2, eof := a.eof }]
  let hdr : Packet := if ls = [] then held else { held with fmt := a.fmt, fpx := a.fpx, sc := a.sc, sce := a.sce, kind := a.kind }
  (queue, { hdr with lanes := (if keep = [] then [0] else keep),
                     seq := BitVec.ofNat 16 (held.seq.toNat / 16 * 16 + keep.length), cov := [] })

/-- The lanes of LSWAP (R351). -/
def swapped (g : Nat) (neg : Bool) (ls : List Lane) : List Lane :=
  match g with
  | 0 => ls.map (fun (v : Lane) => ((v <<< 16 ||| v >>> 16) ^^^ (if neg then 0x00008000 else 0) : Lane))
  | 1 => ls.map (fun (v : Lane) => (((v &&& 0x00FF00FF) <<< 8 ||| (v &&& 0xFF00FF00) >>> 8) ^^^ (if neg then 0x00800080 else 0) : Lane))
  | 2 => (List.range ls.length).map (fun i =>
      ls.getD (if i % 2 = 0 then i + 1 else i - 1) 0 ^^^ (if neg ∧ i % 2 = 0 then 0x80000000 else 0))
  | _ => (List.range ls.length).map (fun i =>
      ls.getD ((i + ls.length / 2) % ls.length) 0 ^^^ (if neg ∧ i < ls.length / 2 then 0x80000000 else 0))

/-- The packet, lane and fold instructions (R338, R351, R352, R373, R374). -/
def laneActs : List ActRule :=
  [ ⟨.pkspl, fun f e _ _ =>
        let p := kept e
        let k := fnIm f % 8
        Whole e ∧ k ≤ lastLane p ∧ (p.fmt = 6 ∨ p.fmt = 7 → k % 2 = 0) ∧ (p.fmt = 13 → p.lanes.length = 6 ∧ k = 3),
      fun f e _ _ =>
        { out := some { kept e with lanes := (kept e).lanes.take (fnIm f % 8), eof := 0 },
          second := some { kept e with lanes := (kept e).lanes.drop (fnIm f % 8) } }⟩,
    ⟨.pkmrg, fun f e _ _ =>
        let a := kept e
        let held : Packet := (e.d.get (fnIm f % 4)).getD { lanes := [] }
        let h := if (e.d.get (fnIm f % 4)).isSome then held.seq.toNat % 16 else 0
        a.kind ≠ 2 → ownLenOk a = true ∧ (h ≠ 0 → a.fmt = held.fmt ∧ a.fpx = held.fpx ∧ a.sc = held.sc ∧ a.sce = held.sce),
      fun f e _ _ => { queue := (pkmrgResult f e).1, dreg := some (fnIm f % 4, (pkmrgResult f e).2) }⟩,
    ⟨.pklenGet, fun _ e _ _ => Whole e,
      fun _ e _ _ => { out := some { oneLane e (rawPk e.a).lanes.length with kind := 0, sc := false, sce := 0 } }⟩,
    ⟨.pklenSet, fun f e _ _ =>
        Whole e ∧ ownLenOk { kept e with lanes := ((kept e).lanes ++ List.replicate 8 0).take (fnIm f % 8 + 1) } = true,
      fun f e _ _ => { out := some { kept e with lanes := ((kept e).lanes ++ List.replicate 8 0).take (fnIm f % 8 + 1) } }⟩,
    ⟨.lswap, fun f e _ _ => Whole e ∧ (2 ≤ fnIm f % 4 → (kept e).lanes.length % 2 = 0),
      fun f e _ _ => { out := some { kept e with lanes := swapped (fnIm f % 4) (fnIm f / 4 % 2 == 1) (kept e).lanes } }⟩,
    ⟨.lperm, fun _ e _ _ => Whole e ∧ Control .n32 0xFFFFFF e.b
        ∧ ∀ i < (kept e).lanes.length, controlNumber .n32 e.b / 2 ^ (3 * i) % 8 ≤ lastLane (kept e),
      fun _ e _ _ => { out := some { kept e with lanes := (List.range (kept e).lanes.length).map (fun i =>
        (kept e).lanes.getD (controlNumber .n32 e.b / 2 ^ (3 * i) % 8) 0) } }⟩,
    ⟨.lbcast, fun f e _ _ => Whole e ∧ fnIm f / 8 % 8 ≤ lastLane (kept e),
      fun f e _ _ =>
        let ls := List.replicate (fnIm f % 8 + 1) ((kept e).lanes.getD (fnIm f / 8 % 8) 0)
        { out := some { kept e with lanes := ls } }⟩,
    ⟨.lext, fun f e _ _ => Whole e ∧ fnSub f ≤ lastLane (kept e)
        ∧ (tyIs64 (fnTy f) = true → fnSub f % 2 = 0 ∧ fnSub f + 1 ≤ lastLane (kept e)),
      fun f e _ _ => { out := some { resPk e.a (fnTy f) (((kept e).lanes.drop (fnSub f)).take (unitOf (fnTy f)))
        with kind := 0, sc := false, sce := 0 } }⟩,
    ⟨.lins, fun f e _ _ => Whole e ∧ ownLenOk (rawPk e.b) = true ∧ (rawPk e.b).lanes.length = 1 ∧ fnIm f % 8 ≤ lastLane (kept e) + 1,
      fun f e _ _ =>
        let ls := (kept e).lanes
        let v := (rawPk e.b).lanes.headD 0
        { out := some { kept e with lanes := if fnIm f % 8 = ls.length then ls ++ [v] else ls.set (fnIm f % 8) v } }⟩,
    ⟨.lred, fun f e t n => Sources .fold f e (srcsA e) t n ∧ foldHas f t ∧ (srcFor f t e.a).lanes ≠ [],
      fun f e t n =>
        let vs := spread t n (srcFor f t e.a).lanes
        let r := foldTo e t (fnSub f) vs (vs.length - 1)
        { out := some (resPk e.a t (packLanes t (unitOf t) [r.1])), flags := r.2 }⟩,
    ⟨.lscan, fun f e t n => Sources .fold f e (srcsA e) t n ∧ foldHas f t ∧ (srcFor f t e.a).lanes ≠ [],
      fun f e t n =>
        let vs := spread t n (srcFor f t e.a).lanes
        { out := some (resPk e.a t (packLanes t n ((List.range vs.length).map (fun i => (foldTo e t (fnSub f) vs i).1)))),
          flags := (foldTo e t (fnSub f) vs (vs.length - 1)).2 }⟩,
    ⟨.eofm, fun f _ _ _ => fnIm f / 4 % 4 ≤ 2,
      fun f e _ _ =>
        let level := fnIm f % 4
        { out := some { kept e with eof := BitVec.ofNat 2 (if fnIm f / 4 % 4 = 0 then level
            else if fnIm f / 4 % 4 = 1 then Max.max (kept e).eof.toNat level else Min.min (kept e).eof.toNat level) } }⟩ ]

/-- A K-block folded into an accumulator, with the flags so far (R117 to R120). -/
def dotBlocks {α : Type} (g : Acc → List α → Acc × BitVec 32) (blocks : List (List α)) (start : Acc) : Acc × BitVec 32 :=
  blocks.foldl (fun s b => ((g s.1 b).1, s.2 ||| (g s.1 b).2)) (start, 0)

/-- The scale instructions, dot products and accumulator moves (R120 to R123, R315, R317, R320, R336, R337, R367, R368, R380,
R388, R389, R406). -/
def quantActs : List ActRule :=
  [ ⟨.dot, fun f e t _ =>
        let scaled := fcwMode e.fcw == 2
        srcTy f e.a e.b = some t ∧ t ≠ .any ∧ tySetHas .dot t = true
          ∧ (ownLenOk (srcFor f t e.a) && ownLenOk (srcFor f t e.b)) = true
          ∧ (laneVals t (srcFor f t e.a).lanes).length = (laneVals t (srcFor f t e.b).lanes).length
          ∧ hasTy t (srcFor f t e.a) = true ∧ hasTy t (srcFor f t e.b) = true
          ∧ (srcFor f t e.a).sc = scaled ∧ (srcFor f t e.b).sc = scaled ∧ Control .n32 0x3F (thirdOp e) ∧ fused f e t true ∧ e.node = false,
      fun f e t _ =>
        let n := controlNumber .n32 (thirdOp e)
        let pairs := (laneVals t (srcFor f t e.a).lanes).zip (laneVals t (srcFor f t e.b).lanes)
        let blocks := blocksOf (if t = .f32 then 4 else 32) 64 pairs
        let scaled := fcwMode e.fcw == 2
        let sa := (srcFor f t e.a).sce
        let sb := (srcFor f t e.b).sce
        let start : Acc := if fnSub f = 1 then e.accs.get n else 0
        let r := if tyIsInt t then
            dotBlocks (fun (a : Acc) (b : List (Nat × Nat)) =>
              accumBlockInt a (b.map (fun q => (number t q.1, number t q.2)))) blocks start
          else
            dotBlocks (fun (a : Acc) (b : List (Nat × Nat)) =>
              accumBlock a (b.map (fun q => (real e t q.1, real e t q.2)))
                (if scaled then (sa.toNat : Int) + sb.toNat - 254 else 0) (scaled && (sa == 0xFF || sb == 0xFF))) blocks start
        { out := some { oneLane e n with sc := false, sce := 0 }, acc := [(n, r.1)], flags := r.2 }⟩,
    ⟨.amax, fun f e t _ => t = fnTy f ∧ tyIsFloat t = true ∧ ownLenOk (srcPk t e.a) = true ∧ hasTy t (srcPk t e.a) = true
        ∧ (srcPk t e.a).sc = false ∧ (fnSub f = 1 → (srcPk t e.b).lanes.length = 1 ∧ hasTy .f32 (srcPk t e.b) = true ∧ (srcPk t e.b).sc = false),
      fun f e t _ =>
        let vs := (laneVals t (srcPk t e.a).lanes).map (real e t)
          ++ (if fnSub f = 1 then [real e .f32 ((srcPk t e.b).lanes.headD 0).toNat] else [])
        let best := (vs.filter (fun v => !(isNan v))).foldl
          (fun m v => if fBelow m (fAbsolute v) then fAbsolute v else m) (.fin false 0 0)
        { out := some (resPk e.a .f32 [BitVec.ofNat 32 (if vs.any isNan then 0x7FC00000
            else (roundTy .f32 { rnd := .rne } false false best).1)]),
          flags := if vs.any isSnan then esNV else 0 }⟩,
    ⟨.sclx, fun _ e _ _ => (srcPk .f32 e.a).lanes.length = 1 ∧ hasTy .f32 (srcPk .f32 e.a) = true ∧ (srcPk .f32 e.a).sc = false,
      fun f e _ _ =>
        let v := fAbsolute (real e .f32 ((srcPk .f32 e.a).lanes.headD 0).toNat)
        let r : Nat × BitVec 32 := match v with
          | .fin _ m x =>
            if m = 0 then (0, 0)
            else
              let c := ((Nat.log2 m : Nat) : Int) + x - emaxElem e.inf8 (fnTy f)
              if c < -127 then (0, esSCUND) else if 127 < c then (0xFE, esOF) else ((c + 127).toNat, 0)
          | _ => (0xFE, esNV)
        { out := some (oneLane e r.1), flags := r.2 }⟩,
    ⟨.qnt, fun f e t _ =>
        OwnHeader (tySetHas .wide) e t ∧ Random f e
          ∧ Control .n32 0xFF e.b ∧ controlNumber .n32 e.b ≠ 0xFF
          ∧ (tyIsMx6 (fnTy f) = true → (valuesA e t).length = 16 ∨ (valuesA e t).length = 32),
      fun f e t _ =>
        let c := controlNumber .n32 e.b
        let rs := converted f e t (fnTy f) (127 - (c : Int)) (valuesA e t)
        { out := some { resPk e.a (fnTy f) (packVals (fnTy f) (rs.map (·.1))) with sc := true, sce := BitVec.ofNat 8 c },
          flags := allFlags rs }⟩,
    ⟨.dqnt, fun _ e t _ =>
        ownLenOk (rawPk e.a) = true ∧ tyOfFmt (rawPk e.a).fmt (rawPk e.a).fpx = some t ∧ tySetHas .quant t = true
          ∧ (rawPk e.a).sc = true ∧ Control .n32 0x3F e.b ∧ controlNumber .n32 e.b < (valuesA e t).length,
      fun f e t _ =>
        let i := controlNumber .n32 e.b
        let sce := (rawPk e.a).sce
        let rs := (((valuesA e t).drop i).take (8 * perLane (fnTy f))).map (fun x =>
          roundTy (fnTy f) { rnd := fnRnd e f } e.ftz e.inf8
            (if sce = 0xFF then .nan true else fScale (real e t x) ((sce.toNat : Int) - 127)))
        { out := some { resPk e.a (fnTy f) (packVals (fnTy f) (rs.map (·.1))) with sc := false, sce := 0 }, flags := allFlags rs }⟩,
    ⟨.sclm, fun f e t _ =>
        srcTy f e.a e.b = some t ∧ tySetHas .quant t = true ∧ ownLenOk (srcFor f t e.a) = true ∧ hasTy t (srcFor f t e.a) = true
          ∧ (srcFor f t e.a).sc = (fnSub f == 1) ∧ Control (readTy f t e.b) 0xFF e.b
          ∧ ((fnSub f = 1 ∧ (srcFor f t e.a).sce = 0xFF) ∨ controlNumber (readTy f t e.b) e.b ≠ 0xFF),
      fun f e t _ =>
        let a := srcFor f t e.a
        let c := controlNumber (readTy f t e.b) e.b
        let sum : Int := (a.sce.toNat : Int) + c - 127
        let r : Nat × BitVec 32 :=
          if fnSub f = 1 then
            if a.sce = 0xFF then (0xFF, 0) else if sum < 0 then (0, esSCUND) else if 254 < sum then (0xFE, esOF) else (sum.toNat, 0)
          else (c, 0)
        { out := some { a with sc := true, sce := BitVec.ofNat 8 r.1, cov := [] }, flags := r.2 }⟩,
    ⟨.unp6, fun f e _ _ => ((srcPk (fnTy f) e.a).lanes.length = 3 ∨ (srcPk (fnTy f) e.a).lanes.length = 6)
        ∧ hasTy (fnTy f) (srcPk (fnTy f) e.a) = true,
      fun f e _ _ => { out := some (resPk e.a .n8 (packVals .n8 (laneVals (fnTy f) (srcPk (fnTy f) e.a).lanes))) }⟩,
    ⟨.pck6, fun _ e _ _ => ((srcPk .n8 e.a).lanes.length = 4 ∨ (srcPk .n8 e.a).lanes.length = 8)
        ∧ hasTy .n8 (srcPk .n8 e.a) = true ∧ ∀ v ∈ laneVals .n8 (srcPk .n8 e.a).lanes, v ≤ 63,
      fun f e _ _ => { out := some (resPk e.a (fnTy f) (packVals (fnTy f) (laneVals .n8 (srcPk .n8 e.a).lanes))) }⟩,
    ⟨.nzc, fun f e t _ => srcTy f e.a e.b = some t ∧ t ≠ .any ∧ ownLenOk (litPk (readTy f t e.a) e.a) = true
        ∧ hasTy t (litPk (readTy f t e.a) e.a) = true,
      fun f e t _ =>
        let vs := laneVals t (litPk (readTy f t e.a) e.a).lanes
        let ls := if fnSub f = 1 then natLanes ((vs.length + 31) / 32) (valsBits 1 (vs.map (fun x => if zeroEnc t x then 0 else 1)))
          else [BitVec.ofNat 32 (vs.filter (fun x => !(zeroEnc t x))).length]
        { out := some { resPk e.a .n32 ls with sc := false, sce := 0 } }⟩,
    ⟨.abrd, fun f e _ _ => Control .n32 0x1FF e.a ∧ (tyIs64 (fnTy f) = true → controlNumber .n32 e.a / 64 ≤ 3)
        ∧ controlNumber .n32 e.a % 64 + controlNumber .n32 e.a / 64 + 1 ≤ 64 ∧ e.node = false,
      fun f e _ _ =>
        let v := controlNumber .n32 e.a
        let t := fnTy f
        let rs := (List.range (v / 64 + 1)).map (fun i =>
          if tyIsInt t then saturated t (e.accs.get (v % 64 + i)).toInt
          else roundTy t { rnd := fnRnd e f } e.ftz e.inf8 (a96Val (e.accs.get (v % 64 + i))))
        { out := some (resPk e.a t (packVals t (rs.map (·.1)))), flags := allFlags rs }⟩,
    ⟨.abwr, fun f e t _ => t = fnTy f ∧ tySetHas .acc t = true ∧ ownLenOk (litPk t e.b) = true ∧ hasTy t (litPk t e.b) = true
        ∧ (litPk t e.b).sc = false ∧ Control t 0x3F e.a
        ∧ controlNumber t e.a + (laneVals t (litPk t e.b).lanes).length ≤ 64 ∧ e.node = false,
      fun f e t _ =>
        let n := controlNumber t e.a
        let vs := laneVals t (litPk t e.b).lanes
        let one (i : Nat) : Acc × BitVec 32 :=
          let old := e.accs.get (n + i)
          let x := vs.getD i 0
          if tyIsInt t then intAcc (if fnSub f = 1 then old.toInt + number t x else number t x)
          else if fnSub f = 1 then
            let sum := fAdd false (a96Val old) (real e t x)
            ((a96Round sum.1).1, (a96Round sum.1).2 ||| (if sum.2 then esNV else 0))
          else a96Round (real e t x)
        { out := some (oneLane e (n + vs.length)),
          acc := (List.range vs.length).map (fun i => (n + i, (one i).1)),
          flags := ((List.range vs.length).map (fun i => (one i).2)).foldl (· ||| ·) 0 }⟩ ]

/-- The forwarding, steering, numbering, table and bit-level instructions, STSET and MXTOK (R125, R126, R193, R329, R346, R349,
R356, R364, R365, R372, R384, R392, R393, R396, R398). -/
def flowActs : List ActRule :=
  [ ⟨.fwd, fun _ _ _ _ => True, fun _ e _ _ => { out := some (kept e) }⟩,
    ⟨.steer, fun f e _ _ => Whole e ∧ (kept e).sc = false ∧ Control .n32 3 e.b ∧ controlNumber .n32 e.b ≤ fnIm f % 4,
      fun _ e _ _ => { out := some (kept e), via := some (controlNumber .n32 e.b) }⟩,
    ⟨.splt, fun _ e _ _ => Whole e ∧ (kept e).sc = false,
      fun f e _ _ => { out := some { kept e with seq := e.ctr }, via := some e.ptr, ctr := some (e.ctr + 1),
                       ptr := some ((e.ptr + 1) % (fnIm f % 4 + 1)) }⟩,
    ⟨.join, fun _ _ _ _ => True, fun _ e _ _ =>
        { out := some { fmt := 0, fpx := 0, sc := false, sce := 0, eof := 0, seq := 0, kind := 3, lanes := [0],
                        tag := (match e.a with | .pkt p => p.tag | .const _ | .clear => 0) } }⟩,
    ⟨.seqtCnt, fun _ _ _ _ => True, fun _ e _ _ => { out := some { kept e with seq := e.ctr }, ctr := some (e.ctr + 1) }⟩,
    ⟨.seqtSet, fun _ e _ _ => Control .n32 0xFFFF e.b,
      fun _ e _ _ => { out := some { kept e with seq := BitVec.ofNat 16 (controlNumber .n32 e.b) } }⟩,
    ⟨.seqtGet, fun _ _ _ _ => True,
      fun _ e _ _ => { out := some { oneLane e (rawPk e.a).seq.toNat with kind := 0, sc := false, sce := 0 } }⟩,
    ⟨.stset, fun _ e _ _ => Control .n32 0x3F e.a,
      fun f e _ _ => { stMask := BitVec.ofNat 6 (fnIm f), stVal := BitVec.ofNat 6 (controlNumber .n32 e.a) }⟩,
    ⟨.lutx, fun _ e t n => Sources .int (.ty .n32 0) e (srcsAB e) t n,
      fun f e t n => { out := some (packed e .n32 n (values (.ty .n32 0) (srcsAB e) t n)
        (fun x => lutEval (e.lut.getD {}) (fnIm f == 1) (x.getD 0 0) (x.getD 1 0))) }⟩,
    ⟨.bspl, fun _ e _ _ => hasTy .n32 (rawPk e.a) = true ∧ (rawPk e.a).sc = false,
      fun f e _ _ =>
        let v := (rawPk e.a).lanes.headD 0
        { out := some (resPk e.a .n32 ((List.range (fnIm f % 8 + 1)).map (fun i =>
            if v.getLsbD (fnIm f / 8 + i) then 1 else 0))) }⟩,
    ⟨.bjn, fun f e _ _ => (rawPk e.a).lanes.length = fnIm f % 8 + 1 ∧ (rawPk e.b).lanes.length = 1
        ∧ hasTy .n32 (rawPk e.a) = true ∧ hasTy .n32 (rawPk e.b) = true ∧ (rawPk e.a).sc = false ∧ (rawPk e.b).sc = false,
      fun f e _ _ =>
        let pos := fnIm f / 8
        let v := ((rawPk e.b).lanes.headD 0).toNat
        let ins := valsBits 1 ((rawPk e.a).lanes.map (fun l => l.toNat % 2))
        { out := some (oneLane e (v - bitsFrom v pos (fnIm f % 8 + 1) * 2 ^ pos + ins * 2 ^ pos)) }⟩,
    ⟨.phlx, fun _ e _ _ => ((rawPk e.a).lanes.length = 4 ∨ (rawPk e.a).lanes.length = 8) ∧ hasTy .n32 (rawPk e.a) = true
        ∧ (rawPk e.a).sc = false,
      fun f e _ _ =>
        let q := fnIm f / 32
        let c := (rawPk e.a).lanes.map BitVec.toNat
        let one (x : List Nat) : List Nat := philoxWords x (e.k.get (2 * q)).toNat (e.k.get (2 * q + 1)).toNat
        { out := some (resPk e.a .n32 ((one (c.take 4) ++ (if c.length = 8 then one (c.drop 4) else [])).map (BitVec.ofNat 32))) }⟩,
    ⟨.rngf, fun _ e _ _ => hasTy .n32 (rawPk e.a) = true ∧ (rawPk e.a).sc = false,
      fun _ e _ _ => { out := some (resPk e.a .f32 ((rawPk e.a).lanes.map (fun l =>
        BitVec.ofNat 32 (roundTy .f32 { rnd := .rne } false false (.fin false (l.toNat / 2 ^ 8) (-24))).1))) }⟩,
    ⟨.mxtok, fun f e _ _ => fnIm f / 16 % 2 = 1 → Control .n32 0x1FFF e.a
        ∧ ¬ (4096 ≤ controlNumber .n32 e.a ∧ (e.k.get (2 * (fnIm f / 32))).extractLsb' 26 6 = 5),
      fun f e _ _ =>
        let hi := e.k.get (2 * (fnIm f / 32))
        let lo := e.k.get (2 * (fnIm f / 32) + 1)
        let v := controlNumber .n32 e.a
        { out := some { resPk e.a .n64
            [if fnIm f / 16 % 2 = 1 then
               (BitVec.ofBool (v / 4096 % 2 == 1) ++ lo.extractLsb' 28 3 ++ BitVec.ofNat 12 (v % 4096) ++ lo.extractLsb' 0 16 : BitVec 32)
             else lo, hi] with kind := 2 } }⟩ ]

end Sys2Proof.Claims

section Statements

open Sys2Proof Sys2Proof.Machine Sys2Proof.Claims

/-- The packet, lane and fold instructions each answer a next state with the result of their rule (R338, R351, R352, R373, R374). -/
def Obligations.LaneInstructionsCompute : Prop := ∀ r ∈ laneActs, r.Completes

/-- The dot product, scale and accumulator instructions each answer a next state with the result of their rule (R120 to R123, R315,
R317, R320, R336, R337, R367, R368, R380, R388, R389, R406). -/
def Obligations.ScaleAndAccumulatorInstructionsCompute : Prop := ∀ r ∈ quantActs, r.Completes

/-- The forwarding, steering, numbering, table and bit-level instructions, STSET and MXTOK each answer a next state with the result of
their rule (R125, R126, R193, R329, R346, R349, R356, R364, R365, R372, R384, R392, R393, R396, R398). -/
def Obligations.FlowInstructionsCompute : Prop := ∀ r ∈ flowActs, r.Completes

end Statements

namespace Sys2Proof.Claims

open Sys2Proof.Machine

/-! Every firing that completes in its element. -/

/-- What the firing of each instruction that completes in its element computes. -/
def firings : List ((Slot → Fn → Instr) × (Fn → Env → Except FCode Act)) :=
  [ (.add, addAct), (.adds, addsAct), (.sub, subAct), (.subs, subsAct), (.mul, mulAct), (.mulh, mulhAct), (.mulw, mulwAct),
    (.mad, madAct), (.madw, madwAct), (.neg, negAct), (.abs, absAct), (.min, minAct), (.max, maxAct), (.clamp, clampAct),
    (.and, andAct), (.or, orAct), (.xor, xorAct), (.andn, andnAct), (.not, notAct), (.shl, shlAct), (.shr, shrAct),
    (.sar, sarAct), (.rotl, rotlAct), (.clz, clzAct), (.ctz, ctzAct), (.popc, popcAct), (.brev, brevAct), (.bfx, bfxAct),
    (.bfi, bfiAct), (.cmp, cmpAct), (.sel, selAct), (.qdiv, qdivAct) ] ++
  [ (.fadd, faddAct), (.fsub, fsubAct), (.fmul, fmulAct), (.fma, fmaAct), (.fnma, fnmaAct), (.fmin, fminAct), (.fmax, fmaxAct),
    (.fabs, fabsAct), (.fneg, fnegAct), (.fcmp, fcmpAct), (.fclass, fclassAct), (.frnd, frndAct), (.fcvt, fcvtAct),
    (.fscl, fsclAct), (.fexpn, fexpnAct), (.frcp, frcpAct), (.frsq, frsqAct), (.fsqrt, fsqrtAct), (.fdiv, fdivAct),
    (.fexp2, fexp2Act), (.flog2, flog2Act), (.fsin, fsinAct), (.fcos, fcosAct), (.fsncs, fsncsAct), (.ficv, ficvAct) ] ++
  [ (.pkspl, pksplAct), (.pkmrg, pkmrgAct), (.pklenGet, pklenGetAct), (.pklenSet, pklenSetAct), (.lswap, lswapAct),
    (.lperm, lpermAct), (.lbcast, lbcastAct), (.lext, lextAct), (.lins, linsAct), (.lred, lredAct), (.lscan, lscanAct),
    (.eofm, eofmAct), (.dot, dotAct), (.amax, amaxAct), (.sclx, sclxAct), (.qnt, qntAct), (.dqnt, dqntAct), (.sclm, sclmAct),
    (.unp6, unp6Act), (.pck6, pck6Act), (.nzc, nzcAct), (.abrd, abrdAct), (.abwr, abwrAct) ] ++
  [ (.fwd, fwdAct), (.steer, steerAct), (.splt, spltAct), (.join, joinAct), (.seqtCnt, seqtCntAct), (.seqtSet, seqtSetAct),
    (.seqtGet, seqtGetAct), (.stset, stsetAct), (.lutx, lutxAct), (.bspl, bsplAct), (.bjn, bjnAct), (.phlx, phlxAct),
    (.rngf, rngfAct), (.mxtok, mxtokAct) ]

/-- What a firing leaves alone wherever it runs: memory, its marks and versions, other elements' regions, and what the engines hold
for them. A fault in a steward's region clears what they hold for that region (R269). -/
structure FiringFrame (s t : State) : Prop where
  memory : ∀ a, memByte t.mem a = memByte s.mem a
  words : t.marks = s.marks ∧ t.vers = s.vers ∧ t.ecc = s.ecc ∧ t.relCov = s.relCov
  buffers : isStw (ekRegion s.cur.1) = false → t.descs = s.descs ∧ t.jobs = s.jobs ∧ t.words = s.words
  jobs : t.jobs.filter (fun j => j.tpl.rk != ekRegion s.cur.1) = s.jobs.filter (fun j => j.tpl.rk != ekRegion s.cur.1)
  other : t.vfs = s.vfs ∧ t.agenda = s.agenda ∧ t.draws = s.draws ∧ t.cur = s.cur
  elements : ∀ e, ekRegion e ≠ ekRegion s.cur.1 → t.elem e = s.elem e
  regions : ∀ r, r ≠ ekRegion s.cur.1 → t.region r = s.region r
  dies : ∀ d, d ≠ ekDie s.cur.1 → t.die d = s.die d
  parts : ∀ p, s.pidOf (ekRegion s.cur.1) ≠ some p → t.part p = s.part p

/-- What a firing in a partition's region leaves alone besides: every other element, every die, the panel and its memory requests;
in its own element the constants, the entries, the fusing word, the fences, and every other slot; in its region all but the
prefetch buffer, which an acquire empties (R156). -/
structure UserFrame (s t : State) : Prop where
  frame : FiringFrame s t
  elements : ∀ e, e ≠ s.cur.1 → t.elem e = s.elem e
  machine : t.panel = s.panel ∧ t.dies = s.dies ∧ t.nodes = s.nodes ∧ t.reqs = s.reqs ∧ t.tileQ = s.tileQ
  region : t.region (ekRegion s.cur.1) = s.region (ekRegion s.cur.1)
    ∨ t.region (ekRegion s.cur.1) = { s.region (ekRegion s.cur.1) with prefetch := [] }
  element : (t.elem s.cur.1).k = (s.elem s.cur.1).k ∧ (t.elem s.cur.1).t = (s.elem s.cur.1).t
    ∧ (t.elem s.cur.1).fcw = (s.elem s.cur.1).fcw ∧ (t.elem s.cur.1).fences = (s.elem s.cur.1).fences
    ∧ (t.elem s.cur.1).users = (s.elem s.cur.1).users
  slots : ∀ n, n ≠ s.cur.2 → (t.elem s.cur.1).slots.get n = (s.elem s.cur.1).slots.get n
  flags : (s.elem s.cur.1).es &&& (t.elem s.cur.1).es = (s.elem s.cur.1).es

/-- A packet on its way from a target entry of an element, with the TAG of the entry (R77, R85). -/
def sentFlit (s : State) (e n frm i : Nat) (d : Dest) (p : Packet) : Flit :=
  { pkt := { p with tag := tTag ((s.elem e).t.get i) }, src := some (e, i), slot := n, rk := ekRegion e, frm := frm, dst := d }

/-- The data registers that a firing may write: DT's, and PKMRG's own. -/
def mayWrite (i : Instr) (o : Slot) (f : Fn) (n : Nat) : Prop := o.dt.toNat = n ∨ (i = .pkmrg o f ∧ fnIm f % 4 = n)

end Sys2Proof.Claims

section Statements

open Sys2Proof Sys2Proof.Machine Sys2Proof.Claims

/-- A firing whose operands its instruction turns away, or whose result's way is stopped, takes no effect of its own: its fault is
raised against the slot (R58, R95, R222). -/
def Obligations.FaultingFiringOnlyRaisesItsFault : Prop :=
  ∀ x ∈ firings, ∀ (s : State) (o : Slot) (f : Fn) (c : FCode),
    (x.2 f (seen s o f) = .error c → exec (x.1 o f) s = faulted s c)
    ∧ (∀ a, x.2 f (seen s o f) = .ok a → s.outStop s.cur.1 (a.entries o) = some c → exec (x.1 o f) s = faulted s c)

/-- The frame of every firing that completes in its element: memory and what lies outside its region, its die and its partition are
unchanged; in a partition's region so is every other element, and in its own everything but what its fields name: ST, ES, whose
flags only grow, the accumulators of DOT and ABWR, the data register it writes, its channels and its own slot (R69, R76, R89, R95). -/
def Obligations.FiringFrames : Prop :=
  ∀ x ∈ firings, ∀ (s t : State) (o : Slot) (f : Fn),
    exec (x.1 o f) s = .next t →
    FiringFrame s t
    ∧ (isStw (ekRegion s.cur.1) = false →
        UserFrame s t
        ∧ (∀ n, ¬ mayWrite (x.1 o f) o f n → (t.elem s.cur.1).d.get n = (s.elem s.cur.1).d.get n)
        ∧ (x.1 o f ≠ .dot o f ∧ x.1 o f ≠ .abwr o f → (t.elem s.cur.1).acc = (s.elem s.cur.1).acc))

/-- The checks on the sources of a value-wise instruction run in R87's order: lengths, then formats, then scale tags. A length that
a format or R86 does not allow is F_PKLEN whatever else is wrong; with lengths right, a type that differs, or that the element's fusing
word does not serve (R100), is F_FMT; with types right, a scale tag is F_SCALETAG. -/
def Obligations.SourceChecksRunInOrder : Prop :=
  ∀ r ∈ integerRules ++ floatRules,
    ∀ (s : State) (o : Slot) (f : Fn),
    let e := seen s o f
    let t := (srcTy f e.a e.b).getD .n32
    let ps := (r.srcs e).map (srcFor f t)
    let lengths : Bool := ps.all ownLenOk
      && (lengthRule (unitOf t) (ps.map (fun p => p.lanes.length))).isSome
    let types : Bool := srcTy f e.a e.b == some t && t != .any && tySetHas r.set t
      && ps.all (hasTy t) && (!r.multiplies || !declaredAny f || fcwServes e.fcw t false)
    (lengths = false → exec (r.instr o f) s = faulted s .pkLen)
    ∧ (lengths = true → types = false → exec (r.instr o f) s = faulted s .fmt)
    ∧ (lengths = true → types = true → ps.any (fun p => p.sc) = true →
        exec (r.instr o f) s = faulted s .scaleTag)

/-- A control operand's faults, in their order: a length other than 1, an FMT other than .n32, SC = 1, a bit that its layout marks
zero; otherwise its number (R313). -/
def Obligations.ControlOperandFaultsInOrder : Prop :=
  ∀ (p : Packet) (mask : Nat),
    let v := (p.lanes.headD 0).toNat
    (p.lanes.length ≠ 1 → control mask (.pkt p) = .error .pkLen)
    ∧ (p.lanes.length = 1 → ¬ (p.fmt = 0 ∧ p.fpx = 0) → control mask (.pkt p) = .error .fmt)
    ∧ (p.lanes.length = 1 → p.fmt = 0 ∧ p.fpx = 0 → p.sc = true → control mask (.pkt p) = .error .scaleTag)
    ∧ (p.lanes.length = 1 → p.fmt = 0 ∧ p.fpx = 0 → p.sc = false → v &&& mask ≠ v →
        control mask (.pkt p) = .error .bounds)
    ∧ (p.lanes.length = 1 → p.fmt = 0 ∧ p.fpx = 0 → p.sc = false → v &&& mask = v →
        control mask (.pkt p) = .ok v)

/-- The instructions whose firing is more than a result: MRG takes in one channel alone (R360), STXOR flips bits of ST as the next-state
write leaves it (R398), EXIT counts in its frame (R339), and BND's packet leaves at once, or waits for what
its release covers (R330). MRG and the packet that leaves at once need their way open (R58, R222). -/
def Obligations.SequencingFiringsComplete : Prop :=
  ∀ (s : State) (o : Slot) (f : Fn),
    let e := s.cur.1
    let n := s.cur.2
    let env := seen s o f
    let t := s.trigger e n o o.icn
    let frm := ((s.elem e).slots.get n).frm - 1
    let fr := s.frame (ekRegion e) frm
    (∀ c h, mrgChannel (s.elem e) n f = some c → ((s.elem e).ins.get c).q.head? = some h →
      s.outStop e (entriesOf o.dt o.tt) = none →
      exec (.mrg o f) s = .next ((s.trigger e n o (1#4 <<< c)).complete e n o
        { out := some { h.pkt with cov := [] },
          ctr := if fnIm f / 16 % 2 = 1 then none else some (env.ctr + 1),
          ptr := if fnIm f / 16 % 2 = 1
            then some (nextChannel (fnIm f % 16) c) else none }))
    ∧ (Control .n32 0x3F env.a →
        exec (.stxor o f) s = .next (t.complete e n o
          { stMask := BitVec.ofNat 6 (fnIm f),
            stVal := (t.elem e).st ^^^ BitVec.ofNat 6 (controlNumber .n32 env.a) }))
    ∧ (fr.exits ≠ fr.flags.exitc →
        exec (.exit o f) s = .next (t.modFrame (ekRegion e) frm (fun x =>
          { x with exits := x.exits + 1, code := max x.code (fnIm f),
                   st := if x.exits + 1 = x.flags.exitc then .draining else x.st })))
    ∧ (fr.exits = fr.flags.exitc → exec (.exit o f) s = faulted s .bounds)
    ∧ (let p := { kept env with cov := t.live (t.elem e).cov }
       (fnIm f % 8 ≤ 1 → s.outStop e (entriesOf o.dt o.tt) = none →
          exec (.bnd o f) s = .next (t.deliver e n (t.slotFrame e n) o.dt o.tt p))
       ∧ (2 ≤ fnIm f % 8 → ∃ u, exec (.bnd o f) s = .next u
          ∧ ∃ m, u.bnds = t.bnds ++ [(fnIm f % 8, p.cov, m)] ∧ m.e = e ∧ m.slot = n ∧ m.rk = ekRegion e
            ∧ m.frm = t.slotFrame e n ∧ m.dt = o.dt ∧ m.tt = o.tt ∧ m.hdr = p
            ∧ ∀ c < 4, o.dt.toNat = 4 + c → m.ord = ((t.elem e).outs.get c).no
              ∧ ((u.elem e).outs.get c).tix = ((t.elem e).outs.get c).tix ++ [m.ord]))

/-- BRK and TRAP: their trigger effects stand, then they raise their fault, which is their effect (R331, R405); TRAP's
operand is checked first, for its length and for its scale tag (R84, R87). A TRAP in a partition's region
holds its element alone: the partition's registers do not change, and the record carries the operand (R244, R405). -/
def Obligations.BreakAndTrapRaise : Prop :=
  (∀ (s : State) (o : Slot) (f : Fn),
    let t := s.trigger s.cur.1 s.cur.2 o o.icn
    let a := rawPk (seen s o f).a
    exec (.brk o f) s = .next (t.raiseSlot .brk s.cur.1 s.cur.2)
    ∧ (ownLenOk a = false → exec (.trap o f) s = faulted s .pkLen)
    ∧ (ownLenOk a = true → a.sc = true → exec (.trap o f) s = faulted s .scaleTag)
    ∧ (ownLenOk a = true → a.sc = false → exec (.trap o f) s
        = .next (t.raiseTrap s.cur.1 s.cur.2 ((a.lanes.getD 0 0).toNat + 2 ^ 32 * (a.lanes.getD 1 0).toNat))))
  ∧ (∀ (t : State) (e n v : Nat), isStw (ekRegion e) = false →
    let u := t.raiseTrap e n v
    (u.elem e).hold = .trap t.nextId none ∧ (∀ d, d ≠ e → u.elem d = t.elem d) ∧ u.parts = t.parts
    ∧ ∃ m, u.recs = t.recs ++ [m] ∧ m.id = t.nextId ∧ m.record.code = 0x60 ∧ m.record.detail = v)

/-- A fault raised in a region of a RUNNING partition: its record goes to the steward with the fault's code and place and
its class (3 for an error of memory or of a link), the partition is FROZEN with CAUSE 2 and the code, and the element holds
(R95, R225, R241, R242). -/
def Obligations.FaultFreezesItsPartition : Prop :=
  ∀ (s : State) (c : FCode) (e n pid : Nat),
    isStw (ekRegion e) = false →
    s.pidOf (ekRegion e) = some pid → pState (s.part pid) = 2 →
    ∃ m, (s.raiseSlot c e n).recs = s.recs ++ [m]
      ∧ m.die = ekDie e ∧ m.record.code = c.num ∧ m.record.pid = pid
      ∧ m.record.src = (if c = .link ∨ c = .ecc ∨ c = .syncOver ∨ c = .spillEx then 3 else 0)
      ∧ m.record.place.ex = ekX e ∧ m.record.place.ey = ekY e ∧ m.record.place.slot = n
      ∧ bitsOf ((s.raiseSlot c e n).part pid).pstat 61 3 = 3
      ∧ bitsOf ((s.raiseSlot c e n).part pid).pstat 58 3 = 2
      ∧ bitsOf ((s.raiseSlot c e n).part pid).pstat 48 8 = c.num
      ∧ ((s.raiseSlot c e n).elem e).hold = .fault

/-- NOP (R366): its only effects are those of its trigger; its word has the no-result form, and a nonzero FN is F_ILLEGAL at arm. The
trigger effects, of NOP as of any slot: the next state that NSM gives (R75), the heads of the channels it dequeues and its awaited
fields; the credit of each emptied field starts back to its producer's entry (R76). -/
def Obligations.NopOnlyTriggers : Prop :=
  (∀ (s : State) (o : Slot) (f : Fn), exec (.nop o f) s = .next (s.trigger s.cur.1 s.cur.2 o o.icn))
  ∧ (∀ (o : Slot) (f : Fn), slotOk .nop o f = true → o.dt = 0 ∧ o.tt = 15
      ∧ (o.sa = 15 → (encodeSlot .nop o f).extractLsb' 0 32 = 0x6AFF0F00#32))
  ∧ (∀ (s : State) (r : Nat) (h : Header) (words : List Dword) (extra : List (Target × Packet)) (w : Dword), w ∈ words →
      w.getLsbD 63 = true → w.extractLsb' 24 8 = 0x6A → w.extractLsb' 0 8 ≠ 0 → s.armChecks r h words extra = some .illegal)
  ∧ (∀ (s : State) (e n : Nat) (o : Slot) (chans : BitVec 4),
      let x := s.elem e
      let sl := x.slots.get n
      let y := (s.trigger e n o chans).elem e
      (o.nsm = 0 → y.st = o.ns)
      ∧ (o.nsm = 1 → y.st = (x.st &&& ~~~o.gm) ||| (o.ns &&& o.gm))
      ∧ (o.nsm = 2 → y.st = x.st)
      ∧ (∀ c < 4, (y.ins.get c).q = if chans.getLsbD c then (x.ins.get c).q.drop 1 else (x.ins.get c).q)
      ∧ ((y.slots.get n).l = if sl.aw.getLsbD 0 then none else sl.l)
      ∧ ((y.slots.get n).r = if sl.aw.getLsbD 1 then none else sl.r)
      ∧ ((y.slots.get n).p = if sl.aw.getLsbD 2 then none else sl.p)
      ∧ (∀ h k, sl.aw.getLsbD 0 = true → sl.l = some h → h.src = some k → k ∈ (s.trigger e n o chans).creds)
      ∧ y.acc = x.acc ∧ y.d = x.d ∧ y.es = x.es)

/-- Where a result goes: DT 0 to 3 writes a data register, DT 4 to 7 enqueues in an output channel, behind the places kept there for
results still to come (R90), 8 to 15 sends through a target entry, which spends the entry's credit when the entry names a field (R76). -/
def Obligations.ResultGoesToItsDestination : Prop :=
  ∀ (s : State) (e n frm : Nat) (dt : BitVec 4) (p : Packet),
    (dt.toNat < 4 → ((s.toDt e n frm dt p).elem e).d.get dt.toNat = some { p with cov := [] })
    ∧ (4 ≤ dt.toNat → dt.toNat < 8 →
        let x := (s.elem e).outs.get (dt.toNat - 4)
        let y := ((s.toDt e n frm dt p).elem e).outs.get (dt.toNat - 4)
        (x.tix = [] → y.q = x.q ++ [(p, n)])
        ∧ (x.tix ≠ [] → y.q = x.q ∧ y.tix = x.tix ++ [x.no] ∧ y.early = x.early ++ [(x.no, p, n)]))
    ∧ (∀ d, 8 ≤ dt.toNat → s.destOf e ((s.elem e).t.get (dt.toNat - 8)) = some d → s.sendStop e d = none →
        (s.toDt e n frm dt p).net = s.net ++ [sentFlit s e n frm (dt.toNat - 8) d p]
        ∧ (tFld ((s.elem e).t.get (dt.toNat - 8)) < 3 →
            dt.toNat - 8 ∈ ((s.toDt e n frm dt p).elem e).spent))

/-- A slot is ready only when its guard holds, its awaited fields are full, its output channels have room, and the credits of the
entries it names are held (R72); PKMRG needs two free places in its channel (R374). The trigger stage selects, among the ready slots,
one of the highest effective priority, and among those the first counting on from the slot after the one last selected (R92); it selects
none only where none is ready. -/
def Obligations.ReadySlotsAreSelectedByPriority : Prop :=
  ∀ (s : State) (e : Nat),
    let x := s.elem e
    let pri (n : Nat) : Nat := if (x.slots.get n).aged then 3 else (((x.slots.get n).word).extractLsb' 60 2).toNat
    let place (n : Nat) : Nat := (n + 31 - x.lastSel) % 32
    (∀ (n : Nat) (op : SlotOp) (o : Slot) (f : Fn), decodeSlotParts (x.slots.get n).word = .ok (op, o, f) → s.ready e n = true →
      let sl := x.slots.get n
      sl.frm ≠ 0
      ∧ ((s.frame (ekRegion e) (sl.frm - 1)).st = .firing ∨ (s.frame (ekRegion e) (sl.frm - 1)).st = .draining)
      ∧ x.st &&& o.gm = o.gv &&& o.gm
      ∧ (op ≠ .mrg → ∀ c < 4, o.icn.getLsbD c = true → (x.ins.get c).q ≠ [])
      ∧ (∀ c < 4, o.ocs.getLsbD c = true → (x.outs.get c).q.length + (x.outs.get c).rsv < 4
          ∧ (op = .pkmrg → o.dt.toNat = 4 + c → (x.outs.get c).q.length + (x.outs.get c).rsv + 2 ≤ 4))
      ∧ (o.awt = true → (sl.aw.getLsbD 0 = true → sl.l.isSome = true) ∧ (sl.aw.getLsbD 1 = true → sl.r.isSome = true)
          ∧ (sl.aw.getLsbD 2 = true → sl.p.isSome = true))
      ∧ (op ≠ .splt → op ≠ .steer → (8 ≤ o.dt.toNat → o.dt.toNat - 8 ∉ x.spent) ∧ (o.tt.toNat < 8 → o.tt.toNat ∉ x.spent)))
    ∧ (x.lastSel < 32 → (∀ n, s.select e = some n → n < 32 ∧ s.ready e n = true
        ∧ ∀ m < 32, s.ready e m = true → pri m ≤ pri n ∧ (pri m = pri n → place n ≤ place m)))
    ∧ (s.select e = none ↔ ∀ n < 32, s.ready e n = false)

end Statements

namespace Sys2Proof.Claims

open Sys2Proof.Machine

/-! Firings that reach memory. -/

/-- The element and slot in progress after the trigger effects of their firing. -/
def triggered (s : State) (o : Slot) : State := s.trigger s.cur.1 s.cur.2 o o.icn

/-- A packet source as an instruction without a type reads it (R74). -/
def lanesOf (x : Operand) : List Lane := (rawPk x).lanes

/-- An unscaled packet of n lanes of a type (R87). -/
def Exact (n : Nat) (t : Ty) (x : Operand) : Prop :=
  (rawPk x).lanes.length = n ∧ hasTy t (rawPk x) = true ∧ (rawPk x).sc = false

/-- A virtual address operand that R143 accepts: bits above 56 zero, aligned. -/
def Address (x : Operand) (align : Nat) : Prop := Exact 2 .n64 x ∧ lanesNat (lanesOf x) < 2 ^ 57 ∧ lanesNat (lanesOf x) % align = 0

/-- A request left behind by the firing in progress, after its trigger effects and whatever else it did. -/
def requested (s t : State) (o : Slot) (hdr : Packet) (writes : Bool) (q : Req) : State :=
  t.request s.cur.1 s.cur.2 o hdr writes q

/-- The operand of an atomic: one word, or one doubleword under W64, of a type that the sub-code allows (R321), and under CAS the
compared value in P, of its format and length. -/
def AtomOperand (sub : Nat) (w64 : Bool) (e : Env) : Prop :=
  (rawPk e.b).lanes.length = (if w64 then 2 else 1) ∧ (rawPk e.b).sc = false
    ∧ (if w64 then sub ≤ 7 ∧ (hasTy .n64 (rawPk e.b) = true ∨ hasTy .s64 (rawPk e.b) = true)
       else if sub = 8 then hasTy .f32 (rawPk e.b) = true
       else hasTy .n32 (rawPk e.b) = true ∨ hasTy .s32 (rawPk e.b) = true ∨ (6 ≤ sub ∧ hasTy .f32 (rawPk e.b) = true))
    ∧ (∀ p, e.p = some p → sub = 7 → p.lanes.length = (rawPk e.b).lanes.length ∧ p.fmt = (rawPk e.b).fmt
        ∧ p.fpx = (rawPk e.b).fpx ∧ p.sc = false)

/-- The compared value of an atomic, zero where P holds none. -/
def compared (e : Env) : Nat := match e.p with | some q => lanesNat q.lanes | none => 0

/-- A buffer's answer to a firing that reads: tile memory answers in the pipeline, a QB or DB from its controller (R314); with the
values comes what their writes released (R158). -/
def answered (s t : State) (o : Slot) (v : BView) (cov : List Nat) (p : Packet) : Host.Outcome State Fault Refusal :=
  .next (if v.tile then (t.complete s.cur.1 s.cur.2 o { out := some p }).saw s.cur.1 cov
    else requested s t o {} false { op := .answer, phase := .resp, res := some p, cov := cov })

/-- The fault of a write to a buffer: of the firing in tile memory, else carried by the controller's answer (R314). -/
def bufferFault (s : State) (o : Slot) (v : BView) (c : FCode) : Host.Outcome State Fault Refusal :=
  if v.tile then faulted s c
  else .next (requested s (triggered s o) o {} false { op := .answer, phase := .resp, err := some c })

/-- The binding that the firing in progress names, its ring and its bytes. -/
def bound (s : State) (f : Fn) : BView := s.view s.cur.1 s.cur.2 (fnIm f % 8)

/-- The region, frame and binding number of the firing in progress. -/
def place (s : State) (f : Fn) : Nat × Nat × Nat := (ekRegion s.cur.1, s.slotFrame s.cur.1 s.cur.2, fnIm f % 8)

/-- n lanes that the firing in progress reads in its binding: at the tile's bank, or, of a QB or DB, of each byte the newest of the
posted writes that its region sees, and the controller's where there is none (R155). -/
def lanesAt (s : State) (v : BView) (a n : Nat) : List Lane :=
  if v.tile then memLanes s.mem a n
  else (List.range n).map (fun i => BitVec.ofNat 32 (bytesVal ((List.range 4).map (fun j =>
    nearByte s.mem (s.nearWrites (rkDie (ekRegion s.cur.1)) (some (ekRegion s.cur.1))) (a + 4 * i + j)))))

/-- The ring of the firing's binding put in place. -/
def ringSet (s t : State) (f : Fn) (x : Ring) : State := t.setRing (place s f).1 (place s f).2.1 (place s f).2.2 x

/-- The way of the result of a firing that completes in its element is open (R58, R222). -/
def resultOpen (s : State) (o : Slot) : Prop := s.outStop s.cur.1 (entriesOf o.dt o.tt) = none

end Sys2Proof.Claims

section Statements

open Sys2Proof Sys2Proof.Machine Sys2Proof.Claims

/-- LDG, STG, ATG and the sync instructions, on operands that R87 and R143 accept, leave a request with their address, size and data;
those that write are covered by the element's later releases (R158, R314, R321, R354, R397, R400). -/
def Obligations.GlobalAccessesIssueRequests : Prop :=
  ∀ (s : State) (o : Slot) (f : Fn),
    let env := seen s o f
    let t := triggered s o
    let va := lanesNat (lanesOf env.a)
    let size := 4 * 2 ^ fnSub f
    let synced := t.noteSync (ekRegion s.cur.1) va
    let b := litPk (fnTy f) env.b
    (Address env.a size → exec (.ldg o f) s = .next (requested s t o (hdrOf env.a) false { op := .load (fnTy f), va := va, size := size }))
    ∧ (Address env.a size → b.lanes.length = 2 ^ fnSub f → ownLenOk b = true → hasTy (fnTy f) b = true →
        exec (.stg o f) s = .next (requested s t o (hdrOf env.a) true
          { op := .store, va := va, size := size, data := laneBytes b.lanes, res := some (word32 env.a 0) }))
    ∧ (Address env.a (if atgW64 f then 8 else 4) → AtomOperand (atomSub f) (atgW64 f) env → ∃ u, exec (.atg o f) s = .next u
        ∧ (∃ q, u.reqs = t.reqs ++ [q] ∧ q.id = t.nextId ∧ q.va = va ∧ q.size = (if atgW64 f then 8 else 4) ∧ q.phase = .xlat
            ∧ q.op = .atomic (atomSub f) (signedFmt (rawPk env.b)) (atgAcq f) (atgRel f) (lanesNat (lanesOf env.b)) (compared env))
        ∧ (atgAcq f = true → { reqs := [t.nextId] } ∈ (u.elem s.cur.1).fences))
    ∧ (Address env.a 16 → Exact 2 .n32 env.b →
        let w := lanesNat (lanesOf env.b)
        exec (.sya o f) s = .next (requested s synced o (hdrOf env.a) true
          { op := .sya (w % 2 ^ 40) (w / 2 ^ 40 % 2 ^ 8) (w / 2 ^ 48 % 2 ^ 16), va := va, size := 16, res := some (word32 env.a 0) }))
    ∧ (Address env.a 16 → Exact 1 .n32 env.b → exec (.syadd o f) s = .next (requested s synced o (hdrOf env.a) true
        { op := .syadd (lanesNat (lanesOf env.b)), va := va, size := 16, res := some (word32 env.a 0),
          cov := t.live (t.elem s.cur.1).cov }))
    ∧ (Address env.a 16 → Control .n32 0xFFFF env.b → exec (.sywch o f) s = .next (requested s synced o (hdrOf env.a) false
        { op := .sywch (controlNumber .n32 env.b), va := va, size := 16, res := some (word32 env.a (controlNumber .n32 env.b)) }))

/-- An address with a bit above 56 set raises F_NONCANON, and one with those bits clear that is not aligned to the access size raises
F_ALIGN, with the address in the record; the firing takes no other effect (R95, R143, R145, R152). -/
def Obligations.AddressFaultsCarryTheAddress : Prop :=
  ∀ (s : State) (o : Slot) (f : Fn), Exact 2 .n64 (seen s o f).a →
    let env := seen s o f
    let va := lanesNat (lanesOf env.a)
    let stopped (c : FCode) : Host.Outcome State Fault Refusal := .next (s.raiseAccess c s.cur.1 s.cur.2 va)
    let both (i : Instr) (align : Nat) : Prop :=
      (2 ^ 57 ≤ va → exec i s = stopped .nonCanon) ∧ (va < 2 ^ 57 → va % align ≠ 0 → exec i s = stopped .align)
    both (.ldg o f) (4 * 2 ^ fnSub f)
    ∧ ((litPk (fnTy f) env.b).lanes.length = 2 ^ fnSub f → ownLenOk (litPk (fnTy f) env.b) = true →
        hasTy (fnTy f) (litPk (fnTy f) env.b) = true → both (.stg o f) (4 * 2 ^ fnSub f))
    ∧ (AtomOperand (atomSub f) (atgW64 f) env → both (.atg o f) (if atgW64 f then 8 else 4))
    ∧ (Exact 2 .n32 env.b → both (.sya o f) 16)
    ∧ (Exact 1 .n32 env.b → both (.syadd o f) 16 ∧ both (.sywch o f) 16)

/-- What a request put on its way is: the last of the requests, with a number of its own and the firing that awaits it; the places of
its result are kept, in an output channel in the order of the firings (R90, R314). A request that writes is covered by the element's
later releases, and releases what its last FNC covered (R158). Memory does not change. -/
def Obligations.RequestAwaitsItsAnswer : Prop :=
  ∀ (t : State) (e n : Nat) (o : Slot) (hdr : Packet) (writes : Bool) (q : Req),
    let u := t.request e n o hdr writes q
    (∃ m : Req, u.reqs = t.reqs ++ [m] ∧ { m with id := q.id, ret := q.ret, cov := q.cov } = q ∧ m.id = t.nextId
      ∧ m.ret = { e := e, slot := n, rk := ekRegion e, frm := ((t.elem e).slots.get n).frm - 1, dt := o.dt, tt := o.tt, hdr := hdr,
                  ord := m.ret.ord }
      ∧ (∀ c < 4, o.dt.toNat = 4 + c → m.ret.ord = ((t.elem e).outs.get c).no
          ∧ ((u.elem e).outs.get c).tix = ((t.elem e).outs.get c).tix ++ [m.ret.ord])
      ∧ (writes = false → m.cov = q.cov)
      ∧ (writes = true → ∀ i, i ∈ m.cov ↔ i ∈ q.cov ∨ i ∈ t.live (t.elem e).fenced))
    ∧ u.nextId = t.nextId + 1
    ∧ (writes = true → t.nextId ∈ (u.elem e).cov)
    ∧ (8 ≤ o.dt.toNat → tFld ((t.elem e).t.get (o.dt.toNat - 8)) < 3 → o.dt.toNat - 8 ∈ (u.elem e).spent)
    ∧ (4 ≤ o.dt.toNat → o.dt.toNat < 8 → ((u.elem e).outs.get (o.dt.toNat - 4)).rsv = ((t.elem e).outs.get (o.dt.toNat - 4)).rsv + 1)
    ∧ u.mem = t.mem ∧ u.regions = t.regions ∧ u.parts = t.parts ∧ u.net = t.net ∧ ∀ d, d ≠ e → u.elem d = t.elem d

/-- LDB, BFST and BFSET each answer a next state: a read gives the bytes of the sub-buffer at the consumer pointer as the region sees
them (R155), in the binding's format and with source a's TAG (R85), a stream read moves its cursor; BFST gives a sub-buffer's state and
fill mark; BFSET.full fills the producer's, BFSET.empty empties the consumer's, at stage W in a binding of any level, after the commit
that falls in its cycle (R133; log entries 122 and 125 are the model's), and each in another state faults F_BUFSTATE. A stream LDB of a
sub-buffer not yet readable, an LDB that must come after an older access of its element or after a write it would not yet find, and a
BFSET before whose sub-buffer a request of a tile is still to be done, wait in their place (R72, R132, R135, R155, R157, R327, R328,
R353; log entries 55 and 123). The way of a result that leaves at once is open (R58). -/
def Obligations.BufferReadsComplete : Prop :=
  ∀ (s : State) (o : Slot) (f : Fn),
    let env := seen s o f
    let t := triggered s o
    let v := bound s f
    let x := v.ring
    let n := fnIm f / 8 % 8 + 1
    let r := ekRegion s.cur.1
    let packet (off : Nat) (eof : BitVec 2) : Packet :=
      { fmt := v.b.shape.fmt, fpx := v.b.shape.fpx, tag := (hdrOf env.a).tag, lanes := lanesAt s v (v.consAt off) n, eof := eof }
    let waits (off : Nat) : Bool := s.bndWaits v s.cur.1 (v.consAt off) (4 * n)
    let clear (off : Nat) : Prop := waits off = false ∧ s.hitsMark v (v.consAt off) (4 * n) = false
      ∧ s.eccBad (v.consAt off) (4 * n) = false
    let cov (off : Nat) : List Nat := s.readCov r 0 (v.consAt off) (4 * n)
    let readable : Prop := x.atCons.st = .full ∨ x.atCons.st = .draining
    let c := t.commitFirst (place s f).1 (place s f).2.1 o
    let y := c.ringOf (place s f).1 (place s f).2.1 (place s f).2.2
    let depth := (c.bnd (place s f).1 (place s f).2.1 (place s f).2.2).shape.depth
    let changed (z : Ring) (i : Nat) : Host.Outcome State Fault Refusal :=
      .next ((ringSet s c f z).complete s.cur.1 s.cur.2 o { out := some (word32 env.a i) })
    let free : Prop := s.tilePending s.cur.1 s.cur.2 (fnIm f % 8) = false
    (v.b.shape.mode ≠ 0 → Control .n32 0x3FFFFFF env.a → readable → controlNumber .n32 env.a % 4 = 0 →
        controlNumber .n32 env.a + 4 * n ≤ x.atCons.mark → clear (controlNumber .n32 env.a) → (v.tile = true → resultOpen s o) →
        exec (.ldb o f) s = answered s t o v (cov (controlNumber .n32 env.a)) (packet (controlNumber .n32 env.a) 0))
    ∧ (v.b.shape.mode = 0 → readable → x.ccur + 4 * n ≤ x.atCons.mark → clear x.ccur → (v.tile = true → resultOpen s o) →
        exec (.ldb o f) s = answered s
          ((ringSet s t f (x.streamRead v.b.shape.depth n)).modBnd (place s f).1 (place s f).2.1 (place s f).2.2
            (fun b => { b with ahead := b.ahead - 1 }))
          o v (cov x.ccur) (packet x.ccur (if x.ccur + 4 * n = x.atCons.mark then 1 else 0)))
    ∧ (v.b.shape.mode = 0 → ¬ readable ∨ waits x.ccur = true → exec (.ldb o f) s = .next s)
    ∧ (v.b.shape.mode ≠ 0 → Control .n32 0x3FFFFFF env.a → waits (controlNumber .n32 env.a) = true → exec (.ldb o f) s = .next s)
    ∧ (let i := if fnIm f / 8 % 2 = 1 then x.cons else x.prod
       (v.tile = true → resultOpen s o) →
       exec (.bfst o f) s = answered s t o v [] (words32 env.a [(x.sub i).st.code + 4 * i,
         if (x.sub i).st = .full ∨ (x.sub i).st = .draining then (x.sub i).mark else 0]))
    ∧ (free → y.atProd.st = .filling → resultOpen s o → exec (.bfsetFull o f) s = changed (y.fill depth y.atProd.mark) y.prod)
    ∧ (free → y.atProd.st ≠ .filling → exec (.bfsetFull o f) s = faulted s .bufState)
    ∧ (free → y.atCons.st = .full ∨ y.atCons.st = .draining → resultOpen s o →
        exec (.bfsetEmpty o f) s = changed (y.drain depth) y.cons)
    ∧ (free → ¬ (y.atCons.st = .full ∨ y.atCons.st = .draining) → exec (.bfsetEmpty o f) s = faulted s .bufState)
    ∧ (¬ free → exec (.bfsetFull o f) s = .next s ∧ exec (.bfsetEmpty o f) s = .next s)

/-- STB, in both modes: the producer's sub-buffer takes the lanes at the cursor or at the offset, its state and fill mark move as R132
gives, the bytes release what the element's last FNC covered (R158), and the result is the end of the write. In tile memory the bytes
are stored in the pipeline and no other byte of memory changes; a write to a QB or DB enters the region's first posting point, where the
region's prefetched bytes follow it (R155, R156), its result comes from the controller, and no byte of memory changes yet (R132, R135,
R314, R395). A stream STB of a sub-buffer not yet writable, and one that must come after an older access of its element or after a
write it would not find, waits in its place (R72, R132, R155, R157; log entries 55 and 123); a random STB of one not writable faults
F_BUFSTATE. -/
def Obligations.BufferWriteStoresItsLanes : Prop :=
  ∀ (s : State) (o : Slot) (f : Fn),
    let env := seen s o f
    let t := triggered s o
    let v := bound s f
    let x := v.ring
    let ls := lanesOf env.a
    let writable : Prop := x.atProd.st = .empty ∨ x.atProd.st = .filling
    let waits (off : Nat) : Prop := s.bndWaits v s.cur.1 (v.prodAt off) (4 * ls.length) = true
    let stored (off : Nat) (z : Ring) : Prop :=
      let a := v.prodAt off
      let u := ringSet s t f z
      let p := word32 env.a (off + 4 * ls.length)
      (v.tile = true → resultOpen s o →
        exec (.stb o f) s = .next (((u.write a (laneBytes ls)).setCov a (4 * ls.length) (u.live (u.elem s.cur.1).fenced)).complete
          s.cur.1 s.cur.2 o { out := some p })
        ∧ ∀ w, exec (.stb o f) s = .next w → ∀ b, ¬ (a ≤ b ∧ b < a + 4 * ls.length) → memByte w.mem b = memByte s.mem b)
      ∧ (v.tile = false →
        exec (.stb o f) s = .next (requested s (u.putLines (ekRegion s.cur.1) a (laneBytes ls)) o {} true
          { op := .put, phase := .rwb, gpa := u.windowGpa a, word := a, size := 4 * ls.length, data := laneBytes ls, res := some p })
        ∧ ∀ w, exec (.stb o f) s = .next w → ∀ b, memByte w.mem b = memByte s.mem b)
    let offset : Prop := Control .n32 0x3FFFFFF env.b
    let off := controlNumber .n32 env.b
    let source : Prop := v.hasFmt (rawPk env.a) = true ∧ ownLenOk (rawPk env.a) = true
    (source → writable → v.b.shape.mode ≠ 0 → offset → off % 4 = 0 → off + 4 * ls.length ≤ v.sub → ¬ waits off →
        s.hitsMark v (v.prodAt off) (4 * ls.length) = false → stored off (x.wrote (off + 4 * ls.length)))
    ∧ (source → writable → v.b.shape.mode = 0 → x.pcur + 4 * ls.length ≤ v.sub → ¬ waits x.pcur →
        s.hitsMark v (v.prodAt x.pcur) (4 * ls.length) = false →
        stored x.pcur { x.wrote (x.pcur + 4 * ls.length) with pcur := x.pcur + 4 * ls.length })
    ∧ (v.b.shape.mode = 0 → ¬ writable ∨ waits x.pcur → exec (.stb o f) s = .next s)
    ∧ (v.b.shape.mode ≠ 0 → offset → waits off → exec (.stb o f) s = .next s)
    ∧ (source → ¬ writable → v.b.shape.mode ≠ 0 → offset → ¬ waits off → exec (.stb o f) s = bufferFault s o v .bufState)

/-- The versioned accesses and the requests of a tile, on operands that R87 and R313 accept within their binding, leave a request: LDV,
STV and RCLM at their word, GATH, SCAT and ATB in the queue of their tile; SCAT and ATB move the fill mark (R132, R141, R160, R321,
R347, R355, R382, R387, R399). -/
def Obligations.VersionedAndTileAccessesIssueRequests : Prop :=
  ∀ (s : State) (o : Slot) (f : Fn),
    let env := seen s o f
    let t := triggered s o
    let v := bound s f
    let off := controlNumber .n32 env.a
    let ver := controlNumber .n32 env.b
    let hdr : Packet := { hdrOf env.a with fmt := v.b.shape.fmt, fpx := v.b.shape.fpx, sc := false }
    let word : Prop := Control .n32 0x3FFFFFF env.a ∧ Control .n32 0xFF env.b ∧ off % 8 = 0 ∧ off + 8 ≤ v.b.shape.size
    let offs := (lanesOf env.a).map BitVec.toNat
    let stop := offs.foldl (fun m x => Max.max m (x + 4)) 0
    let moved (stop : Nat) : State := t.setRing (place s f).1 (place s f).2.1 (place s f).2.2 (v.ring.wrote stop)
    let writable : Prop := v.ring.atProd.st = .empty ∨ v.ring.atProd.st = .filling
    (word → exec (.ldv o f) s = .next (requested s t o hdr false
        { op := .ldv ver, phase := .wait, word := v.base + off, size := 8, res := some (word32 env.a ver) }))
    ∧ (word → (rawPk (thirdOp env)).lanes.length = 2 → v.hasFmt (rawPk (thirdOp env)) = true →
        ownLenOk (rawPk (thirdOp env)) = true → (rawPk (thirdOp env)).sc = false →
        exec (.stv o f) s = .next (requested s t o hdr true
          { op := .stv ver, phase := .wait, word := v.base + off, size := 8, data := laneBytes (rawPk (thirdOp env)).lanes,
            res := some (word32 env.a ver), cov := t.live (t.elem s.cur.1).cov }))
    ∧ (word → exec (.rclm o f) s = .next (requested s t o hdr true
        { op := .rclm ver, phase := .wait, word := v.base + off, size := 8, res := some (word32 env.a ver),
          cov := t.live (t.elem s.cur.1).cov }))
    ∧ (hasTy .n32 (rawPk env.a) = true → (rawPk env.a).sc = false → (v.ring.atCons.st = .full ∨ v.ring.atCons.st = .draining) →
        (∀ x ∈ offs, x % 4 = 0 ∧ x + 4 ≤ v.ring.atCons.mark) →
        exec (.gath o f) s = .next (t.tileRequest s.cur.1 s.cur.2 o (hdrOf env.a) v
          { kind := 0, offs := offs.map (fun x => v.b.shape.base + v.ring.cons * v.sub + x), left := List.range offs.length,
            fmt := v.b.shape.fmt, fpx := v.b.shape.fpx, bnd := fnIm f % 8, buf := v.ring.cons, stop := stop }))
    ∧ (hasTy .n32 (rawPk env.a) = true → (rawPk env.a).sc = false → v.hasFmt (rawPk env.b) = true →
        ownLenOk (rawPk env.b) = true → (rawPk env.b).sc = false → (lanesOf env.b).length = offs.length → writable → (∀ x ∈ offs, x % 4 = 0 ∧ x + 4 ≤ v.sub) →
        exec (.scat o f) s = .next ((moved stop).tileRequest s.cur.1 s.cur.2 o (hdrOf env.a) v
          { kind := 1, offs := offs.map (fun x => v.b.shape.base + v.ring.prod * v.sub + x), data := lanesOf env.b,
            left := List.range offs.length, bnd := fnIm f % 8, buf := v.ring.prod, stop := stop }))
    ∧ (Exact 1 .n32 env.a → AtomOperand (atomSub f) (atomW64 f) env → writable →
        let size := if atomW64 f then 8 else 4
        lanesNat (lanesOf env.a) % size = 0 → lanesNat (lanesOf env.a) + size ≤ v.sub →
        exec (.atb o f) s = .next ((moved (lanesNat (lanesOf env.a) + size)).tileRequest s.cur.1 s.cur.2 o
          { hdrOf env.a with fmt := (rawPk env.b).fmt, fpx := (rawPk env.b).fpx } v
          { kind := 2, offs := [v.b.shape.base + v.ring.prod * v.sub + lanesNat (lanesOf env.a)], left := [0], sub := atomSub f,
            signed := signedFmt (rawPk env.b), size := size, b := lanesNat (lanesOf env.b), p := compared env,
            bnd := fnIm f % 8, buf := v.ring.prod, stop := lanesNat (lanesOf env.a) + size }))

/-- FNC empties the region's prefetch buffer, acquires what the writes that its element has read released (R158, R169), and leaves a
fence on its element that waits for the reads and atomics under way and for the writes it covers (R168, R345); PFG may fill lines of the prefetch buffer and does nothing else (R156, R369). -/
def Obligations.FenceAndPrefetchComplete : Prop :=
  ∀ (s : State) (o : Slot) (f : Fn),
    let t := triggered s o
    let r := ekRegion s.cur.1
    let ids := ((t.elem s.cur.1).cov ++ (t.elem s.cur.1).seen).eraseDups
    (∃ u, exec (.fnc o f) s = .next u ∧ (u.region r).prefetch = []
      ∧ { tier := fnIm f % 8, reqs := t.incomplete s.cur.1, writes := t.unanswered ids } ∈ (u.elem s.cur.1).fences
      ∧ (u.elem s.cur.1).cov = ids ∧ (u.elem s.cur.1).seen = [] ∧ (u.elem s.cur.1).fenced = t.unanswered ids
      ∧ u.mem = t.mem ∧ u.reqs = t.reqs ∧ ∀ d, d ≠ s.cur.1 → u.elem d = t.elem d)
    ∧ (∃ u, exec (.pfg o f) s = .next u ∧ u.mem = t.mem ∧ u.elems = t.elems ∧ u.reqs = t.reqs ∧ u.parts = t.parts ∧ u.net = t.net
      ∧ ∀ q, { u.region q with prefetch := [] } = { t.region q with prefetch := [] })

end Statements

namespace Sys2Proof.Claims

open Sys2Proof.Machine

/-! Firings of the islands and of matrix nodes. -/

/-- A firing turned away by an island or a tile: its answer carries the fault (R314). -/
def refusedAt (s : State) (o : Slot) (c : FCode) : Host.Outcome State Fault Refusal :=
  .next (requested s (triggered s o) o {} false { op := .answer, phase := .resp, err := some c })

/-- A firing that an island has carried out: its answer, a word, is on its way (R314, R333). -/
def islandDone (s t : State) (o : Slot) (f : Fn) (v : Nat) : Host.Outcome State Fault Refusal :=
  .next (requested s t o {} false { op := .answer, phase := .resp, res := some (word32 (seen s o f).a v) })

/-- The copy island that a firing names, and the island with a change after the trigger effects. -/
def copyIsland (s : State) (f : Fn) : Island := s.island (rkDie (ekRegion s.cur.1)) (cpEdge f)
def copyIslandWith (s : State) (o : Slot) (f : Fn) (g : Island → Island) : State :=
  (triggered s o).modIsland (rkDie (ekRegion s.cur.1)) (cpEdge f) g

/-- The template that a firing's frame holds in a slot of the island. -/
def heldTemplate (s : State) (f : Fn) (slot : Nat) : Option Template :=
  (copyIsland s f).held slot (ekRegion s.cur.1) (s.slotFrame s.cur.1 s.cur.2)

/-- The frame of the firing in progress. -/
def firingFrame (s : State) : Frame := s.frame (ekRegion s.cur.1) (s.slotFrame s.cur.1 s.cur.2)

/-- The template that CPARM arms: the record of IDX, held by the firing's frame, with its credits (R175, R176, R301). -/
def armedTemplate (s : State) (f : Fn) : Template :=
  let r := ekRegion s.cur.1
  { id := s.nextId + 1, rk := r, frm := s.slotFrame s.cur.1 s.cur.2, e := s.cur.1, slot := s.cur.2,
    pid := (s.pidOf r).getD 255, lnch := (s.region r).lnch, words := (firingFrame s).data.get (64 + fnIm f % 64) }

/-- A firing that completes in its element once it has changed the state after its trigger effects. -/
def completedAt (s t : State) (o : Slot) (p : Packet) : Host.Outcome State Fault Refusal :=
  .next (t.complete s.cur.1 s.cur.2 o { out := some p })

/-- A tile of accumulators: which, and the frame of a command that touches no other. -/
def tileAt (s : State) (t : MTok) (x : Nat) : Prop :=
  t.abase.toNat ≤ x ∧ x < t.abase.toNat + tileDim t.mc.toNat * tileDim t.nc.toNat ∧ x < (s.node s.cur.1).accs

/-- What every command of a node leaves: its head has left the queue, and with it what it released has reached the node (R158, R162), its flags are added to the anchor's, its notify token is to be
sent where it asks for one, no accumulator outside its tile and no byte of memory has changed (R187, R191). -/
structure CommandDone (s u : State) (t : MTok) (fl : BitVec 32) : Prop where
  acquired : ∀ i, i ∈ (u.node s.cur.1).cov ↔ i ∈ (s.node s.cur.1).cov ∨ ∃ c, (s.node s.cur.1).cmds.head? = some c ∧ i ∈ c.cov
  queue : (u.node s.cur.1).cmds = (s.node s.cur.1).cmds.drop 1
  flags : (u.elem s.cur.1).es = (s.elem s.cur.1).es ||| (fl &&& esMask)
  notify : ∃ cov, (u.node s.cur.1).sends = (s.node s.cur.1).sends
    ++ if t.ntf then [({ lanes := [BitVec.ofNat 32 t.abase.toNat], cov := cov }, (s.node s.cur.1).notify)] else []
  others : ∀ x, x < (s.node s.cur.1).accs → ¬ tileAt s t x →
    u.nodeAcc s.cur.1 (s.node s.cur.1).size x = s.nodeAcc s.cur.1 (s.node s.cur.1).size x
  memory : ∀ a, memByte u.mem a = memByte s.mem a

/-- Row i of operand A and column j of operand B (R188, R189). -/
def rowA (t : MTok) (m : MulIn) (i : Nat) : List Nat := (m.va.drop (i * (32 * t.kb.toNat))).take (32 * t.kb.toNat)
def columnB (opc : Nat) (t : MTok) (m : MulIn) (j : Nat) : List Nat :=
  (List.range (32 * t.kb.toNat)).map (fun k => m.valueB opc t
    (if opc = 2 then [] else valuesOf m.b.bits (tileDim t.nc.toNat * (32 * t.kb.toNat)) m.vb) k j)

/-- The scales of the K-blocks of row i and column j; none for a command without scales. -/
def scalesAt (t : MTok) (m : MulIn) (i j : Nat) : List (Nat × Nat) :=
  if m.sa.isEmpty then [] else (List.range t.kb.toNat).map (fun b =>
    ((m.sa.getD (i * t.kb.toNat + b) 127).toNat, (m.sb.getD (j * t.kb.toNat + b) 127).toNat))

/-- A multiply command whose checks pass and whose operands can be read leaves in each accumulator of its tile the accumulation, in
K-blocks, of row i of A with column j of B, on the accumulator's value under ACC and else on zero. -/
def Multiplies (opc : Nat) (i : MTok → Instr) : Prop :=
  ∀ (s r : State) (t : MTok) (a b : MFmt) (m : MulIn),
    let e := s.cur.1
    let n := s.node e
    let fcw := (s.elem e).fcw
    let fr := s.frame n.rk n.frm
    let side := (patternOf t.nms.toNat).2
    n.size ∈ [1, 2, 4, 8] → s.nodeFree e = true → nodeCheck n fcw opc t = .ok () → mulFmts opc fcw t = some (a, b) →
    s.readOperands n opc t fcw a b = .ok (r, m) →
    (opc = 2 → weightsOk t.nms.toNat b.bits (tileDim t.nc.toNat * (32 * t.kb.toNat) / (side * side)) m.vb = true) →
    ∃ u fl, exec (i t) s = .next u ∧ CommandDone s u t fl
      ∧ ∀ x < tileDim t.mc.toNat, ∀ y < tileDim t.nc.toNat,
          let at_ := t.abase.toNat + x * tileDim t.nc.toNat + y
          u.nodeAcc e n.size at_ = (dotAccum (fcwMode fcw == 0) fr.flags.ftz fr.flags.inf8 m.a m.b (kBlock m.a.ktype m.b.ktype)
            (scalesAt t m x y) 0 (if t.acc then s.nodeAcc e n.size at_ else 0) ((rowA t m x).zip (columnB opc t m y))).1

/-- The merge island of a firing, by the quadrant it names, and the island changed after the trigger effects. -/
def mergeOf (s : State) (q : Nat) : Merge := s.merge (ekDie s.cur.1) q
def mergeWith (s : State) (o : Slot) (q : Nat) (g : Merge → Merge) : State := (triggered s o).modMerge (ekDie s.cur.1) q g

/-- The session that MGOPEN opens (R197, R215). -/
def newSession (s : State) (cfg : List Lane) : Merge :=
  { opened := true, rk := ekRegion s.cur.1, frm := s.slotFrame s.cur.1 s.cur.2, e := s.cur.1, slot := s.cur.2,
    pid := (s.pidOf (ekRegion s.cur.1)).getD 255, lnch := (s.region (ekRegion s.cur.1)).lnch, cfg := cfg }

/-- An input channel, as 4 × element + channel, marked as having a feeder (R82). -/
def marked1 (t : State) (c : Nat) : State :=
  t.modElem (c / 4) (fun el => { el with ins := el.ins.modify (c % 4) (fun x => { x with mark := true }) })

/-- The answer's receiver of the firing in progress. -/
def receiver (s : State) (o : Slot) (f : Fn) : Ret := (triggered s o).retOf s.cur.1 s.cur.2 o (hdrOf (seen s o f).a)

end Sys2Proof.Claims

section Statements

open Sys2Proof Sys2Proof.Machine Sys2Proof.Claims

/-- CPARM, CPDIS, CPQ, JCARD, CPFIRE and TMOV: CPARM arms a free slot with a record within R176's limits; CPDIS marks a held template
for closing and unbinds its queues; CPQ binds a queue, JCARD attaches a card, CPFIRE and TMOV put a job in; each on a template that
its frame does not hold answers F_BOUNDS. CPFIRE's source keeps its format's length and is unscaled (R84, R87, R175 to R177, R182,
R333, R348, R404). -/
def Obligations.CopyFiringsComplete : Prop :=
  ∀ (s : State) (o : Slot) (f : Fn),
    let env := seen s o f
    let t := triggered s o
    let slot := controlNumber .n32 env.a
    let r := ekRegion s.cur.1
    let frm := s.slotFrame s.cur.1 s.cur.2
    let fresh := armedTemplate s f
    let queue := (copyIsland s f).queues.get (fnIm f % 16)
    let free : Prop := ((copyIsland s f).tpls.get slot).isNone = true
    let mine (k : Nat) (v : Template) : Prop := heldTemplate s f k = some v
    (Control .n32 63 env.a → free → s.templateOk r frm fresh = true →
        exec (.cparm o f) s = islandDone s (copyIslandWith s o f (fun i =>
          { i with tpls := i.tpls.set slot (some { fresh with credits := fresh.cred }) })) o f slot)
    ∧ (Control .n32 63 env.a → ¬ free ∨ s.templateOk r frm fresh = false → exec (.cparm o f) s = refusedAt s o .bounds)
    ∧ (∀ v, mine (fnIm f % 64) v → exec (.cpdis o f) s = .next ((((t.reserve s.cur.1 o.dt o.tt).modIsland (rkDie r) (cpEdge f) (fun i =>
          { i with tpls := i.tpls.modify (fnIm f % 64) (fun x => x.map (fun y => { y with closing := some (receiver s o f) })),
                   queues := i.queues.map (fun q =>
                     (q.1, if q.2.tpl == v.id then { q.2 with tpl := 0, permit := false } else q.2)) }))).closeTemplates (rkDie r) (cpEdge f)))
    ∧ (∀ v, Control .n32 63 env.a → mine slot v → (queue.tpl = 0 ∨ (queue.rk = r ∧ queue.frm = frm)) →
        (fnIm f / 32 % 2 = 1 → v.cred ≠ 0) →
        exec (.cpq o f) s = islandDone s (copyIslandWith s o f (fun i => { i with queues := i.queues.modify (fnIm f % 16) (fun x =>
          { x with tpl := v.id, permit := fnIm f / 32 % 2 == 1, rk := r, frm := frm }) })) o f (fnIm f % 16))
    ∧ (∀ v, Control .n32 63 env.a → mine slot v →
        exec (.jcard o f) s = islandDone s (copyIslandWith s o f (fun i => { i with tpls := i.tpls.modify slot (fun x =>
          x.map (fun y => { y with card := some ((firingFrame s).data.get (128 + fnIm f % 64)) })) })) o f slot)
    ∧ (∀ v, mine (fnIm f % 64) v → v.dims ≤ (lanesOf env.a).length →
        (hasTy .s32 (rawPk env.a) = true ∨ hasTy .n32 (rawPk env.a) = true) → (rawPk env.a).kind = 0 → (rawPk env.a).sc = false →
        exec (.cpfire o f) s = .next ((t.reserve s.cur.1 o.dt o.tt).acceptJob
          { die := rkDie r, edge := cpEdge f, tslot := fnIm f % 64, tpl := v, origin := ((lanesOf env.a).take v.dims).map BitVec.toInt,
            ret := some (receiver s o f), cov := t.live (t.elem s.cur.1).cov }))
    ∧ (heldTemplate s f (fnIm f % 64) = none → exec (.cpdis o f) s = refusedAt s o .bounds
        ∧ (ownLenOk (rawPk env.a) = true → (rawPk env.a).sc = false → exec (.cpfire o f) s = refusedAt s o .bounds))
    ∧ (ownLenOk (rawPk env.a) = false → exec (.cpfire o f) s = faulted s .pkLen)
    ∧ (Control .n32 63 env.a → heldTemplate s f slot = none →
        exec (.cpq o f) s = refusedAt s o .bounds ∧ exec (.jcard o f) s = refusedAt s o .bounds)
    ∧ exec (.tmov o f) s = .next ((t.reserve s.cur.1 o.dt o.tt).acceptJob
        { die := ekDie s.cur.1, edge := cpEdge f, ret := some (t.retOf s.cur.1 s.cur.2 o {}),
          tmov := some (fnIm f / 8 % 8, fnIm f % 8), cov := t.live (t.elem s.cur.1).cov })

/-- MXCFG forms a node of side 1, 2, 4 or 8 at an element that anchors none, marks the channels its routes feed and gives its side; a
second one at the anchor faults F_BOUNDS. MXDRN enters the queue of a node that holds fewer than four commands, waits at four, and
faults F_BOUNDS without a node; the way of MXCFG's result is open (R58, R184, R190, R362, R363). -/
def Obligations.MatrixFiringsComplete : Prop :=
  ∀ (s : State) (o : Slot) (f : Fn),
    let env := seen s o f
    let t := triggered s o
    let e := s.cur.1
    let side := 2 ^ (fnIm f % 4)
    let node : Node :=
      { size := side, rk := ekRegion e, frm := s.slotFrame e s.cur.2, slot := s.cur.2,
        k := [10, 11, 12, 13, 14, 15].map (fun i => (s.elem e).k.get i), cov := s.live (s.elem e).cov }
    let chans := (s.nodeChannels e node).eraseDups
    let formed := chans.foldl marked1 t
    let route := ((lanesOf env.a).getD 0 0).toNat
    let w := ((lanesOf env.a).getD 1 0).toNat
    let steered : Prop := Exact 2 .n32 env.a
    let known : Prop := route ≤ 3 ∧ w < 2 ^ 25 ∧ w / 2 ^ 21 % 8 < 6 ∧ (drainTy (w / 2 ^ 16 % 32)).isSome = true
    ((s.node e).k = [] → (∀ c ∈ chans, s.markedChannel c = false) → resultOpen s o →
        exec (.mxcfg o f) s = completedAt s { formed with nodes := formed.nodes.set e node } o (word32 env.a side))
    ∧ ((s.node e).k ≠ [] → exec (.mxcfg o f) s = faulted s .bounds)
    ∧ ((s.node e).cmds.length < 4 → (s.node e).k ≠ [] → steered → known →
        w / 16 % 2 ^ 12 + tileDim (w % 4) * tileDim (w / 4 % 4) ≤ (s.node e).accs →
        exec (.mxdrn o f) s = .next ((t.reserve e o.dt o.tt).modNode e (fun x => { x with
          cov := (x.cov ++ t.live (t.elem e).cov).eraseDups
          cmds := x.cmds ++ [.drain route (w % 4) (w / 4 % 4) (w / 16 % 2 ^ 12) (w / 2 ^ 16 % 32) (w / 2 ^ 21 % 8) (w / 2 ^ 24 % 2 == 1)
            (receiver s o f)] })))
    ∧ ((s.node e).cmds.length < 4 → (s.node e).k = [] → steered → exec (.mxdrn o f) s = faulted s .bounds)
    ∧ (4 ≤ (s.node e).cmds.length → exec (.mxdrn o f) s = .next s)

/-- The six commands of a matrix node, on tokens that R192's checks pass and operands that can be read: MMA, MMAS, MMSC and MMI
accumulate the product of their tiles, MZERO clears the tile, MLDM loads it or adds to it (R117 to R121, R187 to R192). -/
def Obligations.MatrixTokensComplete : Prop :=
  Multiplies 1 .mma ∧ Multiplies 2 .mmas ∧ Multiplies 3 .mmsc ∧ Multiplies 4 .mmi
  ∧ (∀ (s : State) (t : MTok),
      let e := s.cur.1
      let n := s.node e
      n.size ∈ [1, 2, 4, 8] → s.nodeFree e = true → nodeCheck n (s.elem e).fcw 5 t = .ok () →
      ∃ u, exec (.mzero t) s = .next u ∧ CommandDone s u t 0 ∧ ∀ x, tileAt s t x → u.nodeAcc e n.size x = 0)
  ∧ (∀ (s r : State) (t : MTok) (fa : MFmt) (bs : List Byte),
      let e := s.cur.1
      let n := s.node e
      let fr := s.frame n.rk n.frm
      let count := tileDim t.mc.toNat * tileDim t.nc.toNat
      n.size ∈ [1, 2, 4, 8] → s.nodeFree e = true → nodeCheck n (s.elem e).fcw 6 t = .ok () → mfmtOf t.fa.toNat = some fa →
      s.nodeRead n (n.k10 % 8) (4 * count) = .ok (r, bs) →
      ∃ u fl, exec (.mldm t) s = .next u ∧ CommandDone s u t fl
        ∧ ∀ i < count, u.nodeAcc e n.size (t.abase.toNat + i) = (loadAcc fa (fcwMode (s.elem e).fcw == 0) fr.flags.ftz fr.flags.inf8 t.acc
            (s.nodeAcc e n.size (t.abase.toNat + i)) ((valuesOf 32 count bs).getD i 0)).1)

/-- MGOPEN opens a session on a free island of a held quad and marks its output channel; MGCLOSE waits for the final packet of an
ended stream, else closes at once; MGSPL's sub-codes set or clear their flag, register and delete exchange queues; MGST gives the
words of R218; each of them without the session or registration it names faults F_BOUNDS (R197, R198, R212, R215, R218). The way of a result that
leaves at once is open (R58). The order in which MGST's STATE codes are tried (log entry 114), that XQDEL takes all of the frame's
queues (log entry 115), that XQREG's descriptor is the one of the firing's own quad (log entry 117) and XQREG's and XQDEL's
answers to operands that no rule speaks of (log entry 61) are the model's choice. -/
def Obligations.MergeFiringsComplete : Prop :=
  ∀ (s : State) (o : Slot) (f : Fn),
    let env := seen s o f
    let t := triggered s o
    let e := s.cur.1
    let n := s.cur.2
    let r := ekRegion e
    let q := mgQuad f
    let m := mergeOf s q
    let opened := newSession s (lanesOf env.a)
    let zero := word32 env.a 0
    let fresh : XQueue :=
      { pid := (s.pidOf r).getD 255, lnch := (s.region r).lnch, rk := r, frm := s.slotFrame e n, e := e, slot := n,
        no := t.nextId, dwe := ((lanesOf env.a).getD 1 0).toNat }
    let w := ((lanesOf env.a).getD 0 0).toNat
    let k := bufferKey r (if w / 1024 = 0 then 1 else 2) (w % 1024)
    (∀ c, Exact 3 .n32 env.a → mergeCfgOk opened = true →
        s.mergeChannel opened = some c → s.markedChannel c = false → s.holdsQuad r q = true → m.opened = false → resultOpen s o →
        exec (.mgopen o f) s = completedAt s ((marked1 t c).setMerge (ekDie e) q opened) o zero)
    ∧ (s.mergeHeld e n q = true → m.ended = true ∧ m.sentEnd = false →
        exec (.mgclose o f) s = .next ((t.reserve e o.dt o.tt).modMerge (ekDie e) q (fun x => { x with closing := x.closing ++ [receiver s o f] })))
    ∧ (s.mergeHeld e n q = true → ¬ (m.ended = true ∧ m.sentEnd = false) → resultOpen s o →
        exec (.mgclose o f) s = completedAt s (t.endSession (ekDie e) q) o (word32 env.a m.fibre))
    ∧ (s.mergeHeld e n (mgsplQuad f) = true → resultOpen s o →
        exec (.mgsplAllow o f) s = completedAt s (mergeWith s o (mgsplQuad f) (fun x => { x with forbid := false })) o zero
        ∧ exec (.mgsplForbid o f) s = completedAt s (mergeWith s o (mgsplQuad f) (fun x => { x with forbid := true })) o zero
        ∧ exec (.mgsplForce o f) s = completedAt s (mergeWith s o (mgsplQuad f) (fun x =>
            if x.accum ∧ x.spilled = false then { x with force := true } else x)) o zero)
    ∧ (s.mergeHeld e n (mgsplQuad f) = false → exec (.mgsplAllow o f) s = faulted s .bounds
        ∧ exec (.mgsplForbid o f) s = faulted s .bounds ∧ exec (.mgsplForce o f) s = faulted s .bounds)
    ∧ (Exact 2 .n32 env.a → w < 2048 → 8 ≤ fresh.dwe → fresh.dwe ≤ 20 → (w < 1024 → w < 256) →
        (∃ h, (s.descs.get k).shape = some h ∧ h.mode = 0) → (s.descs.get k).xq = none → (s.descs.get k).pid = fresh.pid → resultOpen s o →
        exec (.mgsplXqreg o f) s = completedAt s
          ({ t with descs := t.descs.modify k (fun y => { y with xq := some fresh }) } : State).fresh o zero)
    ∧ ((∀ d ∈ s.descs, ∀ x, d.2.xq = some x → x.ofFrame r (s.slotFrame e n) = false) → resultOpen s o →
        exec (.mgsplXqdel o f) s = completedAt s t o zero)
    ∧ ((∃ d ∈ s.descs, ∃ x, d.2.xq = some x ∧ x.ofFrame r (s.slotFrame e n) = true) →
        let waits (x : XQueue) : XQueue := if x.ofFrame r (s.slotFrame e n) = true then { x with closing := x.closing ++ [receiver s o f] } else x
        let u := t.reserve e o.dt o.tt
        exec (.mgsplXqdel o f) s = .next (({ u with descs := u.descs.map (fun d : Nat × Desc =>
          (d.1, { d.2 with xq := d.2.xq.map waits })) } : State).closeQueues r (s.slotFrame e n)))
    ∧ (s.mergeHeld e n q = true → resultOpen s o → exec (.mgstIsland o f) s = completedAt s t o (words32 env.a
        [(if m.ended = true then 4 else if m.remerge = true ∨ 4096 ≤ m.runs.length ∨ m.pass ≠ [] then 3
            else if m.spilled = true then 2 else 1) * 2 ^ 29 + (m.buf.length + (m.drain.getD []).length) % 2 ^ 17, m.fibre,
         m.passes * 2 ^ 16 + m.runs.length % 2 ^ 13, m.maskOf Leaf.sent3 * 2 ^ 16 + m.maskOf Leaf.fend]))
    ∧ (s.mergeHeld e n q = false → exec (.mgstIsland o f) s = faulted s .bounds ∧ exec (.mgclose o f) s = faulted s .bounds)
    ∧ (∀ x, (s.queuesOf r (s.slotFrame e n))[fnIm f / 8 % 8]? = some x → resultOpen s o → exec (.mgstQueue o f) s
        = completedAt s t o (words32 env.a [x.records.length, x.waiting.length, x.total, 0]))

end Statements

namespace Sys2Proof.Claims

open Sys2Proof.Machine

/-! Firings of a steward region. -/

/-- A request served at the firing: its answer, packets of words, is on its way (R370). -/
def stewardDone (s t : State) (o : Slot) (f : Fn) (vs : List Nat) : Host.Outcome State Fault Refusal :=
  .next (requested s t o {} false { op := .answer, phase := .resp, res := some (words32 (seen s o f).a vs) })

/-- A request whose answer waits for something to happen (R370). -/
def stewardWaits (s t : State) (o : Slot) (f : Fn) (p : Pending) : Host.Outcome State Fault Refusal :=
  .next (requested s t o (hdrOf (seen s o f).a) false { op := .steward p, phase := .resp })

/-- A doubleword in two words, low half first. -/
def wordPair (w : Dword) : List Nat := [w.toNat % 2 ^ 32, w.toNat / 2 ^ 32]

/-- The word at lane i of a source. -/
def laneNo (x : Operand) (i : Nat) : Nat := ((lanesOf x).getD i 0).toNat

/-- A partition as a PTCT command answers it: the status and PSTAT (R378). -/
def partitionDone (s t : State) (o : Slot) (f : Fn) (pid status : Nat) : Host.Outcome State Fault Refusal :=
  stewardDone s t o f (status :: wordPair (t.part pid).pstat)

/-- The state that a page-forwarding sub-code makes of an entry, where its transition is one of R240. -/
inductive Forwarding : SlotOp → Pgfw → Nat → Nat → Pgfw → Prop where
  | start (v l : Nat) : Forwarding .pgfwStart .res v l (.copy v l)
  | clear (v l v' l' : Nat) : Forwarding .pgfwClear (.moved v l) v' l' .res
  | abort (v l v' l' : Nat) : Forwarding .pgfwAbort (.copy v l) v' l' .res
  | query (x : Pgfw) (v l : Nat) : Forwarding .pgfwQuery x v l x

/-- What R371 asks of the operand of PGFW. -/
def ForwardingOperand (s : State) (start : Bool) (x : Operand) : Prop :=
  let w0 := laneNo x 0
  let w1 := laneNo x 1
  Exact 2 .n32 x ∧ w0 / 2 ^ 17 % 2 ^ 7 = 0 ∧ w0 / 2 ^ 24 % 128 < s.ndies ∧ w0 % 2 ^ 17 < framesOf (w0 / 2 ^ 31)
    ∧ (start = true → w1 < 2 ^ 25 ∧ w1 / 2 ^ 17 % 2 = 0 ∧ w1 / 2 ^ 18 % 128 < s.ndies ∧ w1 % 2 ^ 17 < framesOf (w0 / 2 ^ 31)
        ∧ w1 / 2 ^ 18 % 128 ≠ w0 / 2 ^ 24 % 128)

/-- The lanes of a TLBI operand within the fields of its sub-code (R403). -/
def TlbiOperand (m0 m1 m2 : Nat) (x : Operand) : Prop :=
  Exact 3 .n32 x ∧ laneNo x 0 &&& m0 = laneNo x 0 ∧ laneNo x 1 &&& m1 = laneNo x 1 ∧ laneNo x 2 &&& m2 = laneNo x 2

/-- The die that an ATST or KROLL operand names (R325, R350). -/
def namedBy (s : State) (x : Operand) : Option UnitId := s.namedDie (controlNumber .n32 x / 256) (controlNumber .n32 x % 128)

/-- An ATST answer: the status, and DAS with its high half first (R325). -/
def attested (s t : State) (o : Slot) (f : Fn) (u : UnitId) (status : Nat) : Host.Outcome State Fault Refusal :=
  stewardDone s t o f (status :: (wordPair (t.unit u).das).reverse)

end Sys2Proof.Claims

section Statements

open Sys2Proof Sys2Proof.Machine Sys2Proof.Claims

/-- TAMP freezes a RUNNING partition with CAUSE 3 and answers once every die reports it, answers at once for an IDLE or FROZEN one, and
refuses in any other state; THAW thaws a partition that it may, or one element that a TRAP holds in a RUNNING partition, and refuses
otherwise; each answer carries PSTAT's high half (R370, R402). -/
def Obligations.HoldingAndThawingComplete : Prop :=
  ∀ (s : State) (o : Slot) (f : Fn),
    let env := seen s o f
    let t := triggered s o
    let a := controlNumber .n32 env.a
    let st := pState (s.part a)
    let high (u : State) (pid : Nat) : Nat := (u.part pid).pstat.toNat / 2 ^ 32
    let w := laneNo env.a 0
    let pid := w % 256
    let held := if pState (s.part pid) = 2 then s.trapped pid (w / 512 % 128) (laneNo env.a 1) else none
    let whole : Prop := Exact 2 .n32 env.a ∧ w < 2 ^ 16 ∧ w / 256 % 2 = 0 ∧ laneNo env.a 1 = 0
    let single : Prop := Exact 2 .n32 env.a ∧ w < 2 ^ 16 ∧ w / 256 % 2 = 1
    let thaws (i : Instr) : Prop :=
      (whole → s.mayThaw pid = true → exec i s = stewardDone s (t.thawPart pid) o f [0, high (t.thawPart pid) pid])
      ∧ (whole → s.mayThaw pid = false → exec i s = stewardDone s t o f [1, high t pid])
      ∧ (∀ e, single → held = some e → exec i s = stewardDone s (t.thawElem e) o f [0, high (t.thawElem e) pid])
      ∧ (single → held = none → exec i s = stewardDone s t o f [1, high t pid])
    (Control .n32 255 env.a → st = 2 → exec (.tamp o f) s = stewardWaits s (t.freezePart a 3 0) o f (.tamp a))
    ∧ (Control .n32 255 env.a → st ≠ 2 →
        exec (.tamp o f) s = stewardDone s t o f [if st = 1 ∨ st = 3 then 0 else 1, high t a])
    ∧ thaws (.thaw o f) ∧ thaws (.thawTrap o f)

/-- SCRD and SCWR act on the item that their operand names and answer its value after the cycle counter's read; SCWR writes ES, of which
it keeps the seven flags, and ST only while the element's partition is FROZEN, and a VFT doubleword only within R231 and R228; PRTD reads a route word and RTWR writes
one that no resident partition's rectangle meets (R66, R69, R375, R376, R390). -/
def Obligations.StewardItemsComplete : Prop :=
  ∀ (s : State) (o : Slot) (f : Fn),
    let env := seen s o f
    let e := s.cur.1
    let d := ekDie e
    let t := (triggered s o).tick d
    let w0 := laneNo env.a 0
    let w1 := laneNo env.a 1
    let v := BitVec.ofNat 64 (lanesNat (lanesOf env.b))
    let target := itemElem d w1
    let frozen : Prop := ∃ p, t.pidOf (ekRegion target) = some p ∧ pState (t.part p) = 3
    let named : Prop := Exact 2 .n32 env.a ∧ s.itemOk w0 w1 = true
    let written (i : Instr) (u : State) (status : Nat) : Prop :=
      exec i s = stewardDone s u o f (status :: wordPair (u.item d w0 w1))
    let port := w0
    let word := laneNo env.b 0
    (named → exec (.scrd o f) s = stewardDone s t o f (0 :: wordPair (t.item d w0 w1)))
    ∧ (named → Exact 2 .n32 env.b → w0 / 2 ^ 28 = 4 →
        (frozen → written (.scwrEs o f) (t.modElem target (fun x => { x with es := v.setWidth 32 &&& 0x7F })) 0)
        ∧ (¬ frozen → written (.scwrEs o f) t 1))
    ∧ (named → Exact 2 .n32 env.b → w0 / 2 ^ 28 = 5 →
        (frozen → written (.scwrSt o f) (t.modElem target (fun x => { x with st := v.setWidth 6 })) 0)
        ∧ (¬ frozen → written (.scwrSt o f) t 1))
    ∧ (named → Exact 2 .n32 env.b → w0 / 2 ^ 28 = 3 →
        let site := t.itemSite w1
        let vf := w1 / 2 % 64
        (t.vftOk site vf (w1 % 2) v = true → written (.scwrVft o f) (t.putVft site vf (w1 % 2) v) 0)
        ∧ (t.vftOk site vf (w1 % 2) v = false → written (.scwrVft o f) t 1))
    ∧ (named → Exact 2 .n32 env.b → w0 / 2 ^ 28 ∉ [3, 4, 5] → written (.scwrVft o f) t 1)
    ∧ (Control .n32 0x7FFF env.a → s.portOk (controlNumber .n32 env.a) = true →
        exec (.prtd o f) s = stewardDone s (triggered s o) o f [0, ((triggered s o).panel.routes.get (controlNumber .n32 env.a)).toNat])
    ∧ (Exact 1 .n32 env.a → Exact 1 .n32 env.b → port < 2 ^ 15 → s.portOk port = true → word % 2 ^ 22 = 0 → s.portUsed port = false →
        let x := triggered s o
        exec (.rtwr o f) s = stewardDone s
          { x with panel := { x.panel with routes := x.panel.routes.set port (BitVec.ofNat 32 word) } } o f [0, word])
    ∧ (Exact 1 .n32 env.a → Exact 1 .n32 env.b → port < 2 ^ 15 → s.portOk port = true → word % 2 ^ 22 = 0 → s.portUsed port = true →
        exec (.rtwr o f) s = stewardDone s (triggered s o) o f [1, ((triggered s o).panel.routes.get port).toNat])

/-- PTCT: read and write answer the register; define makes a partition of a rectangle that meets R221's checks and answers the failing
one's status otherwise; save, restore and release act in the states that R378 gives them, and answer STATE in the others. A save whose
area is not wholly mapped answers RANGE; a restore of a SAVED partition that R238's checks pass leaves it FROZEN with its context put
back, after which a launch whose record entered the ring meanwhile is abandoned (R244), and one that fails a check leaves it SAVED, with
a record where RESUME is the answer. While the root is being taken over define and release wait (R221, R224, R227, R237, R238, R249,
R378, R439). -/
def Obligations.PartitionCommandsComplete : Prop :=
  ∀ (s : State) (o : Slot) (f : Fn),
    let env := seen s o f
    let t := triggered s o
    let pid := controlNumber .n32 env.a
    let reg := fnIm f / 16
    let st := pState (t.part pid)
    let w := t.ptctWrite (laneNo env.a 0) reg (BitVec.ofNat 64 (lanesNat (lanesOf env.b)))
    let written := t.modPart (laneNo env.a 0) (fun _ => w.2)
    let free : Prop := (t.part pid).ending = 0
    (Control .n32 255 env.a →
      exec (.ptctRead o f) s = stewardDone s t o f (0 :: wordPair (t.ptctReg pid reg))
      ∧ (s.panel.root.takeover = false →
          (t.defineStatus pid = 0 → exec (.ptctDefine o f) s = partitionDone s (t.doDefine pid) o f pid 0
            ∧ pState ((t.doDefine pid).part pid) = 1)
          ∧ (t.defineStatus pid ≠ 0 → exec (.ptctDefine o f) s = partitionDone s t o f pid (t.defineStatus pid)))
      ∧ (st = 3 → free → t.areaMapped pid = true → t.allFrozen pid = true →
          exec (.ptctSave o f) s = partitionDone s (t.doSave pid) o f pid 0)
      ∧ (st = 3 → free → t.areaMapped pid = true → t.allFrozen pid = false →
          exec (.ptctSave o f) s = stewardWaits s (t.modPart pid (fun p => { p with ending := 1, saveStatus := 0 })) o f (.save pid))
      ∧ (st = 3 → free → t.areaMapped pid = false → exec (.ptctSave o f) s = partitionDone s t o f pid 1)
      ∧ (st ≠ 3 ∨ ¬ free → exec (.ptctSave o f) s = partitionDone s t o f pid 5)
      ∧ (st ≠ 4 ∨ t.groupBusy pid = true → exec (.ptctRestore o f) s = partitionDone s t o f pid 5)
      ∧ (st = 4 → t.groupBusy pid = false →
          (∀ d, t.resumeBad pid = some d →
            exec (.ptctRestore o f) s = partitionDone s (t.report (t.homeDie pid) (t.resumeRecord pid d)) o f pid 7)
          ∧ (t.resumeBad pid = none → t.linkClash pid (pRect (t.part pid)) resident = true →
            exec (.ptctRestore o f) s = partitionDone s t o f pid 3)
          ∧ (t.resumeBad pid = none → t.linkClash pid (pRect (t.part pid)) resident = false →
            let c := (t.part pid).saved.getD {}
            let u := (((t.setRoutes pid true).putContext
              { c with tiles := t.areaTiles pid c, bufs := t.areaBufs pid c }).modPart pid (fun p =>
                { p.toState 3 with saved := none, frozen := t.rectDies (pRect (t.part pid)) }))
            exec (.ptctRestore o f) s = partitionDone s (u.abandonAll pid) o f pid 0 ∧ pState (u.part pid) = 3))
      ∧ (s.panel.root.takeover = true →
          exec (.ptctDefine o f) s = .next s ∧ exec (.ptctRelease o f) s = .next s)
      ∧ (s.panel.root.takeover = false → st = 1 ∨ st = 4 ∨ (st = 3 ∧ t.allFrozen pid = true) → free →
          exec (.ptctRelease o f) s = stewardWaits s (t.doRelease pid) o f (.release pid))
      ∧ (s.panel.root.takeover = false → st = 3 → t.allFrozen pid = false → free →
          exec (.ptctRelease o f) s = stewardWaits s (t.modPart pid (fun p => { p with ending := 2 })) o f (.release pid))
      ∧ (s.panel.root.takeover = false → st ∉ [1, 3, 4] ∨ ¬ free → exec (.ptctRelease o f) s = partitionDone s t o f pid 5))
    ∧ (Exact 1 .n32 env.a → Exact 2 .n64 env.b → laneNo env.a 0 < 256 →
        exec (.ptctWrite o f) s = stewardDone s written o f (w.1 :: wordPair (written.ptctReg (laneNo env.a 0) reg)))

/-- TLBI drops the stage-1 entries, or the cached stage-2 entries, that its sub-code names and answers once the accesses translated by
them are applied; PGFW moves a frame's forwarding entry by R240's transitions and answers its state, or 1 where the transition is not
one of them (R240, R371, R403). -/
def Obligations.TranslationCommandsComplete : Prop :=
  ∀ (s : State) (o : Slot) (f : Fn),
    let env := seen s o f
    let t := triggered s o
    let pid := laneNo env.a 0
    let va := laneNo env.a 1 + laneNo env.a 2 * 2 ^ 32
    let inPage (x : TlbEnt) : Bool := x.va ≤ va && va < x.va + x.size
    let mine := t.regions.flatMap (fun r => r.2.tlb.filter (fun x => x.pid == pid && inPage x))
    let site := if laneNo env.a 1 / 128 = 0 then t.physSite (laneNo env.a 1 % 128) else 100 + t.physDie (laneNo env.a 1 % 128)
    let gran := laneNo env.a 2
    let cache (c : PMap (BitVec 32)) : State := { t with panel := { t.panel with s2cache := c } }
    let key := t.frameKey (pid / 2 ^ 31) (pid / 2 ^ 24 % 128) (pid % 2 ^ 17)
    let v := laneNo env.a 1 / 2 ^ 18 % 128
    let l := laneNo env.a 1 % 2 ^ 17
    (TlbiOperand 0xFF 0xFFFFF000 0x1FFFFFF env.a → exec (.tlbiS1va o f) s = stewardWaits s (t.dropTlb pid inPage) o f
        (.tlbi (t.underWayOf pid (fun q => q.va / 4096 == va / 4096 || mine.any (fun x => x.va ≤ q.va && q.va < x.va + x.size)))))
    ∧ (TlbiOperand 0xFF 0 0 env.a → exec (.tlbiS1pid o f) s = stewardWaits s (t.dropTlb pid (fun _ => true)) o f
        (.tlbi (t.underWayOf pid (fun _ => true))))
    ∧ (TlbiOperand 0x3F 0xFF 0xFFFFFFFF env.a → exec (.tlbiS2g o f) s = stewardWaits s
        (cache (if gran < 2 ^ 15 then t.panel.s2cache.erase (s2Key pid site gran) else t.panel.s2cache)) o f
        (.tlbi (t.waitingOf pid (fun q => t.siteNo q.gpa == site && gpaOff q.gpa / 2 ^ 21 == gran))))
    ∧ (TlbiOperand 0x3F 0 0 env.a → exec (.tlbiS2vf o f) s = stewardWaits s
        (cache (t.panel.s2cache.filter (fun x => x.1 / 2 ^ 15 / 256 != pid))) o f (.tlbi (t.waitingOf pid (fun _ => true))))
    ∧ (∀ x ∈ [((.pgfwStart, .pgfwStart o f) : SlotOp × Instr), (.pgfwClear, .pgfwClear o f), (.pgfwAbort, .pgfwAbort o f),
              (.pgfwQuery, .pgfwQuery o f)],
        ForwardingOperand s (x.1 == .pgfwStart) env.a →
        (∀ next, Forwarding x.1 (t.panel.pgfw.get key) v l next →
          exec x.2 s = stewardDone s { t with panel := { t.panel with pgfw := t.panel.pgfw.set key next } } o f [0, pgfwCode next])
        ∧ ((¬ ∃ next, Forwarding x.1 (t.panel.pgfw.get key) v l next) →
          exec x.2 s = stewardDone s t o f [1, pgfwCode (t.panel.pgfw.get key)]))

/-- VFEN enables or begins to disable the VFs of its mask; VDMAP exchanges two dies or two sites that nothing uses; both answer 3 while
the root is being taken over; FLTAK gives the record at the head of its VF's store, in two packets, and takes it; QSCK reads or
restarts a partition's quiet count on the die; RLIM reads, and with its flag sets, the power cap (R233, R249, R344, R381, R383, R407,
R408). That a quiet count below 4,096 and one above are free values (log entry 84), that RLIM's cap holds at once (log entry 98) and
that the cap's range holds in every form (log entry 138) are the model's choice. -/
def Obligations.StewardServicesComplete : Prop :=
  ∀ (s : State) (o : Slot) (f : Fn),
    let env := seen s o f
    let t := triggered s o
    let e := s.cur.1
    let d := ekDie e
    let n := controlNumber .n32 env.a
    let mask := maskVfs (lanesNat (lanesOf env.a))
    let bits (u : State) : List Nat := [u.enBits % 2 ^ 32, u.enBits / 2 ^ 32]
    let on := mask.foldl (fun s v => if (s.vf v).disabling || s.vfOn v then s else s.enableVf v) t
    let enabled := mask.filter (fun v => t.vfOn v)
    let taken (x : Option Record) : Act :=
      let ws := match x with | some r => r.words | none => List.replicate 8 0
      { out := some (words32 env.a ((ws.take 4).flatMap wordPair)), second := some (words32 env.a ((ws.drop 4).flatMap wordPair)) }
    let head := (t.storeItem d n).map (fun x => x.1)
    let lift := t.panel.root.takeover
    let kind := laneNo env.a 0 / 128
    let v := laneNo env.a 0 % 128
    let x := laneNo env.a 1 % 16
    let y := laneNo env.a 1 / 16
    let p := t.numberAt x y
    let w := if kind = 0 then t.vdnOf p else t.vsnOf p
    let inUse := if kind = 0 then t.vdnUsed v || t.vdnUsed w || !(t.isActive (idFabric p)) else t.siteMapped (t.physSite v) || t.siteMapped p
    let swapped := if v = w then t else if kind = 0 then t.swapVdn v w else t.swapVsn v w
    let limits (u : State) (status : Nat) : Host.Outcome State Fault Refusal :=
      stewardDone s u o f [status, 180 - u.panel.root.capDrop, (u.die d).sigma, u.panel.root.power / 100]
    (Exact 2 .n32 env.a → lift = true → exec (.vfenSet o f) s = stewardDone s t o f (3 :: bits t)
        ∧ exec (.vfenClr o f) s = stewardDone s t o f (3 :: bits t))
    ∧ (Exact 2 .n32 env.a → lift = false →
        exec (.vfenSet o f) s = stewardDone s on o f ((if mask.any (fun v => (t.vf v).disabling) then 1 else 0) :: bits on)
        ∧ exec (.vfenClr o f) s = stewardWaits s (enabled.foldl State.disableVf t) o f (.disable (enabled.foldl (fun a v => a + 2 ^ v) 0)))
    ∧ (Exact 2 .n32 env.a → laneNo env.a 0 < 256 → laneNo env.a 1 < 256 → v < s.ndies → x < 2 * s.cols →
        y < gridRows s.panel.form → (x + y) % 2 = kind →
        (lift = true → exec (.vdmap o f) s = stewardDone s t o f [3, t.siteLane kind v])
        ∧ (lift = false → inUse = true → exec (.vdmap o f) s = stewardDone s t o f [1, t.siteLane kind v])
        ∧ (lift = false → inUse = false → exec (.vdmap o f) s = stewardDone s swapped o f [0, swapped.siteLane kind v]))
    ∧ (Control .n32 63 env.a → exec (.fltakTake o f) s = .next ((t.takeItem d n).complete e s.cur.2 o (taken head))
        ∧ exec (.fltakPeek o f) s = .next (t.complete e s.cur.2 o (taken head)))
    ∧ (Control .n32 255 env.a → t.onDie n d = true →
        exec (.qsckRead o f) s = stewardDone s t.drawn o f [0, t.quietCount n d, (t.part n).decision]
        ∧ exec (.qsckRestart o f) s = stewardDone s (t.modPart n (fun p => { p with quiet := p.quiet.filter (fun x => x != d) })) o f
            [0, 0, (t.part n).decision])
    ∧ (Control .n32 255 env.a → t.onDie n d = false → exec (.qsckRead o f) s = stewardDone s t o f [1, 0, (t.part n).decision]
        ∧ exec (.qsckRestart o f) s = stewardDone s t o f [1, 0, (t.part n).decision])
    ∧ (Control .n32 0x800000FF env.a → (n < 2 ^ 31 ∨ lift = true) → (2 ^ 31 ≤ n → 60 ≤ n % 256 ∧ n % 256 ≤ 180) →
        exec (.rlim o f) s = limits t (if lift then 3 else 0))
    ∧ (Control .n32 0x800000FF env.a → 2 ^ 31 ≤ n → 60 ≤ n % 256 → n % 256 ≤ 180 → lift = false →
        exec (.rlim o f) s = limits (t.modRoot (fun x => { x with capDrop := 180 - n % 256 })) 0)
    ∧ (Control .n32 0x800000FF env.a → 2 ^ 31 ≤ n → (n % 256 < 60 ∨ 180 < n % 256) → exec (.rlim o f) s = faulted s .bounds)

/-- KROLL starts a transmitter's switch to its next key where both ends hold it, and refuses otherwise; ATST reads a die's DAS, puts a
measured die in quarantine, resets an ACTIVE or QUARANTINED die that nothing uses, and on a challenge that fails, or whose measurements
the policy does not hold, quarantines the die; while the root is being taken over each answers 3. An ATST that comes while the root serves a RESET waits for it (R249, R254, R259,
R261, R325, R350). -/
def Obligations.KeyAndAttestationCommandsComplete : Prop :=
  ∀ (s : State) (o : Slot) (f : Fn) (u : UnitId),
    let env := seen s o f
    let t := triggered s o
    let w := controlNumber .n32 env.a
    let lift := t.panel.root.takeover
    let c := w / 1024 % 4 * 2 + w / 4096
    let word (x : State) : List Nat := (wordPair (x.chan u c).tx).reverse
    let st := dasState (t.unit u)
    let resettable : Prop := (st = 3 ∨ st = 4) ∧ t.dieBusy u = false ∧ u ≠ .fabric (t.physDie (ekDie s.cur.1))
      ∧ u ≠ .port t.panel.root.port
    let behind := t.atstBusy t.nextId
    (Control .n32 0x1F7F env.a → w / 256 % 4 < 2 → s.namedDie (w / 256 % 4) (w % 128) = some u →
        (lift = true → exec (.kroll o f) s = stewardDone s t o f (3 :: word t))
        ∧ (lift = false → t.maySwitch u c = false → exec (.kroll o f) s = stewardDone s t o f (1 :: word t))
        ∧ (lift = false → t.maySwitch u c = true →
            exec (.kroll o f) s = stewardWaits s (t.modChan u c Chan.startSwitch) o f (.kroll (idOf u) c)))
    ∧ (Control .n32 0x37F env.a → namedBy s env.a = some u → behind = true →
        ∀ x ∈ [(0, .atstQuery o f), (1, .atstChallenge o f), (2, .atstQuarantine o f), ((3, .atstReset o f) : Nat × Instr)],
          exec x.2 s = stewardWaits s t o f (.atst x.1 u))
    ∧ (Control .n32 0x37F env.a → namedBy s env.a = some u → behind = false →
        exec (.atstQuery o f) s = attested s t o f u (if lift then 3 else 0)
        ∧ (lift = true → exec (.atstChallenge o f) s = attested s t o f u 3 ∧ exec (.atstQuarantine o f) s = attested s t o f u 3
            ∧ exec (.atstReset o f) s = attested s t o f u 3)
        ∧ (lift = false → st ≠ 2 → st ≠ 3 → exec (.atstChallenge o f) s = attested s t o f u 1)
        ∧ (lift = false → st = 2 ∨ st = 3 → ∃ x status, exec (.atstChallenge o f) s = attested s x o f u status
            ∧ ((status = 0 ∧ x = t.drawn ∧ t.policyMet u = true)
              ∨ (status = 2 ∧ (x = (t.quarantine u 2).drawn ∨ x = (t.quarantine u 1).drawn ∧ t.policyMet u = false))))
        ∧ (lift = false → st = 1 ∨ st = 2 ∨ st = 3 → exec (.atstQuarantine o f) s = attested s (t.quarantine u 5) o f u 0)
        ∧ (lift = false → st ∉ [1, 2, 3] → exec (.atstQuarantine o f) s = attested s t o f u 1)
        ∧ (lift = false → resettable → exec (.atstReset o f) s = stewardWaits s (t.startReset u) o f (.reset (idOf u)))
        ∧ (lift = false → ¬ resettable → exec (.atstReset o f) s = attested s t o f u 1))

end Statements

namespace Sys2Proof.Claims

open Sys2Proof.Machine

/-! Sequencers, frames and launches. -/

/-- A region with its stream moved by a branch, of a signed number of doublewords from the word in progress; and past a word of n. -/
def streamTo (s : State) (r : Nat) (off : Int) : State :=
  s.modRegion r (fun x => { x with sqp := streamPos ((x.sqp : Int) + off), fromOff := x.sqp, branched := true })
def streamPast (s : State) (r n : Nat) : State :=
  s.modRegion r (fun x => { x with sqp := x.sqp + n, fromOff := x.sqp, branched := false })

/-- A target of a token, and one that names the same field. -/
def sameField (a b : Target) : Prop := a.eidx = b.eidx ∧ a.slot = b.slot ∧ Min.min a.fld 2 = Min.min b.fld 2

/-- Has every frame that the sequencer armed been freed (R52)? -/
def allCommitted (s : State) (r : Nat) : Prop := (s.region r).order = []

/-- A launch of a partition, the first of its number. -/
def launchNo (s : State) (pid lnch : Nat) : Option Launch := (s.part pid).launches.find? (fun l => l.lnch == lnch)

/-- A frame of a region that may act: firing or draining, its region moving. -/
def activeFrame (s : State) (r frm : Nat) : Prop :=
  ((s.frame r frm).st = .firing ∨ (s.frame r frm).st = .draining) ∧ s.moving r = true

end Sys2Proof.Claims

section Statements

open Sys2Proof Sys2Proof.Machine Sys2Proof.Claims

/-- The sequencer words: SQBR goes to its offset, SQARM to a block header there, SQLOOP counts its counter down and goes back until it
is zero, SQWAIT goes on where the generation is reached and else waits on the word, SQJOIN waits for its group and then empties the
region's prefetch buffer, as an acquire does (R45, R156), and SQEND, SQMARK and
SQFENCE wait for every commit and then end the pass, set the mark, or go on (R57, R140, R299, R300, R394). -/
def Obligations.SequencerWordsComplete : Prop :=
  ∀ (s : State),
    let r := s.cur.1
    let x := s.region r
    (∀ off, exec (.sqbr off) s = .next (streamTo s r off.toInt))
    ∧ (∀ off w, s.readWords r (s.streamVa r (streamPos ((x.sqp : Int) + off.toInt))) 1 = .ok [w] →
        (bitsOf w 48 16 = 0x5A3C → exec (.sqarm off) s = .next (streamTo s r off.toInt).drawn)
        ∧ (bitsOf w 48 16 ≠ 0x5A3C → exec (.sqarm off) s = .next (s.seqFault .blkAlign r x.sqp 0 none).drawn))
    ∧ (∀ lc count off, count ≠ 0 → off.msb = true →
        let c := x.sql.get lc.toNat
        let left := (if c = 0 then count else c) - 1
        let t := s.modRegion r (fun y => { y with sql := y.sql.set lc.toNat left })
        exec (.sqloop lc count off) s = .next (if left = 0 then streamPast t r 1 else streamTo t r off.toInt))
    ∧ (∀ lc count off, count = 0 ∨ off.msb = false → exec (.sqloop lc count off) s = .next (s.seqFault .illegal r x.sqp 0 none))
    ∧ (∀ g va gpa a, s.access r va.toNat 16 needRead = .ok (gpa, a) → (a < 2 ^ 63 → s.marked a 16 = true) →
        let t := (s.noteSync r va.toNat).drawn
        (s.genReached gpa a g.toNat = true → exec (.sqwait g va) s = .next (t.seqAcquire r a))
        ∧ (s.genReached gpa a g.toNat = false → a < 2 ^ 63 →
            exec (.sqwait g va) s = .next (t.modRegion r (fun y => { y with seq := .await a g.toNat })))
        ∧ (s.genReached gpa a g.toNat = false → 2 ^ 63 ≤ a → exec (.sqwait g va) s = .next t))
    ∧ (∀ g, (x.joins.get g.toNat = 0 → exec (.sqjoin g) s
          = .next (streamPast (s.modRegion r (fun y => { y with prefetch := [] })) r 1))
        ∧ (x.joins.get g.toNat ≠ 0 → exec (.sqjoin g) s = .next s))
    ∧ (allCommitted s r → exec .sqend s = .next ((s.modRegion r (fun y => { y with seq := .ended })).touch r)
        ∧ (∀ m, exec (.sqmark m) s = .next (streamPast (s.modRegion r (fun y => { y with mark := m })) r 1))
        ∧ exec .sqfence s = .next (streamPast s r 1))
    ∧ (¬ allCommitted s r → exec .sqend s = .next s ∧ (∀ m, exec (.sqmark m) s = .next s) ∧ exec .sqfence s = .next s)

/-- SQLAUNCH, after every earlier commit and with its release performed at panel scope: a header whose child the partition accepts is
taken into its launches, counted at its parent and its join group, and the ST bit is cleared; a header at an address that is not a
multiple of 128, or one that is refused, sets the bit; both go on after the two words (R43 to R45, R48, R394). -/
def Obligations.ChildLaunchIsAcceptedOrRefused : Prop :=
  ∀ (s : State) (ex ey bit : BitVec 3) (g : BitVec 2) (va : Dword),
    let r := s.cur.1
    let x := s.region r
    let e := ekOf r (8 * ey.toNat + ex.toNat)
    let refused (t : State) : State := streamPast (t.writeStBit e bit.toNat true) r 2
    (6 ≤ bit.toNat → exec (.sqlaunch ex ey bit g va) s = .next (s.seqFault .illegal r x.sqp 0 none))
    ∧ (bit.toNat < 6 → allCommitted s r → s.performed 4 x.cov = true → va.toNat % 128 ≠ 0 →
        exec (.sqlaunch ex ey bit g va) s = .next (refused s))
    ∧ (∀ hdr pid l, bit.toNat < 6 → allCommitted s r → s.performed 4 x.cov = true → va.toNat % 128 = 0 →
        s.readWords r va.toNat 16 = .ok hdr → s.pidOf r = some pid → s.launchOf r = some l →
        (∀ c, s.judge pid hdr (l.depth + 1) (.child l.lnch r g.toNat) = .error c →
          exec (.sqlaunch ex ey bit g va) s = .next (refused s).drawn)
        ∧ (∀ child, s.judge pid hdr (l.depth + 1) (.child l.lnch r g.toNat) = .ok child →
          let t := ((s.accept pid { child with cov := (child.cov ++ x.cov).eraseDups }).modLaunch pid l.lnch
            (fun y => { y with children := y.children + 1 })).modRegion r (fun y => { y with joins := y.joins.modify g.toNat (· + 1) })
          exec (.sqlaunch ex ey bit g va) s = .next (streamPast (t.writeStBit e bit.toNat false) r 2).drawn))

/-- A block: BLOCK_ARM arms the block at the stream's place in the frame in arming, or in the lowest-numbered free one, raises the fault
of the first check that fails, or stalls with its frame in arming;
FRAME_FIRE makes an armed frame fire after those before it: it writes the ST values of its header, and puts each initial token in its
field, where the credit of the entry that feeds the field is spent; ITERATION_TOKEN sends the next tuple
to every target; BLOCK_COMMIT commits the oldest frame when it drains with no token left, and frees a committed one (R51 to R56, R71, R76). -/
def Obligations.BlockEventsComplete : Prop :=
  ∀ (s : State) (r frm : Nat),
    let x := s.region r
    let fr := s.frame r frm
    (x.seq = .run → s.moving r = true → x.armFrame = some frm →
        (∀ c va, s.armBlockAt r x.sqp frm = .error (c, va) →
          exec (.blockArm r) s = .next ((s.dropFrame r frm).seqFault c r x.sqp frm va).drawn)
        ∧ (∀ t, s.armBlockAt r x.sqp frm = .ok (some t) → exec (.blockArm r) s = .next (t.drawn.touch r))
        ∧ (s.armBlockAt r x.sqp frm = .ok none → exec (.blockArm r) s = .next (s.takeFrame r frm x.sqp).drawn
          ∧ ((s.takeFrame r frm x.sqp).frame r frm).st = .arming))
    ∧ (fr.st = .armed → s.moving r = true → x.mayFire frm = true → s.fieldsFree r (fr.inits.map (fun i => i.1)) = true →
        ∃ u, exec (.frameFire r frm) s = .next u ∧ (u.frame r frm).st = .firing ∧ u.mem = s.mem
          ∧ (∀ q, q ≠ r → u.region q = s.region q)
          ∧ (∀ t ∈ fr.stst, (∀ v ∈ fr.stst, v.1 = t.1 → v.2 = t.2) → (u.elem (ekOf r t.1)).st = t.2)
          ∧ (∀ d < 64, (∀ t ∈ fr.stst, t.1 ≠ d) → (u.elem (ekOf r d)).st = (s.elem (ekOf r d)).st)
          ∧ (∀ i ∈ fr.inits, i.1.fld < 3 → (∀ j ∈ fr.inits, sameField j.1 i.1 → j.2 = i.2) →
              ∃ k, ((u.elem (ekOf r i.1.eidx)).slots.get i.1.slot).fieldAt i.1.fld = some { pkt := i.2, src := k, rk := r, frm := frm }
                ∧ ∀ e n, k = some (e, n) → n ∈ (u.elem e).spent)
          ∧ (∀ d ∈ (List.range 64).filter (fun d => inFoot fr.foot d), ∀ w ∈ x.cov, w ∈ (u.elem (ekOf r d)).cov))
    ∧ (activeFrame s r frm → fr.loops.done = false → s.fieldsFree r fr.itgt = true →
        ∃ u, exec (.iterationToken r frm) s = .next u ∧ u.mem = s.mem
          ∧ (∀ t ∈ fr.itgt, t.fld < 3 → ((u.elem (ekOf r t.eidx)).slots.get t.slot).fieldAt t.fld
              = some { pkt := iterPacket (s.launchWid r) fr.loops, rk := r, frm := frm })
          ∧ (u.frame r frm).loops = (match nextTuple fr.loops.idx fr.loops.counts with
              | some ix => { fr.loops with idx := ix }
              | none => { fr.loops with done := true }))
    ∧ (x.order.head? = some frm → s.moving r = true →
        (fr.st = .draining → fr.loops.done = true → s.tokensLeft r frm = false →
          exec (.blockCommit r frm) s = .next (((s.resolve r).commitNow r frm).touch r))
        ∧ (fr.st = .committed → exec (.blockCommit r frm) s = .next (((s.resolve r).freeFrame r frm).touch r)))

/-- A launch: LAUNCH_SUBMIT takes in a header that the checks accept and completes a refused one at its host's queue; LAUNCH_PLACE puts
a waiting launch on a rectangle that fits; PASS_START starts a footprint slot's next item in its regions; LAUNCH_AGEING counts a wait;
LAUNCH_COMPLETE ends a launch whose items are done and whose release is performed (R38 to R50, R270). -/
def Obligations.LaunchEventsComplete : Prop :=
  ∀ (s : State) (pid lnch : Nat),
    let p := s.part pid
    (∀ vf q hdr,
      let sq := (s.vf vf).sqs.get q
      let t := s.modVf vf (fun x => { x with sqs := x.sqs.modify q (fun y => { y with sseq := y.sseq + 1 }) })
      sq.bound = true → s.vfOn vf = true → (s.vf vf).disabling = false →
      (sq.held.length < 64 →
        (∀ l, s.judge sq.pid hdr 1 (.host vf q sq.sseq) = .ok l → exec (.launchSubmit vf q hdr) s = .next (t.accept sq.pid l))
        ∧ (∀ c, s.judge sq.pid hdr 1 (.host vf q sq.sseq) = .error c →
            exec (.launchSubmit vf q hdr) s = .next (t.completeHost sq.pid vf q hdr c (refusalCode c hdr) 0 sq.sseq 0 0)))
      ∧ (64 ≤ sq.held.length → exec (.launchSubmit vf q hdr) s = .next (s.emit (.nak sq.qpn 3))))
    ∧ (∀ l rect, launchNo s pid lnch = some l → pState p = 1 ∨ pState p = 2 → l.waiting = true → s.placeable pid l.hdr rect = true →
        s.isNext pid l = true → ∃ u, exec (.launchPlace pid lnch rect) s = .next u
          ∧ pState (u.part pid) = 2 ∧ u.mem = s.mem ∧ u.elems = s.elems
          ∧ (∀ m, launchNo u pid lnch = some m → m.rect = some rect ∧ m.hdr = l.hdr)
          ∧ (∀ i < slotsIn l.hdr rect, ∀ y ∈ s.launchSlot { l with rect := some rect } i, (u.region y.1).lnch = lnch))
    ∧ (∀ l fslot i, launchNo s pid lnch = some l → pState p = 2 → l.fault = none → s.nextItem l fslot = some i →
        let t := s.modLaunch pid lnch (fun y => { y with slots := y.slots.set fslot { item := i, running := true } })
        exec (.passStart pid lnch fslot) s = .next (((s.launchSlot l fslot).foldl (fun t y =>
          (t.startRegion y.1 (l.word 3).toNat (y.2.2 * lhFw l.hdr + y.2.1) i).touch y.1) t).drawn))
    ∧ exec (.launchAgeing pid lnch) s
        = .next (s.modLaunch pid lnch (fun l => if l.waiting = true then { l with waited := l.waited + 1 } else l))
    ∧ (∀ l, launchNo s pid lnch = some l → pState p = 2 → s.allDone l = true → s.performed 4 (s.launchCov l) = true →
        let t := (match l.cmp with | some a => s.completionAdd (s.homeDie pid) pid a (s.launchCov l) | none => s).removeLaunch pid l
        exec (.launchComplete pid lnch) s
          = .next ((t.reportEnd pid l 0 0 (s.launchCov l)).modVf (pVf p) (fun v => { v with completed := v.completed + 1 })))

end Statements

namespace Sys2Proof.Claims

open Sys2Proof.Machine

/-! The networks and the memory system. -/

/-- What a packet is at its place: at the end of a channel or queue, in a field, or among a node's commands (R80, R174, R184). -/
def Placed (s u : State) (f : Flit) : Prop :=
  match f.dst with
  | .field e n fld => ((u.elem e).slots.get n).fieldAt fld = some f.held
  | .chan e c => ((u.elem e).ins.get c).q = ((s.elem e).ins.get c).q ++ [f.held]
  | .queue d edge n => ∃ k, (((u.die d).islands.get edge).queues.get n).q = (((s.die d).islands.get edge).queues.get n).q ++ [k] ∧ k.f = f
  | .node e => (u.node e).cmds = (s.node e).cmds ++ [.tok f.pkt]
  | .leaf _ _ _ => False

/-- A packet of the network that may be taken in: nothing before it for its place, its way open, the freeze not there, its release
performed. -/
def Arriving (s : State) (i : Nat) (f : Flit) : Prop :=
  s.flitAt i = some f ∧ s.wayLost f = false ∧ s.wayOpen f = true ∧ s.moving (flitRegion f) = true ∧ s.performed (if destIsland f.dst then 3 else 1) f.pkt.cov = true

/-- A request at a place of its way, in a region whose freeze has not come. -/
def OnItsWay (s : State) (i : Nat) (q : Req) (p : Phase) : Prop :=
  s.reqAt i = some q ∧ q.phase = p ∧ s.moving q.ret.rk = true

/-- A request at its home: translated, at its place in the order of its element, its home on this panel and its checks passed. -/
def AtHome (s : State) (i : Nat) (q : Req) (a : Nat) : Prop :=
  OnItsWay s i q (if isStore q.op then .deq else .home) ∧ s.isRemote q.gpa = false ∧ s.homeKey q = .ok a
    ∧ (if isStore q.op then s.behindWrite q = false else s.olderOpen q = false)

/-- Bytes stored at a key: where they stand, and where they are repeated while their frame is being moved (R240). -/
def outside (s : State) (k n a : Nat) : Prop :=
  ¬ (k ≤ a ∧ a < k + n) ∧ ∀ c, s.copyKey k = some c → ¬ (c ≤ a ∧ a < c + n)

/-- The one request that waits at a word. -/
def OnlyWaits (s : State) (word : Nat) (q : Req) : Prop := s.waitingAt word = [q]

end Sys2Proof.Claims

section Statements

open Sys2Proof Sys2Proof.Machine Sys2Proof.Claims

/-- The operand network: a packet reaches its place when there is room and the limiter admits it, and one that leaves its partition or
meets an unbound queue is dropped with F_BOUNDS; the head of an output channel leaves when its consumer has room; a credit frees its
entry; a packet whose way
passes a die or bridge that is not ACTIVE is dropped there (R28), and one whose way passes a channel that carries no data waits, as a
credit does (log entries 112 and 127); a BND's packet leaves once its release is performed; a waiting slot ages; a limiter window starts (R58, R62, R76, R80, R81, R92, R175,
R222, R330). -/
def Obligations.NetworkEventsComplete : Prop :=
  ∀ (s : State) (i e n : Nat),
    (∀ f, Arriving s i f → s.flitFault f = false → s.destOpen f.dst = true →
        (destIsland f.dst = false → s.dripAdmits f (flitRegion f) = true) →
        ∃ u, exec (.packetDeliver i) s = .next u ∧ u.net = s.net.eraseIdx i ∧ Placed s u f ∧ u.mem = s.mem ∧ u.reqs = s.reqs)
    ∧ (∀ f src, Arriving s i f → s.flitFault f = true → f.src = some src →
        exec (.packetDeliver i) s = .next ({ s with net := s.net.eraseIdx i }.raiseSlot .bounds src.1 f.slot))
    ∧ (∀ f, s.flitAt i = some f → s.moving (flitRegion f) = true → s.wayLost f = true →
        exec (.packetDeliver i) s = .next { s with net := s.net.eraseIdx i })
    ∧ (∀ f, s.flitAt i = some f → s.wayLost f = false → s.wayOpen f = false → exec (.packetDeliver i) s = .next s)
    ∧ (∀ p slot rest d, ((s.elem e).outs.get n).q = (p, slot) :: rest → ((s.elem e).outs.get n).bound ≠ 0 → s.moving (ekRegion e) = true →
        s.destOf e ((s.elem e).t.get (((s.elem e).outs.get n).bound - 1)) = some d → s.sendStop e d = none → s.consumerFree d p = true →
        let o := (s.elem e).outs.get n
        ∃ u, exec (.outputChannelSend e n) s = .next u ∧ ((u.elem e).outs.get n).q = rest
          ∧ u.net = s.net ++ [{ pkt := { p with tag := tTag ((s.elem e).t.get (o.bound - 1)) }, src := some (e, o.bound - 1), slot := slot,
                                rk := ekRegion e, frm := o.frm - 1, dst := d }]
          ∧ u.mem = s.mem ∧ ∀ x, x ≠ e → u.elem x = s.elem x)
    ∧ (∀ t, s.creds[i]? = some (e, t) → s.moving (ekRegion e) = true →
        (s.creditWay e t = true → exec (.creditReturn i) s
          = .next { s.modElem e (fun el => { el with spent := el.spent.erase t }) with creds := s.creds.eraseIdx i })
        ∧ (s.creditWay e t = false → exec (.creditReturn i) s = .next s))
    ∧ (∀ tier cov t, s.bnds[i]? = some (tier, cov, t) → s.moving t.rk = true → s.performed tier cov = true →
        (∀ b ∈ s.bnds.take i, ¬ (b.2.2.e = t.e ∧ b.2.2.dt = t.dt)) →
        exec (.bndPacketRelease i) s = .next (({ s with bnds := s.bnds.eraseIdx i }.fulfil t t.hdr).touch t.rk))
    ∧ (s.ready e n = true → s.moving (ekRegion e) = true → (s.elem e).hold = .run →
        exec (.slotAgeing e n) s = .next (s.modSlot e n (fun x => { x with aged := true })))
    ∧ exec (.dripWindow e n) s = .next (s.modRegion e (fun x => { x with drip := x.drip.filter (fun p => p.1 % 4 != n) }))

/-- A request on its way: TABLE_WALK gives it its GPA and sends it on, a posted write to its region's write buffer, or answers the
fault of stage 1; POSTED_WRITE_DRAIN moves a posted write on to the quad's and the die's queue; MEMORY_RESPONSE takes the answer to the
element, with what the value's write released for an acquire or for an FNC to come, and raises the fault of a failed one, and
F_QUARANTINE where a die or bridge on its way back is not ACTIVE; it waits while a channel there carries no data; an ATST that waits is
served once those before it are (R25, R28, R145 to R152, R155, R158, R314, R325; log entries 112 and 127). -/
def Obligations.RequestsTravel : Prop :=
  ∀ (s : State) (i : Nat) (q : Req),
    (OnItsWay s i q .xlat → (∀ x ∈ s.reqs, x.who = .firing → q.who = .firing → x.ret.e = q.ret.e → x.id < q.id → x.phase ≠ .xlat) →
        (∀ c, s.stage1 q.ret.rk (s.who q.ret.rk) q.va (reqNeed q.op) = .error c →
          exec (.tableWalk i) s = .next (((s.setReq i { q with phase := .resp, err := some c }).drawn).touch q.ret.rk))
        ∧ (∀ g t, s.stage1 q.ret.rk (s.who q.ret.rk) q.va (reqNeed q.op) = .ok (g, t) →
          exec (.tableWalk i) s = .next ((((s.fillTlb q.ret.rk t).leave { q with gpa := g }).drawn).touch q.ret.rk)))
    ∧ (isStore q.op = true → s.behindWrite q = false →
        (OnItsWay s i q .rwb → exec (.postedWriteDrain i) s = .next ((s.moveReq i { q with phase := .qeq }).touch q.ret.rk))
        ∧ (OnItsWay s i q .qeq → exec (.postedWriteDrain i) s = .next ((s.moveReq i { q with phase := .deq }).touch q.ret.rk)))
    ∧ (s.reqAt i = some q → ∀ sub d, q.op = .steward (.atst sub d) →
        exec (.memoryResponse i) s = .next (if s.atstBusy i = true then s else s.atstServe q sub d))
    ∧ (OnItsWay s i q .resp → q.who = .firing → s.backWaits q = true → exec (.memoryResponse i) s = .next s)
    ∧ (∀ y, OnItsWay s i q .resp → q.who = .firing → s.settled q = some y → s.backWaits q = false →
        (q.op = .answer → ∀ x ∈ s.before i, ¬ (x.op = .answer ∧ x.ret.e = q.ret.e ∧ x.ret.slot = q.ret.slot)) →
        let t := (s.dropReq i).touch q.ret.rk
        let u := t.release q.ret
        let seen := if acquires q.op then t.acquire q.ret.e q.cov else if bringsValue q.op then t.saw q.ret.e q.cov else t
        let v := seen.modElem q.ret.e (fun el => { el with es := el.es ||| q.flags })
        (∀ c, s.returned q = some c → exec (.memoryResponse i) s = .next (u.raiseElem c q.ret.e { u.slotRecord c q.ret.e q.ret.slot with
             vav := hasVa q.op, va := if hasVa q.op then q.va else 0, detail := if c = .ecc then q.gpa else 0 }))
        ∧ (s.returned q = none → exec (.memoryResponse i) s
            = .next (match y.res with | some p => v.answer q.ret p | none => v.release q.ret)))

/-- A request at its home, at the key that R145's checks give, its stage-2 entry then cached (R150): a load answers the bytes that its region's agents see; a posted write,
an STG or an STB's to a QB or DB, stores its bytes and nothing else; an atomic stores its new value, answers the old one and changes no other byte; with a value comes
what its writes released (R158); a sync-word update or
watcher waits at its word, a watcher answered where its generation is reached; an access to a sync word by any of the first three, or
to another word by the last, answers F_ALIGN (R138, R140, R145, R154, R155, R322, R400). -/
def Obligations.HomesServeRequests : Prop :=
  ∀ (s : State) (i : Nat) (q : Req) (a : Nat), AtHome s i q a → q.id = i →
    let f := s.fillS2 q.ret.rk q.gpa
    let still (u : State) (n : Nat) : Prop := ∀ b, outside s a n b → memByte u.mem b = memByte s.mem b
    let outcome (p : State → Prop) : Prop := ∃ u, exec (.homeAccess i) s = .next u ∧ p u
    let answers (u : State) (x : Req) : Prop := u.reqs = s.reqs.map (fun y => if y.id = i then x else y)
    let waits (u : State) : Prop := u.reqs = s.reqs.filter (fun y => y.id != i) ++ [{ q with phase := .wait, word := a }]
    let wrong (marked : Bool) : Prop := s.marked a q.size = marked →
      outcome (fun u => answers u { q with phase := .resp, err := some .align } ∧ u.mem = s.mem)
    (∀ t, q.op = .load t → (s.marked a q.size = false → outcome (fun u => u.mem = s.mem
        ∧ answers u { q with phase := .resp, res := some (loadPk q t (f.bytesFor q.ret.rk q.gpa a q.size)),
                             cov := f.readCov q.ret.rk q.gpa a q.size })) ∧ wrong true)
    ∧ (q.op = .store ∨ q.op = .put → q.size = q.data.length → (s.marked a q.size = false → outcome (fun u =>
        still u q.size ∧ answers u { q with phase := .resp } ∧ (s.copyKey a = none → memBytes u.mem a q.size = q.data))) ∧ wrong true)
    ∧ (∀ sub sg acq rel b p, q.op = .atomic sub sg acq rel b p → (s.marked a q.size = false → f.seesPosted q = false →
        (rel = true → f.performed 4 q.cov = true) →
        let old := bytesVal (memBytes s.mem a q.size)
        outcome (fun u => still u q.size
          ∧ answers u { q with phase := .resp, res := some { q.ret.hdr with lanes := natLanes (q.size / 4) old },
                               flags := (atomNew sub sg q.size old b p).2, cov := s.covAt a q.size }
          ∧ (s.copyKey a = none → memBytes u.mem a q.size = valBytes q.size (atomNew sub sg q.size old b p).1))) ∧ wrong true)
    ∧ (∀ tgt sc gen, q.op = .sya tgt sc gen → syaCheck a tgt sc gen = none → outcome (fun u => waits u ∧ u.mem = s.mem))
    ∧ (∀ n, q.op = .syadd n → s.marked a 16 = true → s.performed (syncScope (syncVal s.mem a)) q.cov = true →
        outcome (fun u => waits u ∧ u.mem = s.mem))
    ∧ (∀ g, q.op = .sywch g → s.marked a 16 = true → outcome (fun u => u.mem = s.mem
        ∧ if s.wordMet a g = true then answers u { q with phase := .resp, word := a, cov := s.relCov.get a } else waits u))
    ∧ (∀ n, q.op = .syadd n ∨ q.op = .sywch n → s.marked a 16 = false →
        outcome (fun u => u.mem = s.mem ∧ answers u { q with phase := .resp, err := some .align }))

/-- A sync word's home cycle, of the first k updates that wait at it. Increments are applied as one sum: the count grows by it, or, where
it reaches the target, one generation is counted and the remainder kept; a remainder that still reaches the target sets OVF, and
F_SYNCOVER comes back to the first in port order. Each increment is answered; an advance releases what it satisfies: each SYWCH that
waits here is answered, no launch's dependence on the word is left that it meets, and a sequencer at SQWAIT goes on. An SYA alone sets
the word and its mark, is answered, and releases what its generation satisfies; with a zero word it clears both where nothing waits, and
answers F_BOUNDS where something does. No other word changes (R46, R133, R137 to R140, R400, R401). -/
def Obligations.SyncHomeCycleCompletes : Prop :=
  ∀ (s : State) (word k : Nat), s.copyKey word = none →
    let w := syncVal s.mem word
    let ups := ((s.waitingAt word).filter (fun q => isSya q || isSyadd q)).take k
    let n := syncCnt w + (ups.map syAmount).sum
    let tgt := syncTgt w
    let ovf := if tgt ≤ n - tgt then 1 else w / 8 % 2
    let after (u : State) (v : Nat) : Prop := exec (.syncHomeCycle word k) s = .next u ∧ syncVal u.mem word = v
      ∧ ∀ a, ¬ (word ≤ a ∧ a < word + 16) → memByte u.mem a = memByte s.mem a
    let answered (u : State) (q : Req) : Prop := ∃ y ∈ u.reqs, y.id = q.id ∧ y.phase = .resp
    let released (u : State) (gen : Nat) : Prop :=
      (∀ q ∈ s.waitingAt word, ∀ g, q.op = .sywch g → genMet gen g = true → answered u q)
      ∧ (∀ pid, ∀ l ∈ (u.part pid).launches, ∀ d ∈ l.deps, d.1 = word → genMet gen d.2 = false)
      ∧ (∀ r g, (s.region r).seq = .await word g → genMet gen g = true → s.moving r = true →
          s.keyWay (s.physDie (rkDie r)) word = true → (u.region r).seq = .run)
    (s.marked word 16 = true → ups ≠ [] → (∀ q ∈ ups, isSyadd q = true ∧ q.who = .firing) →
        (n < tgt → ∃ u, after u (syncBits tgt n (syncGen w) (w / 16 % 2 ^ 28) (w / 8 % 2) (syncScope w)) ∧ ∀ q ∈ ups, answered u q)
        ∧ (tgt ≤ n → ∃ u, after u (syncBits tgt (n - tgt) (syncGen w + 1) (w / 16 % 2 ^ 28) ovf (syncScope w))
            ∧ (∀ q ∈ ups, answered u q) ∧ released u ((syncGen w + 1) % 2 ^ 16)
            ∧ (tgt ≤ n - tgt → ∃ q ∈ ups, (∀ x ∈ ups, s.portRank word q ≤ s.portRank word x)
                ∧ ∃ y ∈ u.reqs, y.id = q.id ∧ y.err = some .syncOver)))
    ∧ (∀ q tgt sc gen, ups = [q] → q.op = .sya tgt sc gen → tgt ≠ 0 →
        ∃ u, after u (syncBits tgt 0 gen 0 0 sc) ∧ u.marks.get (word / 16) = true ∧ answered u q ∧ released u (gen % 2 ^ 16))
    ∧ (∀ q, ups = [q] → q.op = .sya 0 0 0 → s.hasWaiter word = false →
        ∃ u, after u 0 ∧ u.marks.get (word / 16) = false ∧ answered u q)
    ∧ (∀ q, ups = [q] → q.op = .sya 0 0 0 → s.hasWaiter word = true →
        ∃ u, after u w ∧ ∃ y ∈ u.reqs, y.id = q.id ∧ y.phase = .resp ∧ y.err = some .bounds)

/-- A versioned word's home cycle with one waiter, behind no older access of its element and no posted write to the word: an LDV of its version answers its 8 bytes and
what the STV that wrote them released, an STV of the next version writes its bytes and takes the word to that version, an RCLM of its
version clears the word and its version; by the distance that R160 gives each, one of an older version answers F_VERSION and one of a
newer keeps waiting. Behind such an access or write all wait (R157, R160, R355, R382, R399). -/
def Obligations.VersionHomeCycleCompletes : Prop :=
  ∀ (s : State) (word : Nat) (q : Req), OnlyWaits s word q → s.copyKey word = none →
    let ver := (s.vers.get (word / 8)).toNat
    let behind : Bool := s.olderOpen q || s.nearPosted (rkDie q.ret.rk) (some q.ret.rk) word 8
    let result (p : State → Prop) : Prop := ∃ u, exec (.versionHomeCycle word) s = .next u ∧ p u
      ∧ ∀ a, ¬ (word ≤ a ∧ a < word + 8) → memByte u.mem a = memByte s.mem a
    let answers (u : State) (x : Req) : Prop := u.reqs = s.reqs.map (fun y => if y.id = q.id then x else y)
    let turnedAway (d : Int) : Prop :=
      (1 ≤ d % 256 ∧ d % 256 ≤ 127 → result (fun u => u.mem = s.mem ∧ answers u { q with phase := .resp, err := some .version }))
      ∧ (128 ≤ d % 256 → exec (.versionHomeCycle word) s = .next s)
    (behind = false →
      (∀ v, q.op = .ldv v → v = ver → s.eccBad word 8 = false → result (fun u => u.mem = s.mem
          ∧ answers u { q with phase := .resp, res := some { q.ret.hdr with lanes := natLanes 2 (bytesVal (memBytes s.mem word 8)) },
                               cov := s.relCov.get word }))
      ∧ (∀ v, q.op = .stv v → v < 256 → v = (ver + 1) % 256 → q.data.length = 8 → s.performed (keyTier word) q.cov = true →
          result (fun u => memBytes u.mem word 8 = q.data ∧ (u.vers.get (word / 8)).toNat = v ∧ answers u { q with phase := .resp }
            ∧ (word % 4 = 0 → u.relCov.get word = q.cov)))
      ∧ (∀ v, q.op = .rclm v → v = ver → result (fun u => memBytes u.mem word 8 = List.replicate 8 0 ∧ u.vers.get (word / 8) = 0
          ∧ answers u { q with phase := .resp }))
      ∧ (∀ v, q.op = .ldv v ∨ q.op = .rclm v → turnedAway ((ver : Int) - v))
      ∧ (∀ v, q.op = .stv v → s.performed (keyTier word) q.cov = true → turnedAway ((ver : Int) - v + 1)))
    ∧ (behind = true → exec (.versionHomeCycle word) s = .next s)

/-- A tile's cycle serves at most one lane in each of its 16 banks, and the requests then done answer: a request of one word, or of an
atomic's two, alone in the tile's queue, whose sub-buffer is still in a state that takes it, has then read its word, stored its word, or
stored its atomic's new value and read the old one, and its answer is on its way with the flags; one whose sub-buffer is not answers
its fault and changes no byte (R132, R141, R142, R321 to R323; log entry 124). A stream binding that may read ahead fetches one packet
more, up to 8 and never past the fill mark; otherwise nothing changes (R134). -/
def Obligations.TileCyclesComplete : Prop :=
  ∀ (s : State) (r tile frm b : Nat), s.moving r = true →
    let key := 8 * r + tile
    let fr := s.frame r frm
    let x := s.bnd r frm b
    let ring := s.ringOf r frm b
    let more : Prop := (fr.st = .firing ∨ fr.st = .draining) ∧ x.shape.size ≠ 0 ∧ x.shape.mode = 0 ∧ x.ahead < 8
      ∧ (ring.atCons.st = .full ∨ ring.atCons.st = .draining) ∧ ring.ccur + 4 * (x.ahead + 1) ≤ ring.atCons.mark
    exec (.tileBankCycle r tile) s
      = .next ((((List.range 16).foldl (fun t bank => t.1.serveBank key bank t.2) (s, [])).1.tileDone key).touch r)
    ∧ (∀ (q : TileReq) (off : Nat), s.tileQ.get key = [q] → q.offs = [off] → q.left = [0] → q.got = [] → q.err = none →
        q.size = 4 ∨ (q.kind = 2 ∧ q.size = 8) →
        let a := tileKey q.ret.rk (key % 8) off
        let old := bytesVal (memBytes s.mem a q.size)
        let new := atomNew q.sub q.signed q.size old q.b q.p
        let leaves (u : State) (m : Req) : Prop := exec (.tileBankCycle r tile) s = .next u ∧ u.tileQ.get key = [] ∧ u.reqs = s.reqs ++ [m]
          ∧ m.op = .answer ∧ m.id = q.id ∧ m.ret = q.ret ∧ m.phase = .resp
        let done (p : Packet) (fl : BitVec 32) (v : List Byte) : Prop := ∃ u m, leaves u m ∧ m.err = none ∧ m.res = some p ∧ m.flags = fl
          ∧ memBytes u.mem a v.length = v ∧ ∀ c, ¬ (a ≤ c ∧ c < a + v.length) → memByte u.mem c = memByte s.mem c
        (s.tileCheck key q = none →
          (q.kind = 0 → s.eccBad a 4 = false →
            done { q.ret.hdr with fmt := q.fmt, fpx := q.fpx, sc := false, lanes := [BitVec.ofNat 32 (bytesVal (memBytes s.mem a 4))] }
              q.flags [])
          ∧ (q.kind = 1 → done (resPk (.pkt q.ret.hdr) .n32 [1]) q.flags (valBytes 4 (q.data.getD 0 0).toNat))
          ∧ (q.kind = 2 → s.eccBad a q.size = false →
            done { q.ret.hdr with lanes := natLanes (q.size / 4) old } new.2 (valBytes q.size new.1)))
        ∧ (∀ c, s.tileCheck key q = some c → ∃ u m, leaves u m ∧ m.err = some c ∧ ∀ d, memByte u.mem d = memByte s.mem d))
    ∧ (more → exec (.streamReadAhead r frm b) s = .next (s.modBnd r frm b (fun y => { y with ahead := y.ahead + 1 })))
    ∧ (¬ more → exec (.streamReadAhead r frm b) s = .next s)

end Statements

namespace Sys2Proof.Claims

open Sys2Proof.Machine

/-! Engines, islands and partitions. -/

/-- May an accepted job start: it has not, its region moves and its VF is in service, no older job of its die is of its template or
meets its footprints, and its template has a credit where it is gated (R166, R177, R180, R181). -/
structure Startable (s : State) (j : Job) : Prop where
  waits : j.started = false
  moving : s.moving j.region = true
  served : s.served j.region = true
  order : ∀ x ∈ s.olderJobs j, j.tmov = none → x.tmov = none → x.tpl.id ≠ j.tpl.id
  apart : ∀ x ∈ s.olderJobs j, ∀ a ∈ s.feet x, ∀ b ∈ s.feet j, footsClash a b = false
  credit : j.tmov = none → j.tpl.cred ≠ 0 → ∃ t, (s.island j.die j.edge).byId j.tpl.id = some t ∧ t.2.credits ≠ 0

/-- A token at the head of a queue of an island whose template is armed and may act. -/
def TokenReady (s : State) (d edge q : Nat) (k : QTok) (slot : Nat) (t : Template) : Prop :=
  s.queueHead d edge q = some k ∧ (s.island d edge).byId k.tpl = some (slot, t) ∧ s.moving t.rk = true

/-- What taking a queue's token leaves once the island has acted on it. -/
def taken (s : State) (d edge q : Nat) (t : Template) (g : State → State) : State :=
  ((g (s.dropToken d edge q)).closeTemplates d edge).touch t.rk

/-- A started job with words still to move. -/
def Running (s : State) (i : Nat) (j : Job) : Prop :=
  s.jobAt i = some j ∧ j.started = true ∧ j.moved = false ∧ s.moving j.region = true

/-- A merge session that may act: open, its region moving. -/
def OpenMerge (s : State) (d q : Nat) : Prop := (s.merge d q).opened = true ∧ s.moving (s.merge d q).rk = true

/-- A step of an island that its ring did not refuse. -/
def Goes (x : State × Except FCode Merge) (m : Merge) : Prop := x.2 = .ok m

/-- The dies of a partition's rectangle. -/
def diesOf (s : State) (pid : Nat) : List Nat := s.rectDies (pRect (s.part pid))

end Sys2Proof.Claims

section Statements

open Sys2Proof Sys2Proof.Machine Sys2Proof.Claims

/-- Copy jobs: a job starts when nothing older stands before it, spending a credit where its template is gated; a FIRE queue's token
forms a job and a PERMIT queue's adds a credit, and a token that the template's checks turn away faults; a started job moves its next
unit; a job whose words are all at home completes, its SYNC increment posted first; a word for a tile is written and counted
(R136, R164, R166, R177 to R180, R182). A fault that a far access brought while the partition was SAVED is raised at the job's next turn
(R173, R181). -/
def Obligations.CopyEventsComplete : Prop :=
  ∀ (s : State) (i d edge q : Nat),
    (∀ j, s.jobAt i = some j → Startable s j → ∃ u, exec (.engineJobStart i) s = .next u
        ∧ u.jobs = s.jobs.map (fun x => if x.id = j.id then { j with started := true } else x) ∧ u.mem = s.mem
        ∧ (∀ t, j.tmov = none → j.tpl.cred ≠ 0 → (s.island j.die j.edge).byId j.tpl.id = some t →
            ∃ t', (u.island j.die j.edge).byId j.tpl.id = some t' ∧ t'.2.credits + 1 = t.2.credits))
    ∧ (∀ k slot t, TokenReady s d edge q k slot t → k.permit = false →
        (∀ org, originOf k.f.pkt t.dims = .ok org → exec (.copyFireToken d edge q) s = .next (taken s d edge q t (fun u =>
          u.acceptJob { die := d, edge := edge, tslot := slot, tpl := t, origin := org, ql := some q, cov := k.f.pkt.cov })))
        ∧ (∀ c, originOf k.f.pkt t.dims = .error c →
          exec (.copyFireToken d edge q) s = .next (taken s d edge q t (fun u => u.tokenFault c t edge slot q))))
    ∧ (∀ k slot t, TokenReady s d edge q k slot t → k.permit = true →
        (k.f.pkt.kind = 3 → t.credits < t.cred → exec (.copyPermitToken d edge q) s = .next (taken s d edge q t (fun u =>
          u.modIsland d edge (fun x => { x with tpls := x.tpls.set slot (some { t with credits := t.credits + 1 }) }))))
        ∧ (k.f.pkt.kind ≠ 3 → exec (.copyPermitToken d edge q) s = .next (taken s d edge q t (fun u => u.tokenFault .fmt t edge slot q)))
        ∧ (k.f.pkt.kind = 3 → t.cred ≤ t.credits →
          exec (.copyPermitToken d edge q) s = .next (taken s d edge q t (fun u => u.tokenFault .bounds t edge slot q))))
    ∧ (∀ j, Running s i j → (j.tmov = none → j.unit ≠ j.tpl.units) → exec (.copyJob i) s = .next
        (((match j.late, j.tmov, j.ret with
           | some x, _, _ => s.jobFault j x.1 (s.jobVa j x.2)
           | none, some (a, b), some ret => s.moveStep j a b ret
           | none, _, _ => if j.tpl.store then s.storeStep j else s.loadStep j).drawn).touch j.region))
    ∧ (∀ j, s.jobAt i = some j → j.started = true → j.moved = true → s.moving j.region = true → (∀ w ∈ s.words, w.job ≠ i) →
        (j.far = true → s.trlsQuiet = true) → j.late = none →
        (j.tmov.isSome = true ∨ j.tpl.sync = 0 → exec (.copyJobComplete i) s = .next (((s.drainSource j).finishJob j).touch j.region))
        ∧ (∀ t, j.tmov = none → j.tpl.sync ≠ 0 → s.jobSync j = .ok (some t) →
            exec (.copyJobComplete i) s = .next ((((t.drainSource j).finishJob j).drawn).touch j.region)))
    ∧ (∀ w j frm k, s.words[i]? = some w → s.jobAt w.job = some j → s.moving w.rk = true → s.tagOwner w.rk w.tile w.tag = some (frm, k) →
        let b := s.bnd w.rk frm k
        let at_ := tileKey w.rk w.tile (b.shape.base + b.ring.prod * b.shape.sub + w.off)
        b.fills ≠ (b.tag.getD {}).nfill → (b.ring.atProd.st = .empty ∨ b.ring.atProd.st = .filling) → w.off + 4 ≤ b.shape.sub →
        j.allows 1 (8 * w.rk + w.tile) (b.shape.base + b.ring.prod * b.shape.sub + w.off) 4 true = true →
        ∃ u, exec (.tagWordArrive i) s = .next u ∧ u.words = s.words.eraseIdx i
          ∧ memBytes u.mem at_ 4 = valBytes 4 w.val.toNat ∧ (∀ a, ¬ (at_ ≤ a ∧ a < at_ + 4) → memByte u.mem a = memByte s.mem a)
          ∧ (b.count + 1 ≠ (b.tag.getD {}).wpf → (u.bnd w.rk frm k).count = b.count + 1 ∧ u.net = s.net)
          ∧ (b.count + 1 = (b.tag.getD {}).wpf → (u.bnd w.rk frm k).count = 0 ∧ (u.bnd w.rk frm k).fills = b.fills + 1
              ∧ ∃ f, u.net = s.net ++ [f] ∧ f.pkt.lanes = [BitVec.ofNat 32 b.fills]))

/-- Merge islands, exchange queues and nodes: a leaf's packet is checked and enters its window, and one of a partition with no session
there faults its producer (log entry 134); the root passes run ends, or combines its first entry, and what it emits, of an ended fibre
too, waits for room at the consumer; a spilled fibre is merged again, 16 runs at a time; an output packet leaves when its channel has room; a message enters its
queue, and one that has waited goes to the grounds ring; a node sends its next packet, begins a drain or answers one (R164, R184, R190,
R191, R196 to R207, R212, R213, R363). -/
def Obligations.MergeAndQueueEventsComplete : Prop :=
  ∀ (s : State) (i d q e : Nat),
    let m := s.merge d q
    let ends := m.used.map (fun l => m.leaves.get l)
    let n := s.node e
    (∀ f l, s.flitAt i = some f → f.dst = .leaf d q l → s.moving f.rk = true → OpenMerge s d q → s.pidOf f.rk = s.pidOf m.rk →
        s.performed 3 f.pkt.cov = true →
        (m.leafCheck l f.pkt = .ok () → (m.leaves.get l).count + m.entriesIn f.pkt ≤ m.window →
          exec (.mergeLeafPacket i) s = .next (((s.dropFlit i).modMerge d q (fun x => { x with
            leaves := x.leaves.set l (x.enter (x.leaves.get l) f.pkt), cov := (x.cov ++ f.pkt.cov).eraseDups })).touch m.rk))
        ∧ (∀ c, m.leafCheck l f.pkt = .error c →
          exec (.mergeLeafPacket i) s = .next ((s.dropFlit i).mergeFault c q m (some l) 0)))
    ∧ (∀ f l, s.flitAt i = some f → f.dst = .leaf d q l → s.moving f.rk = true → m.opened = false ∨ s.pidOf f.rk ≠ s.pidOf m.rk →
        s.performed 3 f.pkt.cov = true → exec (.mergeLeafPacket i) s = .next ((s.dropFlit i).noSession q l f))
    ∧ (∀ es, OpenMerge s d q → m.streamEnd = false → m.drain = some es →
        exec (.mergeRootEmit d q) s = .next (if s.rootRoom m = true then (s.emitNext d q m es).touch m.rk else s))
    ∧ (OpenMerge s d q → m.streamEnd = false → m.drain = none → m.accum = false → ends.any Leaf.atStop = false → s.rootRoom m = false →
        exec (.mergeRootEmit d q) s = .next s)
    ∧ (OpenMerge s d q → m.streamEnd = false → m.drain = none → m.remerge = false → m.runs.length < 4096 → m.pass = [] →
        (m.accum = false → s.rootRoom m = true) →
        (ends.any Leaf.atStop = true → exec (.mergeRootEmit d q) s = .next ((s.setMerge d q { m with
          leaves := m.used.foldl (fun t l => if (t.get l).atStop then t.modify l Leaf.passStop else t) m.leaves }).touch m.rk))
        ∧ (∀ l k v r, ends.any Leaf.atStop = false → ends.all Leaf.rend = false → (∀ x ∈ ends, x.rend = true ∨ x.win ≠ []) →
            m.best = some (l, k, v) →
            let y := { m with leaves := m.leaves.modify l (fun x => { x with win := x.win.drop 1 }) }
            let x := s.combine d q y k v
            exec (.mergeRootEmit d q) s = .next (s.mergeStep d q m x (m.segBytes m.buf.length))
            ∧ (Goes x r → exec (.mergeRootEmit d q) s = .next ((x.1.setMerge d q r).touch m.rk))
            ∧ (m.hold = none → exec (.mergeRootEmit d q) s
                = .next (((s.addFlags m.e (m.held v).2).setMerge d q { y with hold := some (k, (m.held v).1) }).touch m.rk))
            ∧ (∀ u, m.hold = some (k, u) → m.cmb ≠ 0 → exec (.mergeRootEmit d q) s
                = .next ((((s.addFlags m.e (m.held v).2).addFlags m.e (m.fold u (m.held v).1).2).setMerge d q
                    { y with hold := some (k, (m.fold u (m.held v).1).1) }).touch m.rk)))
        ∧ (ends.any Leaf.atStop = false → ends.all Leaf.rend = true → m.hold = none →
            exec (.mergeRootEmit d q) s = .next (s.mergeStep d q m (s.endRound d q m) (m.segBytes m.buf.length)))
        ∧ (∀ k v, ends.any Leaf.atStop = false → ends.all Leaf.rend = true → m.hold = some (k, v) → m.accum = false →
            exec (.mergeRootEmit d q) s
              = .next (((s.addFlags m.e (m.emit k v).2).setMerge d q { (m.emit k v).1 with hold := none }).touch m.rk)))
    ∧ (OpenMerge s d q → m.drain = none → (m.remerge = true ∨ 4096 ≤ m.runs.length ∨ m.pass ≠ []) →
        exec (.mergeRemergePass d q) s = .next (s.mergeStep d q m (s.mergePass d q m) (s.passBytes m)))
    ∧ (∀ r, OpenMerge s d q → m.drain = none → (m.remerge = true ∨ 4096 ≤ m.runs.length ∨ m.pass ≠ []) → Goes (s.mergePass d q m) r →
        exec (.mergeRemergePass d q) s = .next (((s.mergePass d q m).1.setMerge d q r).touch m.rk))
    ∧ (∀ p rest dst, m.out = p :: rest → s.moving m.rk = true → s.destOf m.e m.oroute = some dst → s.sendStop m.e dst = none →
        s.consumerFree dst p = true →
        let f : Flit :=
          { pkt := { p with cov := s.live m.cov, tag := tTag m.oroute }, src := some (m.e, 9 + q), slot := m.slot, rk := m.rk,
            frm := m.frm, dst := dst }
        exec (.mergeOutputSend d q) s = .next (((({ s with net := s.net ++ [f] } : State).modMerge d q (fun x => { x with
          out := rest, sentEnd := x.sentEnd || (p.kind == 2 && p.eof == 3) })).closeMerge d q).touch m.rk))
    ∧ (∀ j h x, s.jobAt i = some j → j.xq ≠ 0 → j.queued = false → j.done = false → s.moving j.region = true →
        (s.descs.get (j.xq - 1)).shape = some h → (s.descs.get (j.xq - 1)).xq = some x → 4 * j.msg.length ≤ h.sub →
        s.marked (s.descBase (j.xq - 1) h + (s.descs.get (j.xq - 1)).ring.prod * h.sub) (4 * j.msg.length) = false →
        exec (.xqMessage i) s = .next (((((s.setJob { j with queued := true }).modXq (j.xq - 1) (fun y => { y with
          waiting := y.waiting ++ [(j.msg, j.id)] })).refillAll (j.xq - 1) h (x.records.length + x.waiting.length + 1)).closeQueues
            x.rk x.frm).touch j.region))
    ∧ (∀ h x ls id rest off, (s.descs.get i).shape = some h → (s.descs.get i).xq = some x → s.moving x.rk = true →
        (s.descs.get i).ring.atProd.st ≠ .empty → x.waiting = (ls, id) :: rest →
        let y := s.ringAppend x.pid 1 (messageHead i (4 * ls.length)) ls
        (y.2 = .ok off → exec (.xqDivert d i) s = .next (((y.1.modXq i (fun z => { z with
          waiting := rest, records := z.records ++ [(off, 4 * ls.length)], total := min (2 ^ 32 - 1) (z.total + 1) })).jobSent id).touch x.rk))
        ∧ (∀ c, y.2 = .error c → exec (.xqDivert d i) s = .next (y.1.raiseQueue c x (recordLen ls.length))))
    ∧ (n.k ≠ [] → s.moving n.rk = true →
        (∀ p w rest, n.sends = (p, w) :: rest → exec (.nodeRouteSend e) s = .next ((s.nodeSend e p w rest).touch n.rk))
        ∧ (∀ ret k, n.sends = [] → n.result = some (ret, k) → exec (.nodeRouteSend e) s = .next ((s.endDrain e ret k).touch n.rk))
        ∧ (∀ route mc nc base fmt rnd zero ret rest, n.sends = [] → n.result = none →
            n.cmds = .drain route mc nc base fmt rnd zero ret :: rest →
            exec (.nodeRouteSend e) s = .next ((s.startDrain e n route mc nc base fmt rnd zero ret).touch n.rk)))

/-- Partitions: a freeze lands on a die of the rectangle, and what waits for it follows once it has landed on all; a slice's end tamps
the partition where another member of its group has work, unless a launch of it is to be abandoned; a scrub's end frees it, which waits
while the root is being taken over; a frame's copy ends with the new frame holding the
old one's bytes and the old one's waiters; a fault record
goes to its steward's path once the channels of that path are keyed, in the order of its VF's records of that die, and one that abandons
its launch once the freeze is there; the quiet counts and the probe decide completion, WAITING or F_DEADLOCK; a
barista window clears the refusal counts and clones a CLONABLE bottleneck into an idle region (R60, R63, R224, R235, R236, R240, R244, R249). Where a slice's turn falls (log entry
86), what the quiet counts and the probe count (log entry 87) and that a record waits for keyed channels (log entry 112) are the model's
choice. -/
def Obligations.PartitionEventsComplete : Prop :=
  ∀ (s : State) (die pid : Nat),
    let p := s.part pid
    let landed := s.modPart pid (fun x => { x with frozen := x.frozen ++ [die] })
    let counted := s.modPart pid (fun x => { x with pstat := putBits x.pstat 16 16 (bitsOf x.pstat 16 16 + 1) })
    let tamped := (counted.freezePart pid 1 0).modPart pid (fun x => { x with ending := 3 })
    let probed := s.modPart pid (fun x => { x with quiet := [] })
    let decided (n : Nat) : State := probed.modPart pid (fun x => { x with decision := n })
    let still := (s.elems.map (fun x : Nat × Elem =>
      if ekDie x.1 == die && s.pidOf (ekRegion x.1) == some pid then (x.1, { x.2 with refusals := 0 }) else x)).filter (fun x => x.2 != default)
    (pState p = 3 → die ∉ p.frozen → die ∈ diesOf s pid →
        (landed.allFrozen pid = false → exec (.freezeArrive die pid) s = .next landed)
        ∧ (landed.allFrozen pid = true → exec (.freezeArrive die pid) s = .next
            ((landed.onBehalf (pVf p) (fun y =>
              (p.launches.filter (fun l => l.rect.isSome)).foldl (fun t l => t.progress pid l) y)).frozenNow pid)))
    ∧ (pState p = 2 ∨ (pState p = 3 ∧ pCause p = 2 ∧ ∀ l ∈ p.launches, l.abandon = false) → s.sliceLen pid ≠ 0 → p.ending = 0 →
        (counted.nextMember pid = none → exec (.sliceEnd pid) s = .next counted)
        ∧ (∀ m, counted.nextMember pid = some m →
            exec (.sliceEnd pid) s = .next (if tamped.allFrozen pid then tamped.switchSlice pid else tamped)))
    ∧ (s.panel.root.takeover = true → exec (.scrubComplete pid) s = .next s)
    ∧ (pState p = 5 → s.panel.root.takeover = false → ∃ u, exec (.scrubComplete pid) s = .next u ∧ pState (u.part pid) = 0
        ∧ (∀ r ∈ s.partRegions pid, u.pidOf r = none))
    ∧ (∀ kind site lfn v l, let at_ := if kind = 0 then s.physSite site else 100 + s.physDie site
        let old := siteKey at_ (lfn * 2 ^ 21)
        let new := siteKey (s.newSite at_ v) (l * 2 ^ 21)
        s.panel.pgfw.get (at_ * 2 ^ 20 + lfn) = .copy v l → Memory.wf s.mem = true → (new + 2 ^ 21 ≤ old ∨ old + 2 ^ 21 ≤ new) →
        ∃ u, exec (.sliceCopyComplete kind site lfn) s = .next u ∧ u.panel.pgfw.get (at_ * 2 ^ 20 + lfn) = .moved v l
          ∧ (∀ k < 2 ^ 21, memByte u.mem (new + k) = memByte s.mem (old + k))
          ∧ (∀ a, ¬ (new ≤ a ∧ a < new + 2 ^ 21) → memByte u.mem a = memByte s.mem a)
          ∧ (∀ x ∈ s.reqs, x.phase = .wait → old ≤ x.word → x.word < old + 2 ^ 21 → { x with word := new + (x.word - old) } ∈ u.reqs))
    ∧ (∀ m, s.recs.head? = some m → s.eventOpen m.die m.record.vf = true → m.record.code ≠ 0x60 →
        let t : State := { s with recs := s.recs.filter (fun y => y.id != m.id) }
        let abandons := m.record.code != FCode.resume.num && (match s.recordLaunch m.record with | some l => l.abandon | none => false)
        let early := abandons && pState (s.part m.record.pid) == 3 && !(s.allFrozen m.record.pid)
        exec (.faultRecordDeliver m.id) s = .next (if early then s else
          ((t.stewardPath m.die { m.record with abnd := abandons }).abandonAll m.record.pid).finishVf m.record.vf))
    ∧ (∀ m, s.recs.head? = some m → s.eventOpen m.die m.record.vf = false → exec (.faultRecordDeliver m.id) s = .next s)
    ∧ (pState p = 2 → s.accessInFlight die pid = false → die ∉ p.quiet → die ∈ diesOf s pid →
        exec (.quietCountExpire die pid) s = .next (s.modPart pid (fun x => { x with quiet := x.quiet ++ [die] })))
    ∧ (pState p = 2 → (∀ d ∈ diesOf s pid, d ∈ p.quiet) →
        (p.launches.all probed.allDone = true → exec (.quiescenceProbe pid) s = .next (decided 1))
        ∧ (p.launches.all probed.allDone = false → probed.awaitsOthers pid = true → exec (.quiescenceProbe pid) s = .next (decided 2).drawn)
        ∧ (p.launches.all probed.allDone = false → probed.awaitsOthers pid = false → exec (.quiescenceProbe pid) s
            = .next ((p.launches.filter (fun l => !(probed.allDone l))).foldl (fun t l => t.reportLaunch pid l) ((decided 3).freezePart pid 2 FCode.deadlock.num)).drawn))
    ∧ (∀ idle, s.bottleneck die pid = none → exec (.baristaWindow die pid idle) s = .next { s with elems := still })
    ∧ (∀ idle e f, s.bottleneck die pid = some e → s.channelFrame e = some f →
        let fr := s.frame (ekRegion e) f
        fr.flags.cln = true → fr.clones.length < 3 → idle < 16 → s.idleRegion (rkOf die idle) pid = true →
        (fr.st = .firing ∨ fr.st = .draining) → exec (.baristaWindow die pid idle) s
          = .next ({ s with elems := still }.modFrame (ekRegion e) f (fun x => { x with clones := x.clones ++ [(rkOf die idle, 0)] })))

end Statements

namespace Sys2Proof.Claims

open Sys2Proof.Machine

/-! The management plane, the host, TRLS, SPDM, links and power. -/

/-- What R268 does with a command other than STW_LAUNCH: BUSY during a root takeover, REFUSED where its condition fails, and DONE with
its answer. -/
def Answered (s : State) (i : Instr) (op : Nat) (tag : BitVec 32) (c : Prop) (t : State) (body : List Byte) : Prop :=
  (s.panel.root.takeover = true → exec i s = .next (s.mgmtAnswer op 3 tag []))
  ∧ (s.panel.root.takeover = false → ¬ c → exec i s = .next (s.mgmtAnswer op 1 tag []))
  ∧ (s.panel.root.takeover = false → c → exec i s = .next (t.mgmtAnswer op 0 tag body))

/-- The panel, the root and an Ethernet port die changed. -/
def onPanel (s : State) (f : Panel → Panel) : State := { s with panel := f s.panel }
def onPort (s : State) (q : Nat) (f : PortDie → PortDie) : State := onPanel s (fun x => { x with ports := x.ports.modify q f })

/-- The VF of a command is enabled, and the PID is one of its partitions (R268). -/
def VfPid (s : State) (vf pid : Nat) : Prop := s.vfServed vf = true ∧ s.vfHas vf pid = true

/-- The open queue pairs that a test picks. -/
def openPairs (s : State) (f : QPair → Bool) : Nat := (s.panel.qps.filter (fun x => x.2.isOpen && f x.2)).length

/-- The head of a queue that the host moves: past the old, not past the last entry written. -/
def HeadMoves (head last v : Nat) : Prop := head < v ∧ v ≤ last ∧ v < 2 ^ 32

/-- A request of another panel that is next in its stream: from an open session, under its key, with the number expected, and the
stream has a number left for the answer. -/
def Next (s : State) (h : TrlsHdr) : Prop :=
  s.trlsOurs h = true ∧ s.streamFull h.spanel.toNat h.stream.toNat = false
    ∧ h.psn.toNat = ((s.trlsAcked h.spanel.toNat h.stream.toNat h.apsn.toNat).stream h.spanel.toNat h.stream.toNat).expect % 2 ^ 32

/-- The state in which a packet with the number expected is served: its acknowledgement taken, its number counted. -/
def counted (s : State) (h : TrlsHdr) : State :=
  (s.trlsAcked h.spanel.toNat h.stream.toNat h.apsn.toNat).modStream h.spanel.toNat h.stream.toNat
    (fun x => { x with expect := ((s.trlsAcked h.spanel.toNat h.stream.toNat h.apsn.toNat).stream h.spanel.toNat h.stream.toNat).expect + 1 })

/-- A packet taken, and acknowledged. -/
def ackTaken (h : TrlsHdr) (t : State) : Host.Outcome State Fault Refusal := .next (t.trlsControl h.spanel.toNat h.stream.toNat 5 0)

/-- The key of a request of another panel, where it may be served. -/
def Reaches (s : State) (h : TrlsHdr) (need : Rights) (a : Nat) : Prop :=
  Next s h ∧ (counted s h).farKey (payVf h) h.gpa.toNat (paySize h) need = .ok a

/-- A request that a die serves: its responder runs, its session has a message left before KEY_UPDATE, and the requests before this one
have been made (R250, R254). -/
def RoomFor (s : State) (u : UnitId) : Prop := (s.unit u).spdm.session = true → (s.unit u).spdm.msgs < 2 ^ 20
def Ready (s : State) (u : UnitId) (f : Spdm → Bool) : Prop := s.responds u = true ∧ RoomFor s u ∧ f (s.unit u).spdm = true

/-- A request of the root heard by a die: counted in a secured session, and put into the transcript (R250). -/
def asked (s : State) (u : UnitId) (req : List Byte) : State :=
  s.modSpdm u (fun x => { x with msgs := (if x.session then x.msgs + 1 else x.msgs), transcript := x.transcript ++ req })

/-- A host's access all of whose pieces a test holds of: the pieces of this panel's memory. -/
def HereAll (ps : List HostPiece) (f : HostPiece → Bool) : Prop := ∀ p ∈ ps, p.key < 2 ^ 63 → f p = true
def HereSome (ps : List HostPiece) (f : HostPiece → Bool) : Prop := ∃ p ∈ ps, p.key < 2 ^ 63 ∧ f p = true

end Sys2Proof.Claims

section Statements

open Sys2Proof Sys2Proof.Machine Sys2Proof.Claims

/-- Management commands: a steward launch is refused for a die that is not ACTIVE or for its header, and is put at the end of its
steward's queue otherwise; every other command is BUSY during a root takeover, REFUSED where its condition fails, and otherwise done and
answered; MW_CLOSE is answered once the window's accesses in progress have been applied; a command of no layout is answered FORMAT and
changes nothing. REFUSED for a misaligned field, numbers that are never used again and the first step of STW_LAUNCH are the model's choice
(log 88), and so are the completions held over SQ_BIND and the count of RING_SET (log 89) (R263, R264, R267 to R271, R434). -/
def Obligations.ManagementCommandsComplete : Prop :=
  ∀ (s : State) (tag rqpn qpn key entries : BitVec 32) (vdn port plen vf pid q ring : Byte) (panel udp : BitVec 16) (addr rip : BitVec 128)
    (psn index : BitVec 32) (addrs : List (BitVec 128)) (rd wr : Bool) (va len : Dword) (hdr : List Dword) (msg : List Byte),
    let d := vdn.toNat
    let v := vf.toNat
    let live : Prop := d < s.ndies ∧ s.dieActive d = true
    let bell := doorbellKey v
    let next := freshNumber s.panel.qps
    let fresh := freshNumber s.panel.windows
    let pair : QPair := { isOpen := true, vf := v, pid := pid.toNat, port := port.toNat, rqpn := rqpn, rip := rip, psn := psn }
    let window : Window := { isOpen := true, vf := v, pid := pid.toNat, rd := rd, wr := wr, va := va.toNat, len := len.toNat }
    let queue : SubQ :=
      { bound := true, pid := pid.toNat, qpn := qpn.toNat, va := va.toNat, key := key.toNat, entries := entries.toNat }
    let bound : SubQ := { queue with held := ((s.vf v).sqs.get q.toNat).held }
    let closed := (s.hostOps qpn.toNat).foldl (fun t op => t.hostEnd qpn.toNat op (.nak qpn.toNat 2)) s
    let ended := closed.endWindows
    let mw := s.panel.windows.get key.toNat
    let closing : State := onPanel s (fun x => { x with
      windows := x.windows.modify key.toNat (fun y => { y with closing := some (s.cur.1, tag) }) })
    let job (c : Option Nat) : StwJob :=
      { tag := tag, port := s.cur.1, launch := { hdr := hdr, origin := .steward tag s.cur.1, cmp := c } }
    (¬ live → exec (.stwLaunch tag vdn hdr) s = .next (s.mgmtAnswer 1 1 tag []))
    ∧ (live → stewardHeader hdr = false → exec (.stwLaunch tag vdn hdr) s
        = .next (s.mgmtAnswer 1 0 tag (dwordBytes (completionEntry hdr 1 (refusalCode 1 hdr) 255 0 false 0 0 0 0))))
    ∧ (∀ c, live → stewardHeader hdr = true → s.stewardCmp (rkOf d 16) hdr = some c → ∃ u, exec (.stwLaunch tag vdn hdr) s = .next u
        ∧ (u.die d).stw = (s.die d).stw ++ [job c])
    ∧ Answered s (.portAddr tag port plen addr) 2 tag (port.toNat < s.ports ∧ plen.toNat ≤ 128)
        (onPort s (port.toNat / 8) (fun x => { x with addrs := x.addrs.set (port.toNat % 8) (plen, addr) })) []
    ∧ Answered s (.peerSet tag panel addrs) 3 tag (panel.toNat < 1024)
        (let t := s.modRoot (fun x => { x with peers := x.peers.set panel.toNat addrs })
         if addrs = [] then t.endTrls panel.toNat else t) []
    ∧ Answered s (.trlsCfg tag udp panel) 4 tag (panel.toNat < 1024 ∧ ∀ x ∈ s.panel.root.sessions, x.2.isOpen = false)
        (s.modRoot (fun x => { x with trlsPort := some udp, panelNo := panel })) []
    ∧ Answered s (.qpOpen tag vf pid port rqpn rip psn) 5 tag
        (VfPid s v pid.toNat ∧ s.portUp port.toNat = true
          ∧ openPairs s (fun x => x.vf == v) < bitsOf (s.vftAt 200 v).2 26 8
          ∧ openPairs s (fun x => x.port / 8 == port.toNat / 8) < 4096)
        (onPanel s (fun x => { x with qps := x.qps.set next pair }))
        (valBytes 4 next)
    ∧ Answered s (.qpClose tag qpn) 6 tag ((s.panel.qps.get qpn.toNat).isOpen = true)
        (onPanel ended (fun x => { x with qps := x.qps.modify qpn.toNat (fun y => { y with isOpen := false }) })) []
    ∧ Answered s (.mwOpen tag vf pid rd wr va len) 7 tag
        (VfPid s v pid.toNat ∧ va.toNat % 4096 = 0 ∧ len.toNat % 4096 = 0 ∧ va.toNat + len.toNat ≤ 2 ^ 57)
        (onPanel s (fun x => { x with windows := x.windows.set fresh window }))
        (valBytes 4 fresh)
    ∧ (s.panel.root.takeover = true → exec (.mwClose tag key) s = .next (s.mgmtAnswer 8 3 tag []))
    ∧ (s.panel.root.takeover = false → (mw.isOpen = false ∨ mw.closing.isSome = true) →
        exec (.mwClose tag key) s = .next (s.mgmtAnswer 8 1 tag []))
    ∧ (s.panel.root.takeover = false → mw.isOpen = true → mw.closing = none →
        (s.windowBusy key.toNat = true → exec (.mwClose tag key) s = .next closing)
        ∧ (s.windowBusy key.toNat = false → ∃ t, exec (.mwClose tag key) s = .next t
            ∧ (t.panel.windows.get key.toNat).isOpen = false
            ∧ t.panel.hostOut = s.panel.hostOut ++ [.mgmt s.cur.1 (mgmtMsg 8 0 tag [])]))
    ∧ Answered s (.sqBind tag vf q pid qpn va key entries) 9 tag
        (VfPid s v pid.toNat ∧ q.toNat < bitsOf (s.vftAt 200 v).2 20 6 ∧ s.qpOf qpn.toNat v = true
          ∧ ∃ k, 6 ≤ k ∧ k ≤ 16 ∧ entries.toNat = 2 ^ k)
        ((s.modVf v (fun y => { y with sqs := y.sqs.set q.toNat bound, doorbell := bell })).flushQueue v q.toNat)
        (valBytes 4 bell)
    ∧ Answered s (.ringSet tag vf ring qpn va key) 10 tag (s.vfServed v = true ∧ ring.toNat ≤ 16 ∧ s.qpOf qpn.toNat v = true)
        ((((s.modRing v ring.toNat (fun x => { x with buf := some { qpn := qpn.toNat, va := va.toNat, key := key.toNat } })).modVf v
          (fun y => { y with
            home := (if ring.toNat = 0 then s.cur.1 else y.home), mirror := (if ring.toNat = 0 then s.mirrorOf s.cur.1 else y.mirror)
            doorbell := bell })).mirrorRing v ring.toNat).pump v)
        (valBytes 4 bell)
    ∧ Answered s (.cfgRead tag 0 index) 11 tag (index.toNat < s.ports) s
        (encodeMgmtBody (.portAddr tag (BitVec.ofNat 8 index.toNat) ((s.panel.ports.get (index.toNat / 8)).addrs.get (index.toNat % 8)).1
          ((s.panel.ports.get (index.toNat / 8)).addrs.get (index.toNat % 8)).2)).2.2
    ∧ Answered s (.cfgRead tag 1 index) 11 tag (index.toNat < 1024) s
        (encodeMgmtBody (.peerSet tag (BitVec.ofNat 16 index.toNat) (s.panel.root.peers.get index.toNat))).2.2
    ∧ Answered s (.cfgRead tag 2 index) 11 tag (index.toNat = 0) s (encodeMgmtBody (.trlsCfg tag s.udpPort s.panel.root.panelNo)).2.2
    ∧ (∀ item : Byte, 3 ≤ item.toNat → Answered s (.cfgRead tag item index) 11 tag False s [])
    ∧ exec (.mgmtMalformedCommand msg) s = .next (s.mgmtAnswer (bytesAt msg 0 1) 4 (BitVec.ofNat 32 (bytesAt msg 4 4)) [])

/-- The host's accesses: a doorbell write of a doubleword at the offset of a head moves that head, where it moves forward and not past
the last entry written, and any other is answered with a NAK, as is one at a port die that is not the VF's home; a VF that is not enabled, and
a queue pair that is not open, answer nothing; a write that its window and the translation allow acts on this panel's memory at once,
goes to another panel's in STOREs, and is acknowledged once those are answered; a read is answered with the bytes; one that is refused,
a write that meets a sync word and a read that meets an error are answered with a NAK; a CNP slows its pair; an undefined opcode is answered with a NAK (R138, R170,
R232, R263, R270). The refused doorbell's NAK on queue pair 0, a head modulo 2^32 and the NAK of a READ that meets an error are the
model's choice (log 89). -/
def Obligations.HostAccessesComplete : Prop :=
  ∀ (s : State) (vf off k qpn key va len opc : Nat) (data : List Byte),
    let pair := s.panel.qps.get qpn
    let n := bytesVal data
    let nak (t : State) : Host.Outcome State Fault Refusal := .next ((t.emit (.nak qpn 2)).drawn)
    let ring := s.ring vf k
    let sq := (s.vf vf).sqs.get k
    let window := ¬ (key = doorbellKey pair.vf ∧ (s.vf pair.vf).doorbell = key)
    (s.vfServed vf = false → exec (.doorbellWrite vf off data) s = .next s)
    ∧ (s.vfServed vf = true → data.length = 8 → k ≤ 16 → HeadMoves ring.head ring.sent n →
        exec (.doorbellWrite vf (8 * k) data) s = .next (((s.modRing vf k (fun y => { y with
          head := n, recs := y.recs.drop (n - y.head) })).pump vf).emit (.ack 0)))
    ∧ (s.vfServed vf = true → data.length = 8 → k < 64 → HeadMoves sq.head sq.written n →
        exec (.doorbellWrite vf (256 + 8 * k) data) s = .next (((s.modVf vf (fun y => { y with
          sqs := y.sqs.modify k (fun z => { z with head := n }) })).flushQueue vf k).emit (.ack 0)))
    ∧ (s.vfServed vf = true → data.length = 8 → k ≤ 16 → ring.sent < n → ring.head ≤ ring.sent → n < 2 ^ 32 →
        exec (.doorbellWrite vf (8 * k) data) s = .next (s.emit (.ack 0)))
    ∧ (s.vfServed vf = true → (data.length ≠ 8 ∨ off % 8 ≠ 0 ∨ (128 < off ∧ off < 256) ∨ 768 ≤ off) →
        exec (.doorbellWrite vf off data) s = .next (s.emit (.nak 0 2)))
    ∧ (pair.isOpen = false → exec (.roceWrite qpn key va data) s = .next s ∧ exec (.roceRead qpn key va len) s = .next s
        ∧ exec (.roceCnp qpn) s = .next s ∧ exec (.roceInvalidOpcode qpn opc) s = .next s)
    ∧ (pair.isOpen = true → ¬ window →
        (pair.port / 8 = (s.vf pair.vf).home → exec (.roceWrite qpn key va data) s = .next (s.doorbell qpn pair.vf va data))
        ∧ (pair.port / 8 ≠ (s.vf pair.vf).home → exec (.roceWrite qpn key va data) s = .next (s.emit (.nak qpn 2))))
    ∧ (pair.isOpen = true → window →
        (s.hostRange pair key va data.length needWrite = none → exec (.roceWrite qpn key va data) s = nak s)
        ∧ (∀ ps, s.hostRange pair key va data.length needWrite = some ps → HereSome ps (fun p => s.marked p.key p.len) →
            exec (.roceWrite qpn key va data) s = nak s)
        ∧ (∀ ps, s.hostRange pair key va data.length needWrite = some ps → HereAll ps (fun p => !(s.marked p.key p.len)) →
            let t := (s.hostPut qpn s.nextId key data ps).drawn
            exec (.roceWrite qpn key va data) s = .next (if s.nextId ∈ t.hostOps qpn then t else t.emit (.ack qpn)))
        ∧ (∀ ps, (∀ p ∈ ps, p.key < 2 ^ 63) → s.hostPut qpn s.nextId key data ps
            = ps.foldl (fun s p => s.putHome p.key ((data.drop p.off).take p.len)) s)
        ∧ (∀ (a : State) (g : Nat) (bs : List Byte), ∃ y ∈ (a.hostStore qpn s.nextId key g bs).reqs,
            y.who = .host qpn s.nextId key ∧ y.gpa = g ∧ y.data = bs ∧ y.phase = .deq))
    ∧ (pair.isOpen = true → (s.hostRange pair key va len needRead = none → exec (.roceRead qpn key va len) s = nak s)
        ∧ (∀ ps, s.hostRange pair key va len needRead = some ps → HereAll ps (fun p => !(s.eccBad p.key p.len)) →
            exec (.roceRead qpn key va len) s = .next ((s.emit (.data qpn (ps.flatMap (fun p =>
              if 2 ^ 63 ≤ p.key then (List.range p.len).map (fun i => Config.remoteByte s.draws (p.gpa + i)) else memBytes s.mem p.key p.len)))).drawn))
        ∧ (∀ ps, s.hostRange pair key va len needRead = some ps → HereSome ps (fun p => s.eccBad p.key p.len) →
            exec (.roceRead qpn key va len) s = nak s))
    ∧ (pair.isOpen = true → exec (.roceCnp qpn) s = .next (onPanel s (fun x => { x with
        qps := x.qps.modify qpn (fun y => { y with slowed := y.slowed + 1 }) }))
        ∧ exec (.roceInvalidOpcode qpn opc) s = .next (s.emit (.nak qpn 1)))

/-- TRLS: a packet of no open session changes nothing; one with the number expected is served and acknowledged, one seen before is
acknowledged again, and a gap is answered with NAK and the number expected; one
that would need an answer under a key that must roll first is not taken; a load, a store, an atomic and an increment act at their home
here, and a request that may not be served is answered with its fault; data answers a request of this panel; ACK frees packets, NAK and
the timeout send them again, the 17th time failing the stream; KEYSWITCH moves the receive key and restarts the numbers; an undefined
operation is counted; a rekey opens a session, or rolls the transmit key once every packet is acknowledged. The layout of the payloads
is the model's choice (logs 58 and 59), and so are the acknowledging of DATA, generation 0 at opening, the rekey that waits for
acknowledgements and the packet that a full stream does not take (log 101) (R138, R139, R145, R170, R264, R265). -/
def Obligations.TrlsPacketsComplete : Prop :=
  ∀ (s : State) (h : TrlsHdr) (panel n : Nat) (opc : BitVec 4),
    let p := h.spanel.toNat
    let k := h.stream.toNat
    let a := s.trlsAcked p k h.apsn.toNat
    let e := (a.stream p k).expect
    let b := counted s h
    let size := paySize h
    let need := if payKind h = 16 then needSync else if payKind h = 17 then needRead else needAtomic
    let refuses (i : Instr) (need : Rights) : Prop := ∀ c, Next s h → b.farKey (payVf h) h.gpa.toNat size need = .error c →
      exec i s = ackTaken h (b.drawn.answerIn h c.num [])
    let x := s.panel.root.sessions.get panel
    let opened : Session := { isOpen := true, asker := decide (s.panel.root.panelNo.toNat < panel), tkey := Config.sessionKey s.draws,
                              rkey := Config.sessionKey (s.draws + 1) }
    let mayKey : Prop := s.panel.root.takeover = false ∧ (s.panel.root.peers.get panel).isEmpty = false ∧ panel < 1024
    (∀ i ∈ [Instr.trlsLoad h, .trlsStore h, .trlsAtomic h, .trlsSyncadd h, .trlsData h],
        (s.trlsOurs h = false → exec i s = .next s)
        ∧ (s.trlsOurs h = true → s.streamFull p k = true → exec i s = .next s)
        ∧ (s.trlsOurs h = true → s.streamFull p k = false → h.psn.toNat ≠ e % 2 ^ 32 → after h.psn.toNat e = false → exec i s = .next (a.trlsControl p k 5 0))
        ∧ (s.trlsOurs h = true → s.streamFull p k = false → h.psn.toNat ≠ e % 2 ^ 32 → after h.psn.toNat e = true → exec i s = .next (a.trlsControl p k 6 e)))
    ∧ refuses (.trlsLoad h) needRead ∧ refuses (.trlsStore h) needWrite ∧ refuses (.trlsAtomic h) need ∧ refuses (.trlsSyncadd h) needSync
    ∧ (∀ g, Reaches s h needRead g → exec (.trlsLoad h) s = ackTaken h
        (if b.marked g size then b.drawn.answerIn h FCode.align.num [] else b.drawn.answerIn h 0 (memBytes b.mem g size)))
    ∧ (∀ g, Reaches s h needWrite g → exec (.trlsStore h) s = ackTaken h
        (if b.marked g size then b.drawn.answerIn h FCode.align.num [] else b.drawn.putHome g ((h.payload.drop 24).take size)))
    ∧ (∀ g, Reaches s h needAtomic g → payKind h ≠ 16 → payKind h ≠ 17 →
        let old := bytesVal (memBytes b.mem g size)
        let v := (atomNew (payKind h % 128) (128 ≤ payKind h) size old (payB h) (payP h)).1
        exec (.trlsAtomic h) s = ackTaken h (if b.marked g size then b.drawn.answerIn h FCode.align.num []
          else (b.drawn.putHome g (valBytes size v)).answerIn h 0 (valBytes size old)))
    ∧ (∀ g, Reaches s h needSync g → payKind h = 16 →
        (∀ c, syaCheck g (payB h) (payP h % 256) (payP h / 256) = some c → exec (.trlsAtomic h) s = ackTaken h (b.drawn.answerIn h c.num []))
        ∧ (syaCheck g (payB h) (payP h % 256) (payP h / 256) = none →
            exec (.trlsAtomic h) s = ackTaken h (b.drawn.waitIn h (.sya (payB h) (payP h % 256) (payP h / 256)) g)))
    ∧ (∀ g, Reaches s h needRead g → payKind h = 17 → exec (.trlsAtomic h) s = ackTaken h
        (if !(b.marked g 16) then b.drawn.answerIn h FCode.align.num []
         else if b.wordMet g (payB h) then b.drawn.answerIn h 0 [] else b.drawn.waitIn h (.sywch (payB h)) g))
    ∧ (∀ g, Reaches s h needSync g → exec (.trlsSyncadd h) s = ackTaken h
        (if b.marked g 16 then b.drawn.waitIn h (.syadd (payB h)) g else b.drawn.answerIn h FCode.align.num []))
    ∧ (Next s h → exec (.trlsData h) s = ackTaken h (b.farAnswer (payTag h) h.gpa.toNat (bytesAt h.payload 4 1) (h.payload.drop 8)))
    ∧ (s.trlsOurs h = false → exec (.trlsAck h) s = .next s ∧ exec (.trlsNak h) s = .next s ∧ exec (.trlsKeyswitch h) s = .next s)
    ∧ (s.trlsOurs h = true → exec (.trlsAck h) s = .next a
        ∧ exec (.trlsNak h) s = .next ((s.trlsAcked p k (h.psn.toNat + 2 ^ 32 - 1)).resend p k h.psn.toNat)
        ∧ exec (.trlsKeyswitch h) s = .next ((s.modRoot (fun r => { r with
            sessions := r.sessions.modify p (fun y => { y with krx := y.krx + 1, rkey := Config.sessionKey s.draws }) })).modStreams p
            (fun y => { y with expect := 0 })).drawn)
    ∧ exec (.trlsUndefinedOp opc h) s = .next (s.modRoot (fun r => { r with undef := r.undef + 1 }))
    ∧ ((s.stream panel n).unacked = [] → exec (.trlsRetransmitTimeout panel n) s = .next s)
    ∧ (∀ w rest, (s.stream panel n).unacked = w :: rest → exec (.trlsRetransmitTimeout panel n) s = .next (s.resend panel n w.1))
    ∧ (mayKey → (x.isOpen = false ∨ s.reachable panel = false) → exec (.trlsRekey panel) s = .next ((s.modRoot (fun y => { y with
        sessions := y.sessions.set panel opened })).modStreams panel (fun _ => {})).drawn.drawn)
    ∧ (¬ mayKey → exec (.trlsRekey panel) s = .next s)
    ∧ (mayKey → x.isOpen = true → s.reachable panel = true → s.pairBusy panel = true → exec (.trlsRekey panel) s = .next s)
    ∧ (mayKey → x.isOpen = true → s.reachable panel = true → s.pairBusy panel = false → exec (.trlsRekey panel) s
        = .next (s.rollKeys panel))
    ∧ (let t := s.rollKeys panel
       (∀ m < 16, (t.stream panel m).psn = 0) ∧ (x.isOpen = true → (t.panel.root.sessions.get panel).ktx = x.ktx + 1))

/-- SPDM: a die in RESETTING or DARK answers nothing, but GET_VERSION ends a reset and boots a die that may boot; a request out of its
order, and one that no rule names, is answered with an error and changes nothing; past 2^20 messages of its session a die
serves KEY_UPDATE first; the certificate chain is read by pieces, of at most 4,096 bytes with their head; the others answer, and CHALLENGE, GET_MEASUREMENTS and
FINISH move the die to ATTESTED, ACTIVE or QUARANTINED; a signature covers the transcript, KEY_EXCHANGE answers the root's key with its
ciphertext, KEY_UPDATE updates the session's key; END_SESSION resets the die. The order and the codes are the family's, SPDM 1.3 (log 93,
PRESUMED), and the transitions out of RESETTING and DARK are the model's reading (log 94); what a signature and an encapsulation give is
free (log 19) (R249 to R254, R260, R261). -/
def Obligations.SpdmRequestsComplete : Prop :=
  ∀ (s : State) (u : UnitId) (o : SpdmOffer) (cslot off len n : Nat) (ok : Bool) (code : Byte) (body : List Byte),
    let st := dasState (s.unit u)
    let algs (x : Spdm) : Bool := x.algs
    let q := asked s u
    let idle (x : Spdm) : Spdm := { x with version := true, caps := false, algs := false, exchange := false, transcript := [0x84] }
    let caught : Prop := s.panel.root.takeover = false ∧ Ready s u algs
    let signed := (q [0x83]).sealed u 3 []
    let blocks := ((q [0xE0]).blocks u).flatten
    let measured := (q [0xE0]).sealed u 0x60 blocks
    let digests := q (0x81 :: valBytes 1 cslot)
    let certs := q (0x82 :: (valBytes 1 cslot ++ valBytes 2 off ++ valBytes 2 len))
    let ek := Config.encapsulationKey s.draws
    let given := Config.encapsulate ek s.draws
    let finished := q (0xE5 :: s.rootChain)
    let offered : Prop := o.hash = true ∧ o.measHash = true ∧ o.aead = true ∧ o.sched = true ∧ o.asym = true ∧ o.kex = true
    let chain := (s.unit u).certChain
    let piece := (chain.drop off).take (min len 4088)
    let asks : List (Instr × (Spdm → Bool)) :=
      [(.getCapabilities u, fun x => x.version), (.negotiateAlgorithms u o, fun x => x.caps), (.getDigests u cslot, algs),
       (.getCertificate u cslot off len, algs), (.keyExchange u, algs), (.finish u ok, fun x => x.exchange),
       (.endSession u, fun _ => st == 3 || st == 4)]
    (∀ i ∈ asks, (s.responds u = false → exec i.1 s = .next s)
        ∧ (s.responds u = true → ¬ RoomFor s u → exec i.1 s = .next s)
        ∧ (s.responds u = true → RoomFor s u → i.2 (s.unit u).spdm = false → exec i.1 s = .next (s.spdmError u 4)))
    ∧ ((s.unitOk u = false ∨ (st = 0 ∧ s.bootable u = false)) → exec (.getVersion u) s = .next s)
    ∧ (s.unitOk u = true → st = 5 → exec (.getVersion u) s = .next (s.endReset u))
    ∧ (s.unitOk u = true → st ≠ 5 → (st = 0 → s.bootable u = true) → exec (.getVersion u) s
        = .next (((if st = 0 then s.bootDie u else s).modSpdm u idle).spdmReply u 4 [0x00, 0x13]))
    ∧ s.spdmReply u n body = (s.modSpdm u (fun x => { x with transcript := x.transcript ++ valBytes 1 n ++ body })).emit (.spdm u n body)
    ∧ (let text := body ++ wordBytes (Config.secret s.draws)
       s.sealed u n body = (s.spdmReply u n (text ++ Config.sign (s.unit u).sk ((s.unit u).spdm.transcript ++ valBytes 1 n ++ text))).drawn)
    ∧ (Ready s u (fun x => x.version) → exec (.getCapabilities u) s
        = .next (((q [0xE1]).modSpdm u (fun x => { x with caps := true })).spdmReply u 0x61 [0x00, 0x10, 0, 0]))
    ∧ (Ready s u (fun x => x.caps) → offered → exec (.negotiateAlgorithms u o) s
        = .next (((q [0xE3]).modSpdm u (fun x => { x with algs := true })).spdmReply u 0x63 [1, 0, 2, 0]))
    ∧ (Ready s u (fun x => x.caps) → ¬ offered → exec (.negotiateAlgorithms u o) s = .next ((q [0xE3]).spdmError u 4))
    ∧ (Ready s u algs → exec (.getDigests u 0) s = .next ((q [0x81, 0]).spdmReply u 1 (wordBytes (Config.sha384 chain)))
        ∧ (∃ t : State, exec (.getCertificate u 0 off len) s
              = .next (t.spdmReply u 2 (valBytes 2 piece.length ++ valBytes 2 (chain.length - (off + piece.length)) ++ piece))
            ∧ (s.unitOk u = true → off ≤ (s.unit u).spdm.got → (t.unit u).spdm.got = max (s.unit u).spdm.got (off + piece.length)
                ∧ ((t.unit u).spdm.chain = true ↔ (s.unit u).spdm.chain = true ∨ chain.length ≤ (t.unit u).spdm.got))
            ∧ ((s.unit u).spdm.got < off → (t.unit u).spdm.got = (s.unit u).spdm.got))
        ∧ (cslot ≠ 0 → exec (.getDigests u cslot) s = .next (digests.spdmError u 7)
            ∧ exec (.getCertificate u cslot off len) s = .next (certs.spdmError u 7)))
    ∧ (s.panel.root.takeover = true → exec (.challenge u ok) s = .next s ∧ exec (.getMeasurements u ok) s = .next s)
    ∧ (caught → exec (.challenge u true) s = .next ((signed.modSpdm u (fun x => { x with challenged := true })).attest u)
        ∧ exec (.challenge u false) s = .next (signed.quarantine u 2)
        ∧ exec (.getMeasurements u false) s = .next (measured.quarantine u 2)
        ∧ (measured.policyMet u = false → exec (.getMeasurements u true) s = .next (measured.quarantine u 1))
        ∧ (measured.policyMet u = true →
            exec (.getMeasurements u true) s = .next ((measured.modSpdm u (fun x => { x with measured := true })).attest u)))
    ∧ (Ready s u algs → exec (.keyExchange u) s
        = .next (((q (0xE4 :: ek)).modSpdm u (fun x => { x with exchange := true, secret := given.2 })).sealed u 0x64 given.1))
    ∧ (Ready s u (fun x => x.exchange) → exec (.finish u true) s = .next (((finished.modSpdm u (fun x => { x with
          exchange := false, session := true, msgs := 0, rootChain := s.rootChain
          key := Config.shake256 (wordBytes x.secret ++ x.transcript) })).spdmReply u 0x65 []).maybeActive u)
        ∧ (let t := (finished.modSpdm u (fun x => { x with exchange := false })).spdmError u 6
           exec (.finish u false) s = .next (if dasState (t.unit u) = 3 then t else t.quarantine u 2)))
    ∧ (s.responds u = false → exec (.keyUpdate u) s = .next s)
    ∧ (s.responds u = true → (s.unit u).spdm.session = false → exec (.keyUpdate u) s = .next (s.spdmError u 4))
    ∧ (s.responds u = true → (s.unit u).spdm.session = true →
        exec (.keyUpdate u) s = .next ((s.modSpdm u (fun x => { x with
          msgs := 0, key := Config.shake256 (wordBytes x.key ++ asciiBytes "UPDATE") })).spdmReply u 0x69 []))
    ∧ (s.responds u = true → RoomFor s u → (st = 3 ∨ st = 4) → exec (.endSession u) s = .next (((q [0xEC]).spdmReply u 0x6C []).startReset u))
    ∧ (exec (.spdmUnsupportedRequest u code) s = .next (if s.responds u then s.spdmError u 7 else s))

/-- Link keys and frames: a key is delivered to a die whose session is open, to the receiver first, which answers BUSY
while it has no room and is tried again once its grace has ended; a rollover that is due switches
once both ends hold NEXT; a KEYSWITCH moves the receiver's keys; a frame between ACTIVE dies is sealed under CURRENT with its nonce and
counted, none taking the counter to 2^40 before the key has rolled; a frame whose CRC fails is
retried 16 times, the 17th taking the channel down; a tag or a generation that fails un-keys it; an accepted frame spends GRACE and is
acknowledged; an exhausted counter takes the channel down. The standby takes the root's role and ends it once every ACTIVE die has a
session; a lost session quarantines an ACTIVE die; PFC pauses a priority. The second try after BUSY, what a tag failure installs, NEXT before
KEYSWITCH and the 17th failing receive are the model's reading (log 95), the sessions of a takeover too (log 96); a frame's header and flits
are free (log 128) (R249, R254 to R260, R262). -/
def Obligations.KeyAndFrameEventsComplete : Prop :=
  ∀ (s : State) (u v : UnitId) (n m flits port : Nat) (rx crc tag chk peer pause : Bool) (gen : BitVec 16) (prio : BitVec 3),
    let c := s.chan u n
    let linked : Prop := s.peer u n = some (v, m)
    let root := s.panel.root
    let up : Prop := ∃ w k, s.peer u n = some (w, k) ∧ s.isActive (idOf u) = true ∧ s.isActive (idOf w) = true
    let sends : Prop := up ∧ 0 < flits ∧ hasKey c.tx 2 = true ∧ c.down = false ∧ c.switching = false ∧ c.frames.toNat < 2 ^ 48
      ∧ (c.frames.toNat + 1 < 2 ^ 40 ∨ root.takeover = true)
    let quiet : Prop := (s.chan v m).unacked = [] ∨ c.down = true
    let known : Prop := genIn c.rx 2 = some gen.toNat ∨ genIn c.rx 3 = some gen.toNat
    let arrives (f : Host.Outcome State Fault Refusal) : Prop := exec (.linkFrameReceive u n gen flits crc tag chk peer) s = f
    (s.peer u n = none → ∀ i ∈ [Instr.keyDeliver u n rx gen, .keyRollDue u n, .keyswitchReceive u n gen, .linkFrameSend u n flits,
        .frameCounterExhausted u n, .linkFrameReceive u n gen flits crc tag chk peer], exec i s = .next s)
    ∧ (linked → s.unitOk u = true → s.mayKey u = true →
        (rx = true → c.busy = true → hasKey c.rx 3 = true → exec (.keyDeliver u n rx gen) s = .next s)
        ∧ (¬ (rx = true ∧ c.busy = true ∧ hasKey c.rx 3 = true) → exec (.keyDeliver u n rx gen) s = .next (s.deliverTo u n v m rx gen)))
    ∧ (rx = true → s.linkGen v m = gen → holdsGen c.rx gen = false → deliverKey c.rx gen.toNat = none →
        s.deliverTo u n v m rx gen = s.modChan u n (fun x => { x with busy := true }))
    ∧ (rx = false → gen ≠ 0 → (s.chan v m).ack ≠ some gen → s.deliverTo u n v m rx gen = s)
    ∧ (linked → (s.unitOk u = false ∨ s.mayKey u = false) → exec (.keyDeliver u n rx gen) s = .next s)
    ∧ (linked → exec (.keyRollDue u n) s = .next (if root.takeover || !(s.isActive (idOf u)) || !c.keyed then s
        else (s.modChan u n (fun x => { x with due := true })).trySwitch u n v m))
    ∧ (linked → genIn c.rx 1 = some gen.toNat → genIn (s.chan v m).tx 2 = some gen.toNat → exec (.keyswitchReceive u n gen) s
        = .next ((((s.modChan u n (fun x => { x with rx := switchKey true x.rx }.zeroised)).refreshKeyed u n).maybeActive u).maybeActive v))
    ∧ (sends → ∃ i g f, slotIn c.tx 2 = some i ∧ g = BitVec.ofNat 16 (keyGen c.tx i)
        ∧ f.gen = g ∧ f.ctr = c.frames ∧ f.body = gcmCrypt (c.tkeys.get i) (g ++ 0#16 ++ c.frames) (Config.frameFlits s.draws flits)
        ∧ f.tag = Config.gcmTag (c.tkeys.get i) (g ++ 0#16 ++ c.frames) f.hdr f.body
        ∧ exec (.linkFrameSend u n flits) s = .next ((s.modChan u n (fun x => { x with
            frames := x.frames + 1, unacked := x.unacked ++ [f], nonce := some (g ++ 0#16 ++ x.frames) })).drawn))
    ∧ (¬ sends → exec (.linkFrameSend u n flits) s = .next s)
    ∧ (linked → 2 ^ 48 ≤ c.frames.toNat → c.down = false → exec (.frameCounterExhausted u n) s = .next (s.linkDown u n))
    ∧ (linked → quiet → arrives (.next s))
    ∧ (linked → ¬ quiet → crc = false → c.retries < 16 → arrives (.next (s.modChan u n (fun x => { x with retries := x.retries + 1 }))))
    ∧ (linked → ¬ quiet → crc = false → 16 ≤ c.retries →
        arrives (.next ((s.modChan u n (fun x => { x with retries := 0 })).linkDown u n)))
    ∧ (linked → ¬ quiet → crc = true → (tag = false ∨ ¬ known) → arrives (.next (s.tagFailed u n v m chk peer)))
    ∧ (linked → ¬ quiet → crc = true → tag = true → known →
        arrives (.next ((s.modChan u n (fun x => x.received gen flits)).modChan v m Chan.acked)))
    ∧ (root.takeover = false → s.standby = some port → ∃ t, exec (.rootTakeover port false) s = .next t
        ∧ t.panel.root.port = port ∧ t.panel.root.takeover = true)
    ∧ (root.takeover = true → root.port = port → s.allSessions = true → ∃ t, exec (.rootTakeover port true) s = .next t
        ∧ t.panel.root.port = port ∧ t.panel.root.takeover = false)
    ∧ (root.takeover = false → s.unitOk u = true → (s.unit u).spdm.session = true →
        let t := s.modUnit u (fun x => { x with spdm := { x.spdm with session := false } })
        exec (.sessionLost u) s = .next (if dasState (s.unit u) = 3 then t.dieTo u 4 4 else t))
    ∧ ((root.takeover = true ∨ s.unitOk u = false ∨ (s.unit u).spdm.session = false) → exec (.sessionLost u) s = .next s)
    ∧ (port < 8 * gridPorts s.panel.form → ∃ t, exec (.pfcFrame port prio pause) s = .next t
        ∧ ((t.panel.ports.get (port / 8)).pfc.get (port % 8)).getLsbD prio.toNat = pause)

/-- Power, temperature and RAS: power good keeps the fuses, makes port die 0 the root, runs stage 1 on every die and leaves no memory; a
clock is raised once every die has reported droop calibration, and a droop changes one flag; the root's power reading moves every die's
scale by one step, down above the cap and up at 95 % of it; a temperature at the limit lowers a die's own scale, and at the trip limit
resets a die or holds a dark one; a corrected error is counted at its stack and channel, an uncorrectable one is marked; a channel with 256
corrections leaves service once its slices have moved, and one that is out returns. The throttle's one step down and back is the model's
choice (log 98), channels and their spare (log 100) and the calibration's reports (log 110) too (R247, R249, R254, R267, R273 to R280). -/
def Obligations.PowerAndThermalEventsComplete : Prop :=
  ∀ (s : State) (fw : Boot) (die r power temp addr vsn ch : Nat) (u : UnitId) (on : Bool),
    let site := s.physSite vsn
    let x := s.panel.sites.get site
    let put (f : Stack → Stack) : State := onPanel s (fun y => { y with sites := y.sites.modify site f })
    let other : Prop := s.unitOk u = true ∧ ∀ p, u ≠ .fabric p
    (∃ t, exec (.powerGood fw) s = .next t ∧ t.mem = [] ∧ t.panel.root.port = 0 ∧ t.panel.root.takeover = false
        ∧ t.panel.form = s.panel.form ∧ t.panel.fuses = s.panel.fuses ∧ t.panel.root.recordOk = fw.recordOk ∧ t.panel.stopped = false
        ∧ (s.unitOk u = true → dasState (t.unit u) = 0 ∧ (t.unit u).m1 = Config.sha384 (fw.images.getD (idOf u / 100) (0, [], [])).2.1))
    ∧ (s.calibratedAll = true → die < s.ndies → exec (.clockRaise die) s = .next (s.modDie die (fun d => { d with clockFull := true })))
    ∧ (s.calibratedAll = true → s.ndies ≤ die → exec (.clockRaise die) s = .next s)
    ∧ (s.calibratedAll = false → let t := s.calibrate
        exec (.clockRaise die) s = .next (if die < t.ndies ∧ t.calibratedAll = true then t.modDie die (fun d => { d with clockFull := true }) else t))
    ∧ (rkDie r < s.ndies → exec (.droopStretch r on) s = .next (s.modRegion r (fun x => { x with stretch := on })))
    ∧ (∃ t, exec (.powerEval power) s = .next t ∧ t.panel.root.power = power ∧ t.mem = s.mem
        ∧ (die < s.ndies → (s.panel.root.cap < power → (t.die die).drop = min 64 ((s.die die).drop + 1))
            ∧ (power ≤ s.panel.root.cap → 100 * power ≤ 95 * s.panel.root.cap → (t.die die).drop = (s.die die).drop - 1)
            ∧ (power ≤ s.panel.root.cap → 95 * s.panel.root.cap < 100 * power → (t.die die).drop = (s.die die).drop))
        ∧ (other → (t.unit u).drop = dropNext (s.unit u).drop power s.panel.root.cap))
    ∧ (die < s.ndies → exec (.thermalThrottle (.fabric die) temp) s = .next (s.modDie (s.vdnOf die) (fun d => { d with
        hot := if 100 ≤ temp then min 64 (d.hot + 1) else d.hot - 1 })))
    ∧ (other → exec (.thermalThrottle u temp) s = .next (s.modUnit u (fun y => { y with
        hot := if throttleAt u ≤ temp then min 64 (y.hot + 1) else y.hot - 1 })))
    ∧ (s.unitOk u = false → exec (.thermalThrottle u temp) s = .next s)
    ∧ (s.unitOk u = true → tripAt u ≤ temp → exec (.thermalTrip u temp) s
        = .next (if dasState (s.unit u) = 0 then s.modUnit u (fun x => { x with tripped := true }) else s.startReset u))
    ∧ (temp < tripAt u → exec (.thermalTrip u temp) s = .next s)
    ∧ (s.unitOk u = true → temp < throttleAt u →
        exec (.junctionBelowThrottle u temp) s = .next (s.modUnit u (fun x => { x with tripped := false })))
    ∧ (throttleAt u ≤ temp → exec (.junctionBelowThrottle u temp) s = .next s)
    ∧ exec (.patrolScrub addr true) s = .next { s with ecc := s.ecc.set (addr / 8) true }
    ∧ exec (.patrolScrub addr false) s = .next (onPanel s (fun y => { y with
        sites := y.sites.modify (s.rasSite addr).1 (fun z => z.correct (s.rasSite addr).2 (Config.choice s.draws)) })).drawn
    ∧ ((s.ndies ≤ vsn ∨ 32 ≤ ch) → exec (.channelSpare vsn ch) s = .next s)
    ∧ (vsn < s.ndies → ch < 32 → x.spared.contains ch = true → exec (.channelSpare vsn ch) s
        = .next (put (fun y => { spared := y.spared.erase ch, corrected := y.corrected.erase ch })))
    ∧ (vsn < s.ndies → ch < 32 → x.spared.contains ch = false → s.siteHeld site = true → exec (.channelSpare vsn ch) s = .next s.drawn)
    ∧ (vsn < s.ndies → ch < 32 → x.spared.contains ch = false → s.siteHeld site = false → 256 ≤ x.corrected.get ch →
        exec (.channelSpare vsn ch) s = .next (put (fun y => { spared := y.spared ++ [ch], corrected := y.corrected.erase ch })).drawn)

end Statements

namespace Sys2Proof.Claims

open Sys2Proof.Machine

/-! Words and turns. -/

/-- A sequencer word of one doubleword, and one of two, that encode and decode give back. -/
def WordAgrees (i : Instr) : Prop := ∀ v : Dword, ∃ w, encode i = [w] ∧ seqLength w = 1 ∧ decodeSeq w v = .ok i
def WordsAgree (i : Instr) : Prop := ∃ w v, encode i = [w, v] ∧ seqLength w = 2 ∧ decodeSeq w v = .ok i

/-- A control token that encode and decode give back. -/
def TokenAgrees (i : Instr) : Prop := ∃ w, encode i = [w] ∧ decodeTok w = .ok i

/-- The machine with the first turn of its agenda taken off. -/
def popped (s : State) (t : Turn) (rest : List Turn) (u : State) : Prop := s.agenda = t :: rest ∧ u = { s with agenda := rest }

/-- A slot word from a guard, a source and an opcode: V = 1, all else zero but SA, SB, TT and FN (R281). -/
def slotHalf (opc sa sb dt tt fn : Nat) : Dword :=
  BitVec.ofNat 64 (2 ^ 63 + opc * 2 ^ 24 + sa * 2 ^ 20 + sb * 2 ^ 16 + dt * 2 ^ 12 + tt * 2 ^ 8 + fn)

end Sys2Proof.Claims

section Statements

open Sys2Proof Sys2Proof.Machine Sys2Proof.Claims

/-- Words written out from the spec's encodings (R281, R299, R185, R366, R331, R339) decode to the instructions they stand for. -/
def Obligations.DecodedWords : Prop :=
  decodeSlot 0xC0080000698F0F01 = .ok (.exit { awt := true, icn := 0, nsm := 2, sa := 8, sb := 15, dt := 0, tt := 15 } (.im 1))
  ∧ decodeSlot 0x800800006AFF0F00 = .ok (.nop { nsm := 2, sa := 15, sb := 15, tt := 15 } (.im 0))
  ∧ decodeSlot 0x800800006CFF0F00 = .ok (.brk { nsm := 2, sa := 15, sb := 15, tt := 15 } (.im 0))
  ∧ decodeSlot (slotHalf 0x00 0 1 2 15 0) = .ok (.add { sa := 0, sb := 1, dt := 2, tt := 15 } (.ty .n32 0))
  ∧ decodeSlot (slotHalf 0x02 0 1 2 15 8) = .ok (.sub { sa := 0, sb := 1, dt := 2, tt := 15 } (.ty .s32 0))
  ∧ decodeSlot 0x0008000000000000 = .error .vacantBits ∧ decodeSlot 0 = .error .vacant
  ∧ decodeSlot (slotHalf 0xF0 0 1 2 15 0) = .error .firmwareClass
  ∧ decodeSeq 0xC000000000000010 0 = .ok (.sqarm 16)
  ∧ decodeSeq 0xC1000000FFFFFFFC 0 = .ok (.sqbr 0xFFFFFFFC)
  ∧ decodeSeq 0xC3000000000000AB 0x1230 = .ok (.sqwait 0xAB 0x1230)
  ∧ decodeSeq 0xC600000000000000 0 = .ok .sqend
  ∧ decodeSeq 0xC700000000001234 0 = .ok (.sqmark 0x1234)
  ∧ decodeSeq 0xC700000000011234 0 = .error .badSequencer
  ∧ decodeTok 0x0500044300000000 = .ok (.mma { mc := 1, nc := 0, kb := 1, fa := 2, fb := 3 })
  ∧ decodeTok 0x1400000000000001 = .error .badToken

/-- Decoding and encoding of slot words agree: the word of a well-formed slot instruction decodes to its operation with every field and
its function, so to the instruction, but for the rows that an operand tells apart (SCWR's spaces, THAW's TRP), which decode to the
first of their opcode; and a word that decodes is the word of what it decodes to (R281 to R287, R390, R402). -/
def Obligations.SlotWordsRoundTrip : Prop :=
  (∀ (i : Instr) (op : SlotOp) (o : Slot) (f : Fn), instrSlot i = some (op, o, f) → i.wellFormed = true →
    encode i = [encodeSlot op o f]
    ∧ decodeSlotParts (encodeSlot op o f) = .ok (opCanon op, o, f)
    ∧ decodeSlot (encodeSlot op o f) = .ok (slotInstr (opCanon op) o f)
    ∧ (opCanon op = op → decodeSlot (encodeSlot op o f) = .ok i))
  ∧ (∀ (w : Dword) (op : SlotOp) (o : Slot) (f : Fn), decodeSlotParts w = .ok (op, o, f) →
    encodeSlot op o f = w ∧ slotOk op o f = true ∧ opCanon op = op)

/-- Decoding and encoding agree for sequencer words, matrix control tokens, management commands and TRLS packets, with every operand at
every value that the encoding admits (R185, R187, R264, R268, R299). -/
def Obligations.StreamWordsAndMessagesRoundTrip : Prop :=
  (∀ (off : BitVec 32) (g m : BitVec 16) (j : BitVec 2) (va : Dword),
    WordAgrees (.sqarm off) ∧ WordAgrees (.sqbr off) ∧ WordAgrees (.sqjoin j) ∧ WordAgrees .sqend ∧ WordAgrees (.sqmark m)
      ∧ WordAgrees .sqfence ∧ WordsAgree (.sqwait g va))
  ∧ (∀ (lc : BitVec 2) (count : BitVec 24) (off : BitVec 30), count ≠ 0 → off.toInt < 0 → WordAgrees (.sqloop lc count off))
  ∧ (∀ (ex ey b : BitVec 3) (g : BitVec 2) (va : Dword), b.toNat ≤ 5 → WordsAgree (.sqlaunch ex ey b g va))
  ∧ (∀ t : MTok, TokenAgrees (.mma t) ∧ TokenAgrees (.mmas t) ∧ TokenAgrees (.mmsc t) ∧ TokenAgrees (.mmi t) ∧ TokenAgrees (.mzero t)
      ∧ TokenAgrees (.mldm t))
  ∧ (∀ i : Instr, i.wellFormed = true → (encodeMgmtBody i).1 ≠ 0 → decodeMgmt (encodeMgmt i) = i)
  ∧ (∀ i : Instr, i.wellFormed = true → encodeTrls i ≠ [] → decodeTrls (encodeTrls i) = .ok i)

/-- A step runs the decoded instruction: the turn at the head of the agenda is taken off, or, with none, the free schedule names one; an
element's turn lets the oldest access held at stage F go on, or the firing that stalls there for a register, else executes the instruction
of the slot word that its trigger stage selects, an access behind a fence being held at stage F; a sequencer's executes the word at its
place, a node's the control token at the head of its queue, a port's the command of its message, or keeps it behind one not yet answered, a
packet of another panel, decrypted, whose tag checks its operation; an event is its instruction; a package that has stopped does nothing
until power good. What stands around it: the ages an element settles, the draw a sequencer counts, a write of ST that lands before or after
the selection, with the firings that it squashes, and the place noted in `cur` (R3, R72, R89, R90, R91, R264). The agenda and the free
schedule are the model's choice (log 1), and so are the packet that is discarded (log 102), the late write of ST (log 119) and the access
held at stage F (log 36, DEDUCED). -/
def Obligations.StepRunsTheDecodedInstruction : Prop :=
  ∀ (s u : State) (t : Turn) (rest : List Turn), popped s t rest u →
    let plain (bs : List Byte) : List Byte := trlsCrypt (u.panel.root.sessions.get (trlsFields bs).spanel.toNat).rkey bs
    (u.panel.stopped = true → (∀ b, t ≠ .event (.powerGood b)) → step s = .next u)
    ∧ (∀ b, t = .event (.powerGood b) → step s = exec (.powerGood b) u)
    ∧ (u.panel.stopped = false →
      (∀ e, t = .element e → let v := u.settleAges e
        (∀ x op o f, v.released e = some (x, op, o, f) → step s = v.resume e x op o f)
        ∧ (∀ n st op o f, v.released e = none → (v.elem e).stalled = some (n, st) → ((v.elem e).slots.get n).parts = some (op, o, f) →
            let w := v.modElem e (fun el => { el with st := st, stalled := none })
            ((v.elem e).hold ≠ .run ∨ v.moving (ekRegion e) = false ∨ stalls (v.pendingD e) op o = true → step s = .next v)
            ∧ ((v.elem e).hold = .run → v.moving (ekRegion e) = true → stalls (v.pendingD e) op o = false → w.holdsAtF e op = false →
                ∀ z, exec (w.firing e n op o f) { w with cur := (e, n) } = .next z →
                  step s = .next (z.modElem e (fun el => { el with st := el.st ^^^ ((v.elem e).st ^^^ nextSt o st) }))))
        ∧ (v.released e = none → (v.elem e).stalled = none → (v.elem e).late = 0 → v.selected e = none → step s = .next v)
        ∧ (∀ n op o f, v.released e = none → (v.elem e).stalled = none → (v.elem e).late = 0 → v.selected e = some (n, op, o, f) →
            decodeSlotParts ((v.elem e).slots.get n).word = .ok (op, o, f)
            ∧ (stalls (v.pendingD e) op o = true → step s = .next (v.stall e n o))
            ∧ (stalls (v.pendingD e) op o = false → v.holdsAtF e op = true → step s = .next (v.park e n o))
            ∧ (stalls (v.pendingD e) op o = false → v.holdsAtF e op = false →
                step s = exec (v.firing e n op o f) { v with cur := (e, n) })
            ∧ (op ≠ .scwrVft → op ≠ .thaw → decodeSlot ((v.elem e).slots.get n).word = .ok (v.firing e n op o f)))
        ∧ (v.released e = none → (v.elem e).stalled = none → (v.elem e).late ≠ 0 →
            (Config.choice v.draws = true → step s = selectTurn e (v.drawn.landed e))
            ∧ (Config.choice v.draws = false → (v.assumed e).selected e = none → step s = .next (v.drawn.landed e))
            ∧ (∀ n op o f, Config.choice v.draws = false → (v.assumed e).selected e = some (n, op, o, f) →
                let w := v.drawn.outlive e o
                (squashes (v.elem e).late o = true → step s = .next (v.drawn.ghost e n op o f))
                ∧ (squashes (v.elem e).late o = false → stalls (w.pendingD e) op o = true → step s = .next (w.stall e n o))
                ∧ (squashes (v.elem e).late o = false → stalls (w.pendingD e) op o = false → w.holdsAtF e op = false →
                    step s = exec (w.firing e n op o f) { w with cur := (e, n) }))))
      ∧ (∀ r w v, t = .sequencer r → u.moving r = true → (u.region r).seq = .run → u.streamWords r = .ok (w, v) →
          (u.midWord r = true → step s = .next (u.seqFault .blkAlign r (u.region r).fromOff 0 none).drawn)
          ∧ (u.midWord r = false → bitsOf w 48 16 = 0x5A3C → step s = exec (.blockArm r) u)
          ∧ (∀ i, u.midWord r = false → bitsOf w 48 16 ≠ 0x5A3C → decodeSeq w v = .ok i → step s = exec i { u.drawn with cur := (r, 0) })
          ∧ (u.midWord r = false → bitsOf w 48 16 ≠ 0x5A3C → decodeSeq w v = .error .badSequencer →
              step s = .next (u.seqFault .illegal r (u.region r).sqp 0 none).drawn)
          ∧ (u.midWord r = false → bitsOf w 48 16 ≠ 0x5A3C → decodeSeq w v = .error .notSequencer →
              step s = .next (u.seqFault .blkAlign r (u.region r).fromOff 0 none).drawn))
      ∧ (∀ e p cs w i, t = .node e → (u.node e).cmds = .tok p :: cs → u.moving (u.node e).rk = true → tokenWord p = .ok w →
          decodeTok w = .ok i → step s = exec i { u with cur := (e, 0) })
      ∧ (∀ p who msg, t = .mgmt p who msg →
          (u.manages p who = false → step s = .next u)
          ∧ (u.manages p who = true → u.mgmtBusy p = false → step s = exec (decodeMgmt msg) { u with cur := (p, 0) })
          ∧ (u.manages p who = true → u.mgmtBusy p = true →
              step s = .next (onPort u p (fun x => { x with queued := x.queued ++ [(who, msg)] }))))
      ∧ (∀ bs tag i, t = .trls (bs ++ tag) → tag.length = 16 → decodeTrls (plain bs) = .ok i →
          ((∃ c h, i = .trlsUndefinedOp c h) ∨ u.trlsTagOk bs tag = true → step s = exec i u)
          ∧ ((∀ c h, i ≠ .trlsUndefinedOp c h) → u.trlsTagOk bs tag = false → step s = .next u))
      ∧ (∀ bs tag x, t = .trls (bs ++ tag) → tag.length = 16 → decodeTrls (plain bs) = .error x → step s = .next u)
      ∧ (∀ i, t = .event i → step s = if isEvent i then exec i u else .next u))
    ∧ (∀ z : State, z.agenda = [] → step z = runTurn (Config.schedule z.draws) z.drawn)

/-- Memory keeps its canonical form in every step, from any state that has it: addresses strictly rising, no entry equal to what an
unlisted address reads as (the model's form of memory: R127, R144, R275). -/
def Obligations.EveryStepKeepsMemoryCanonical : Prop :=
  ∀ s t : State, s.Inv → step s = .next t → t.Inv

/-- No step and no instruction ends in a fault or a refusal of the model, whatever the state: a firing that faults and a fault taken by
the machine leave a state that goes on (R95, R241). -/
def Obligations.NoStepRefuses : Prop :=
  ∀ s : State, (∃ t, step s = .next t) ∧ (∀ i, ∃ t, exec i s = .next t)

/-- What reset leaves: memory in its canonical form, every byte zero (R275); every die DARK, with no keys (R253, R257); every partition
FREE and no launch resident (R225); every region idle and every slot vacant (R283); every entry of the fabric tables invalid; nothing on
its way. Memory that is zero while the dies are DARK is the model's reading (log 8), and so is that nothing is on its way (log 6). -/
def Obligations.ResetLeavesThePanelDark : Prop :=
  State.reset.Inv
  ∧ (∀ a, memByte State.reset.mem a = 0)
  ∧ (∀ k, dasState (State.reset.ident k) = 0 ∧ (State.reset.ident k).das = 0)
  ∧ (∀ u n, (State.reset.chan u n).tx = 0 ∧ (State.reset.chan u n).rx = 0)
  ∧ (∀ p, pState (State.reset.part p) = 0 ∧ (State.reset.part p).launches = [])
  ∧ (∀ r, (State.reset.region r).seq = .idle ∧ State.reset.moving r = isStw r)
  ∧ (∀ e n, ((State.reset.elem e).slots.get n).word = 0 ∧ (State.reset.elem e).st = 0 ∧ (State.reset.elem e).es = 0)
  ∧ (∀ e, State.reset.select e = none)
  ∧ (∀ site vf, State.reset.vftAt site vf = (0, 0))
  ∧ (∀ k a n, State.reset.marked a n = false ∧ State.reset.vers.get k = 0)
  ∧ State.reset.net = [] ∧ State.reset.reqs = [] ∧ State.reset.jobs = [] ∧ State.reset.recs = []

end Statements
end

