-- ==== Sys2Proof/Laws/Dispatch.lean ====
section
/-! SUPPORT. Each instruction executes its meaning: one equation per constructor, so that no proof unfolds the dispatcher. -/

namespace Sys2Proof.Laws

open Sys2Proof.Machine

@[simp] theorem exec_add (o f s) : exec (.add o f) s = execAdd o f s := rfl
@[simp] theorem exec_adds (o f s) : exec (.adds o f) s = execAdds o f s := rfl
@[simp] theorem exec_sub (o f s) : exec (.sub o f) s = execSub o f s := rfl
@[simp] theorem exec_subs (o f s) : exec (.subs o f) s = execSubs o f s := rfl
@[simp] theorem exec_mul (o f s) : exec (.mul o f) s = execMul o f s := rfl
@[simp] theorem exec_mulh (o f s) : exec (.mulh o f) s = execMulh o f s := rfl
@[simp] theorem exec_mulw (o f s) : exec (.mulw o f) s = execMulw o f s := rfl
@[simp] theorem exec_mad (o f s) : exec (.mad o f) s = execMad o f s := rfl
@[simp] theorem exec_madw (o f s) : exec (.madw o f) s = execMadw o f s := rfl
@[simp] theorem exec_neg (o f s) : exec (.neg o f) s = execNeg o f s := rfl
@[simp] theorem exec_abs (o f s) : exec (.abs o f) s = execAbs o f s := rfl
@[simp] theorem exec_min (o f s) : exec (.min o f) s = execMin o f s := rfl
@[simp] theorem exec_max (o f s) : exec (.max o f) s = execMax o f s := rfl
@[simp] theorem exec_clamp (o f s) : exec (.clamp o f) s = execClamp o f s := rfl
@[simp] theorem exec_and (o f s) : exec (.and o f) s = execAnd o f s := rfl
@[simp] theorem exec_or (o f s) : exec (.or o f) s = execOr o f s := rfl
@[simp] theorem exec_xor (o f s) : exec (.xor o f) s = execXor o f s := rfl
@[simp] theorem exec_andn (o f s) : exec (.andn o f) s = execAndn o f s := rfl
@[simp] theorem exec_not (o f s) : exec (.not o f) s = execNot o f s := rfl
@[simp] theorem exec_shl (o f s) : exec (.shl o f) s = execShl o f s := rfl
@[simp] theorem exec_shr (o f s) : exec (.shr o f) s = execShr o f s := rfl
@[simp] theorem exec_sar (o f s) : exec (.sar o f) s = execSar o f s := rfl
@[simp] theorem exec_rotl (o f s) : exec (.rotl o f) s = execRotl o f s := rfl
@[simp] theorem exec_clz (o f s) : exec (.clz o f) s = execClz o f s := rfl
@[simp] theorem exec_ctz (o f s) : exec (.ctz o f) s = execCtz o f s := rfl
@[simp] theorem exec_popc (o f s) : exec (.popc o f) s = execPopc o f s := rfl
@[simp] theorem exec_brev (o f s) : exec (.brev o f) s = execBrev o f s := rfl
@[simp] theorem exec_bfx (o f s) : exec (.bfx o f) s = execBfx o f s := rfl
@[simp] theorem exec_bfi (o f s) : exec (.bfi o f) s = execBfi o f s := rfl
@[simp] theorem exec_cmp (o f s) : exec (.cmp o f) s = execCmp o f s := rfl
@[simp] theorem exec_sel (o f s) : exec (.sel o f) s = execSel o f s := rfl
@[simp] theorem exec_qdiv (o f s) : exec (.qdiv o f) s = execQdiv o f s := rfl
@[simp] theorem exec_fadd (o f s) : exec (.fadd o f) s = execFadd o f s := rfl
@[simp] theorem exec_fsub (o f s) : exec (.fsub o f) s = execFsub o f s := rfl
@[simp] theorem exec_fmul (o f s) : exec (.fmul o f) s = execFmul o f s := rfl
@[simp] theorem exec_fma (o f s) : exec (.fma o f) s = execFma o f s := rfl
@[simp] theorem exec_fnma (o f s) : exec (.fnma o f) s = execFnma o f s := rfl
@[simp] theorem exec_fmin (o f s) : exec (.fmin o f) s = execFmin o f s := rfl
@[simp] theorem exec_fmax (o f s) : exec (.fmax o f) s = execFmax o f s := rfl
@[simp] theorem exec_fabs (o f s) : exec (.fabs o f) s = execFabs o f s := rfl
@[simp] theorem exec_fneg (o f s) : exec (.fneg o f) s = execFneg o f s := rfl
@[simp] theorem exec_fcmp (o f s) : exec (.fcmp o f) s = execFcmp o f s := rfl
@[simp] theorem exec_fclass (o f s) : exec (.fclass o f) s = execFclass o f s := rfl
@[simp] theorem exec_frnd (o f s) : exec (.frnd o f) s = execFrnd o f s := rfl
@[simp] theorem exec_fcvt (o f s) : exec (.fcvt o f) s = execFcvt o f s := rfl
@[simp] theorem exec_fscl (o f s) : exec (.fscl o f) s = execFscl o f s := rfl
@[simp] theorem exec_fexpn (o f s) : exec (.fexpn o f) s = execFexpn o f s := rfl
@[simp] theorem exec_frcp (o f s) : exec (.frcp o f) s = execFrcp o f s := rfl
@[simp] theorem exec_frsq (o f s) : exec (.frsq o f) s = execFrsq o f s := rfl
@[simp] theorem exec_fsqrt (o f s) : exec (.fsqrt o f) s = execFsqrt o f s := rfl
@[simp] theorem exec_fdiv (o f s) : exec (.fdiv o f) s = execFdiv o f s := rfl
@[simp] theorem exec_fexp2 (o f s) : exec (.fexp2 o f) s = execFexp2 o f s := rfl
@[simp] theorem exec_flog2 (o f s) : exec (.flog2 o f) s = execFlog2 o f s := rfl
@[simp] theorem exec_fsin (o f s) : exec (.fsin o f) s = execFsin o f s := rfl
@[simp] theorem exec_fcos (o f s) : exec (.fcos o f) s = execFcos o f s := rfl
@[simp] theorem exec_fsncs (o f s) : exec (.fsncs o f) s = execFsncs o f s := rfl
@[simp] theorem exec_ficv (o f s) : exec (.ficv o f) s = execFicv o f s := rfl
@[simp] theorem exec_pkspl (o f s) : exec (.pkspl o f) s = execPkspl o f s := rfl
@[simp] theorem exec_pkmrg (o f s) : exec (.pkmrg o f) s = execPkmrg o f s := rfl
@[simp] theorem exec_pklenGet (o f s) : exec (.pklenGet o f) s = execPklenGet o f s := rfl
@[simp] theorem exec_pklenSet (o f s) : exec (.pklenSet o f) s = execPklenSet o f s := rfl
@[simp] theorem exec_lswap (o f s) : exec (.lswap o f) s = execLswap o f s := rfl
@[simp] theorem exec_lperm (o f s) : exec (.lperm o f) s = execLperm o f s := rfl
@[simp] theorem exec_lbcast (o f s) : exec (.lbcast o f) s = execLbcast o f s := rfl
@[simp] theorem exec_lext (o f s) : exec (.lext o f) s = execLext o f s := rfl
@[simp] theorem exec_lins (o f s) : exec (.lins o f) s = execLins o f s := rfl
@[simp] theorem exec_lred (o f s) : exec (.lred o f) s = execLred o f s := rfl
@[simp] theorem exec_lscan (o f s) : exec (.lscan o f) s = execLscan o f s := rfl
@[simp] theorem exec_eofm (o f s) : exec (.eofm o f) s = execEofm o f s := rfl
@[simp] theorem exec_dot (o f s) : exec (.dot o f) s = execDot o f s := rfl
@[simp] theorem exec_amax (o f s) : exec (.amax o f) s = execAmax o f s := rfl
@[simp] theorem exec_sclx (o f s) : exec (.sclx o f) s = execSclx o f s := rfl
@[simp] theorem exec_qnt (o f s) : exec (.qnt o f) s = execQnt o f s := rfl
@[simp] theorem exec_dqnt (o f s) : exec (.dqnt o f) s = execDqnt o f s := rfl
@[simp] theorem exec_sclm (o f s) : exec (.sclm o f) s = execSclm o f s := rfl
@[simp] theorem exec_unp6 (o f s) : exec (.unp6 o f) s = execUnp6 o f s := rfl
@[simp] theorem exec_pck6 (o f s) : exec (.pck6 o f) s = execPck6 o f s := rfl
@[simp] theorem exec_nzc (o f s) : exec (.nzc o f) s = execNzc o f s := rfl
@[simp] theorem exec_abrd (o f s) : exec (.abrd o f) s = execAbrd o f s := rfl
@[simp] theorem exec_abwr (o f s) : exec (.abwr o f) s = execAbwr o f s := rfl
@[simp] theorem exec_fwd (o f s) : exec (.fwd o f) s = execFwd o f s := rfl
@[simp] theorem exec_steer (o f s) : exec (.steer o f) s = execSteer o f s := rfl
@[simp] theorem exec_mrg (o f s) : exec (.mrg o f) s = execMrg o f s := rfl
@[simp] theorem exec_splt (o f s) : exec (.splt o f) s = execSplt o f s := rfl
@[simp] theorem exec_join (o f s) : exec (.join o f) s = execJoin o f s := rfl
@[simp] theorem exec_seqtCnt (o f s) : exec (.seqtCnt o f) s = execSeqtCnt o f s := rfl
@[simp] theorem exec_seqtSet (o f s) : exec (.seqtSet o f) s = execSeqtSet o f s := rfl
@[simp] theorem exec_seqtGet (o f s) : exec (.seqtGet o f) s = execSeqtGet o f s := rfl
@[simp] theorem exec_bnd (o f s) : exec (.bnd o f) s = execBnd o f s := rfl
@[simp] theorem exec_stset (o f s) : exec (.stset o f) s = execStset o f s := rfl
@[simp] theorem exec_stxor (o f s) : exec (.stxor o f) s = execStxor o f s := rfl
@[simp] theorem exec_exit (o f s) : exec (.exit o f) s = execExit o f s := rfl
@[simp] theorem exec_nop (o f s) : exec (.nop o f) s = execNop o f s := rfl
@[simp] theorem exec_trap (o f s) : exec (.trap o f) s = execTrap o f s := rfl
@[simp] theorem exec_brk (o f s) : exec (.brk o f) s = execBrk o f s := rfl
@[simp] theorem exec_ldb (o f s) : exec (.ldb o f) s = execLdb o f s := rfl
@[simp] theorem exec_stb (o f s) : exec (.stb o f) s = execStb o f s := rfl
@[simp] theorem exec_ldv (o f s) : exec (.ldv o f) s = execLdv o f s := rfl
@[simp] theorem exec_stv (o f s) : exec (.stv o f) s = execStv o f s := rfl
@[simp] theorem exec_rclm (o f s) : exec (.rclm o f) s = execRclm o f s := rfl
@[simp] theorem exec_gath (o f s) : exec (.gath o f) s = execGath o f s := rfl
@[simp] theorem exec_scat (o f s) : exec (.scat o f) s = execScat o f s := rfl
@[simp] theorem exec_bfst (o f s) : exec (.bfst o f) s = execBfst o f s := rfl
@[simp] theorem exec_bfsetFull (o f s) : exec (.bfsetFull o f) s = execBfsetFull o f s := rfl
@[simp] theorem exec_bfsetEmpty (o f s) : exec (.bfsetEmpty o f) s = execBfsetEmpty o f s := rfl
@[simp] theorem exec_atb (o f s) : exec (.atb o f) s = execAtb o f s := rfl
@[simp] theorem exec_sya (o f s) : exec (.sya o f) s = execSya o f s := rfl
@[simp] theorem exec_syadd (o f s) : exec (.syadd o f) s = execSyadd o f s := rfl
@[simp] theorem exec_sywch (o f s) : exec (.sywch o f) s = execSywch o f s := rfl
@[simp] theorem exec_ldg (o f s) : exec (.ldg o f) s = execLdg o f s := rfl
@[simp] theorem exec_stg (o f s) : exec (.stg o f) s = execStg o f s := rfl
@[simp] theorem exec_atg (o f s) : exec (.atg o f) s = execAtg o f s := rfl
@[simp] theorem exec_fnc (o f s) : exec (.fnc o f) s = execFnc o f s := rfl
@[simp] theorem exec_pfg (o f s) : exec (.pfg o f) s = execPfg o f s := rfl
@[simp] theorem exec_cparm (o f s) : exec (.cparm o f) s = execCparm o f s := rfl
@[simp] theorem exec_cpdis (o f s) : exec (.cpdis o f) s = execCpdis o f s := rfl
@[simp] theorem exec_cpfire (o f s) : exec (.cpfire o f) s = execCpfire o f s := rfl
@[simp] theorem exec_cpq (o f s) : exec (.cpq o f) s = execCpq o f s := rfl
@[simp] theorem exec_tmov (o f s) : exec (.tmov o f) s = execTmov o f s := rfl
@[simp] theorem exec_jcard (o f s) : exec (.jcard o f) s = execJcard o f s := rfl
@[simp] theorem exec_mgopen (o f s) : exec (.mgopen o f) s = execMgopen o f s := rfl
@[simp] theorem exec_mgclose (o f s) : exec (.mgclose o f) s = execMgclose o f s := rfl
@[simp] theorem exec_mgsplAllow (o f s) : exec (.mgsplAllow o f) s = execMgsplAllow o f s := rfl
@[simp] theorem exec_mgsplForbid (o f s) : exec (.mgsplForbid o f) s = execMgsplForbid o f s := rfl
@[simp] theorem exec_mgsplForce (o f s) : exec (.mgsplForce o f) s = execMgsplForce o f s := rfl
@[simp] theorem exec_mgsplXqreg (o f s) : exec (.mgsplXqreg o f) s = execMgsplXqreg o f s := rfl
@[simp] theorem exec_mgsplXqdel (o f s) : exec (.mgsplXqdel o f) s = execMgsplXqdel o f s := rfl
@[simp] theorem exec_mgstIsland (o f s) : exec (.mgstIsland o f) s = execMgstIsland o f s := rfl
@[simp] theorem exec_mgstQueue (o f s) : exec (.mgstQueue o f) s = execMgstQueue o f s := rfl
@[simp] theorem exec_mxtok (o f s) : exec (.mxtok o f) s = execMxtok o f s := rfl
@[simp] theorem exec_mxcfg (o f s) : exec (.mxcfg o f) s = execMxcfg o f s := rfl
@[simp] theorem exec_mxdrn (o f s) : exec (.mxdrn o f) s = execMxdrn o f s := rfl
@[simp] theorem exec_lutx (o f s) : exec (.lutx o f) s = execLutx o f s := rfl
@[simp] theorem exec_bspl (o f s) : exec (.bspl o f) s = execBspl o f s := rfl
@[simp] theorem exec_bjn (o f s) : exec (.bjn o f) s = execBjn o f s := rfl
@[simp] theorem exec_phlx (o f s) : exec (.phlx o f) s = execPhlx o f s := rfl
@[simp] theorem exec_rngf (o f s) : exec (.rngf o f) s = execRngf o f s := rfl
@[simp] theorem exec_tamp (o f s) : exec (.tamp o f) s = execTamp o f s := rfl
@[simp] theorem exec_thaw (o f s) : exec (.thaw o f) s = execThaw o f s := rfl
@[simp] theorem exec_thawTrap (o f s) : exec (.thawTrap o f) s = execThawTrap o f s := rfl
@[simp] theorem exec_scrd (o f s) : exec (.scrd o f) s = execScrd o f s := rfl
@[simp] theorem exec_scwrVft (o f s) : exec (.scwrVft o f) s = execScwrVft o f s := rfl
@[simp] theorem exec_scwrEs (o f s) : exec (.scwrEs o f) s = execScwrEs o f s := rfl
@[simp] theorem exec_scwrSt (o f s) : exec (.scwrSt o f) s = execScwrSt o f s := rfl
@[simp] theorem exec_rtwr (o f s) : exec (.rtwr o f) s = execRtwr o f s := rfl
@[simp] theorem exec_prtd (o f s) : exec (.prtd o f) s = execPrtd o f s := rfl
@[simp] theorem exec_ptctRead (o f s) : exec (.ptctRead o f) s = execPtctRead o f s := rfl
@[simp] theorem exec_ptctWrite (o f s) : exec (.ptctWrite o f) s = execPtctWrite o f s := rfl
@[simp] theorem exec_ptctDefine (o f s) : exec (.ptctDefine o f) s = execPtctDefine o f s := rfl
@[simp] theorem exec_ptctSave (o f s) : exec (.ptctSave o f) s = execPtctSave o f s := rfl
@[simp] theorem exec_ptctRestore (o f s) : exec (.ptctRestore o f) s = execPtctRestore o f s := rfl
@[simp] theorem exec_ptctRelease (o f s) : exec (.ptctRelease o f) s = execPtctRelease o f s := rfl
@[simp] theorem exec_tlbiS1va (o f s) : exec (.tlbiS1va o f) s = execTlbiS1va o f s := rfl
@[simp] theorem exec_tlbiS1pid (o f s) : exec (.tlbiS1pid o f) s = execTlbiS1pid o f s := rfl
@[simp] theorem exec_tlbiS2g (o f s) : exec (.tlbiS2g o f) s = execTlbiS2g o f s := rfl
@[simp] theorem exec_tlbiS2vf (o f s) : exec (.tlbiS2vf o f) s = execTlbiS2vf o f s := rfl
@[simp] theorem exec_pgfwStart (o f s) : exec (.pgfwStart o f) s = execPgfwStart o f s := rfl
@[simp] theorem exec_pgfwClear (o f s) : exec (.pgfwClear o f) s = execPgfwClear o f s := rfl
@[simp] theorem exec_pgfwAbort (o f s) : exec (.pgfwAbort o f) s = execPgfwAbort o f s := rfl
@[simp] theorem exec_pgfwQuery (o f s) : exec (.pgfwQuery o f) s = execPgfwQuery o f s := rfl
@[simp] theorem exec_vfenSet (o f s) : exec (.vfenSet o f) s = execVfenSet o f s := rfl
@[simp] theorem exec_vfenClr (o f s) : exec (.vfenClr o f) s = execVfenClr o f s := rfl
@[simp] theorem exec_vdmap (o f s) : exec (.vdmap o f) s = execVdmap o f s := rfl
@[simp] theorem exec_kroll (o f s) : exec (.kroll o f) s = execKroll o f s := rfl
@[simp] theorem exec_atstQuery (o f s) : exec (.atstQuery o f) s = execAtstQuery o f s := rfl
@[simp] theorem exec_atstChallenge (o f s) : exec (.atstChallenge o f) s = execAtstChallenge o f s := rfl
@[simp] theorem exec_atstQuarantine (o f s) : exec (.atstQuarantine o f) s = execAtstQuarantine o f s := rfl
@[simp] theorem exec_atstReset (o f s) : exec (.atstReset o f) s = execAtstReset o f s := rfl
@[simp] theorem exec_fltakTake (o f s) : exec (.fltakTake o f) s = execFltakTake o f s := rfl
@[simp] theorem exec_fltakPeek (o f s) : exec (.fltakPeek o f) s = execFltakPeek o f s := rfl
@[simp] theorem exec_qsckRead (o f s) : exec (.qsckRead o f) s = execQsckRead o f s := rfl
@[simp] theorem exec_qsckRestart (o f s) : exec (.qsckRestart o f) s = execQsckRestart o f s := rfl
@[simp] theorem exec_rlim (o f s) : exec (.rlim o f) s = execRlim o f s := rfl
@[simp] theorem exec_sqarm (off s) : exec (.sqarm off) s = execSqarm off s := rfl
@[simp] theorem exec_sqbr (off s) : exec (.sqbr off) s = execSqbr off s := rfl
@[simp] theorem exec_sqloop (lc count off s) : exec (.sqloop lc count off) s = execSqloop lc count off s := rfl
@[simp] theorem exec_sqwait (g va s) : exec (.sqwait g va) s = execSqwait g va s := rfl
@[simp] theorem exec_sqlaunch (ex ey bit g va s) : exec (.sqlaunch ex ey bit g va) s = execSqlaunch ex ey bit g va s := rfl
@[simp] theorem exec_sqjoin (g s) : exec (.sqjoin g) s = execSqjoin g s := rfl
@[simp] theorem exec_sqend (s) : exec .sqend s = execSqend s := rfl
@[simp] theorem exec_sqmark (m s) : exec (.sqmark m) s = execSqmark m s := rfl
@[simp] theorem exec_sqfence (s) : exec .sqfence s = execSqfence s := rfl
@[simp] theorem exec_mma (t s) : exec (.mma t) s = execMma t s := rfl
@[simp] theorem exec_mmas (t s) : exec (.mmas t) s = execMmas t s := rfl
@[simp] theorem exec_mmsc (t s) : exec (.mmsc t) s = execMmsc t s := rfl
@[simp] theorem exec_mmi (t s) : exec (.mmi t) s = execMmi t s := rfl
@[simp] theorem exec_mzero (t s) : exec (.mzero t) s = execMzero t s := rfl
@[simp] theorem exec_mldm (t s) : exec (.mldm t) s = execMldm t s := rfl
@[simp] theorem exec_stwLaunch (tag vdn hdr s) : exec (.stwLaunch tag vdn hdr) s = execStwLaunch tag vdn hdr s := rfl
@[simp] theorem exec_portAddr (tag port plen addr s) : exec (.portAddr tag port plen addr) s = execPortAddr tag port plen addr s := rfl
@[simp] theorem exec_peerSet (tag panel addrs s) : exec (.peerSet tag panel addrs) s = execPeerSet tag panel addrs s := rfl
@[simp] theorem exec_trlsCfg (tag port panel s) : exec (.trlsCfg tag port panel) s = execTrlsCfg tag port panel s := rfl
@[simp] theorem exec_qpOpen (tag vf pid port rqpn rip psn s) : exec (.qpOpen tag vf pid port rqpn rip psn) s = execQpOpen tag vf pid port rqpn rip psn s := rfl
@[simp] theorem exec_qpClose (tag qpn s) : exec (.qpClose tag qpn) s = execQpClose tag qpn s := rfl
@[simp] theorem exec_mwOpen (tag vf pid rd wr va len s) : exec (.mwOpen tag vf pid rd wr va len) s = execMwOpen tag vf pid rd wr va len s := rfl
@[simp] theorem exec_mwClose (tag key s) : exec (.mwClose tag key) s = execMwClose tag key s := rfl
@[simp] theorem exec_sqBind (tag vf q pid qpn va key entries s) : exec (.sqBind tag vf q pid qpn va key entries) s = execSqBind tag vf q pid qpn va key entries s := rfl
@[simp] theorem exec_ringSet (tag vf ring qpn va key s) : exec (.ringSet tag vf ring qpn va key) s = execRingSet tag vf ring qpn va key s := rfl
@[simp] theorem exec_cfgRead (tag item index s) : exec (.cfgRead tag item index) s = execCfgRead tag item index s := rfl
@[simp] theorem exec_mgmtMalformedCommand (msg s) : exec (.mgmtMalformedCommand msg) s = execMgmtMalformedCommand msg s := rfl
@[simp] theorem exec_trlsLoad (h s) : exec (.trlsLoad h) s = execTrlsLoad h s := rfl
@[simp] theorem exec_trlsStore (h s) : exec (.trlsStore h) s = execTrlsStore h s := rfl
@[simp] theorem exec_trlsAtomic (h s) : exec (.trlsAtomic h) s = execTrlsAtomic h s := rfl
@[simp] theorem exec_trlsSyncadd (h s) : exec (.trlsSyncadd h) s = execTrlsSyncadd h s := rfl
@[simp] theorem exec_trlsData (h s) : exec (.trlsData h) s = execTrlsData h s := rfl
@[simp] theorem exec_trlsAck (h s) : exec (.trlsAck h) s = execTrlsAck h s := rfl
@[simp] theorem exec_trlsNak (h s) : exec (.trlsNak h) s = execTrlsNak h s := rfl
@[simp] theorem exec_trlsKeyswitch (h s) : exec (.trlsKeyswitch h) s = execTrlsKeyswitch h s := rfl
@[simp] theorem exec_trlsUndefinedOp (opc h s) : exec (.trlsUndefinedOp opc h) s = execTrlsUndefinedOp opc h s := rfl
@[simp] theorem exec_launchSubmit (vf q hdr s) : exec (.launchSubmit vf q hdr) s = execLaunchSubmit vf q hdr s := rfl
@[simp] theorem exec_launchPlace (pid lnch rect s) : exec (.launchPlace pid lnch rect) s = execLaunchPlace pid lnch rect s := rfl
@[simp] theorem exec_launchAgeing (pid lnch s) : exec (.launchAgeing pid lnch) s = execLaunchAgeing pid lnch s := rfl
@[simp] theorem exec_passStart (pid lnch fslot s) : exec (.passStart pid lnch fslot) s = execPassStart pid lnch fslot s := rfl
@[simp] theorem exec_launchComplete (pid lnch s) : exec (.launchComplete pid lnch) s = execLaunchComplete pid lnch s := rfl
@[simp] theorem exec_blockArm (r s) : exec (.blockArm r) s = execBlockArm r s := rfl
@[simp] theorem exec_frameFire (r frm s) : exec (.frameFire r frm) s = execFrameFire r frm s := rfl
@[simp] theorem exec_blockCommit (r frm s) : exec (.blockCommit r frm) s = execBlockCommit r frm s := rfl
@[simp] theorem exec_iterationToken (r frm s) : exec (.iterationToken r frm) s = execIterationToken r frm s := rfl
@[simp] theorem exec_packetDeliver (ix s) : exec (.packetDeliver ix) s = execPacketDeliver ix s := rfl
@[simp] theorem exec_outputChannelSend (e ch s) : exec (.outputChannelSend e ch) s = execOutputChannelSend e ch s := rfl
@[simp] theorem exec_creditReturn (ix s) : exec (.creditReturn ix) s = execCreditReturn ix s := rfl
@[simp] theorem exec_bndPacketRelease (ix s) : exec (.bndPacketRelease ix) s = execBndPacketRelease ix s := rfl
@[simp] theorem exec_slotAgeing (e n s) : exec (.slotAgeing e n) s = execSlotAgeing e n s := rfl
@[simp] theorem exec_baristaWindow (die pid idle s) : exec (.baristaWindow die pid idle) s = execBaristaWindow die pid idle s := rfl
@[simp] theorem exec_dripWindow (r cls s) : exec (.dripWindow r cls) s = execDripWindow r cls s := rfl
@[simp] theorem exec_quietCountExpire (die pid s) : exec (.quietCountExpire die pid) s = execQuietCountExpire die pid s := rfl
@[simp] theorem exec_quiescenceProbe (pid s) : exec (.quiescenceProbe pid) s = execQuiescenceProbe pid s := rfl
@[simp] theorem exec_streamReadAhead (r frm b s) : exec (.streamReadAhead r frm b) s = execStreamReadAhead r frm b s := rfl
@[simp] theorem exec_tagWordArrive (ix s) : exec (.tagWordArrive ix) s = execTagWordArrive ix s := rfl
@[simp] theorem exec_tileBankCycle (r tile s) : exec (.tileBankCycle r tile) s = execTileBankCycle r tile s := rfl
@[simp] theorem exec_syncHomeCycle (word k s) : exec (.syncHomeCycle word k) s = execSyncHomeCycle word k s := rfl
@[simp] theorem exec_versionHomeCycle (word s) : exec (.versionHomeCycle word) s = execVersionHomeCycle word s := rfl
@[simp] theorem exec_postedWriteDrain (ix s) : exec (.postedWriteDrain ix) s = execPostedWriteDrain ix s := rfl
@[simp] theorem exec_homeAccess (ix s) : exec (.homeAccess ix) s = execHomeAccess ix s := rfl
@[simp] theorem exec_memoryResponse (ix s) : exec (.memoryResponse ix) s = execMemoryResponse ix s := rfl
@[simp] theorem exec_tableWalk (ix s) : exec (.tableWalk ix) s = execTableWalk ix s := rfl
@[simp] theorem exec_engineJobStart (ix s) : exec (.engineJobStart ix) s = execEngineJobStart ix s := rfl
@[simp] theorem exec_copyFireToken (die edge q s) : exec (.copyFireToken die edge q) s = execCopyFireToken die edge q s := rfl
@[simp] theorem exec_copyPermitToken (die edge q s) : exec (.copyPermitToken die edge q) s = execCopyPermitToken die edge q s := rfl
@[simp] theorem exec_copyJob (ix s) : exec (.copyJob ix) s = execCopyJob ix s := rfl
@[simp] theorem exec_copyJobComplete (ix s) : exec (.copyJobComplete ix) s = execCopyJobComplete ix s := rfl
@[simp] theorem exec_nodeRouteSend (e s) : exec (.nodeRouteSend e) s = execNodeRouteSend e s := rfl
@[simp] theorem exec_mergeLeafPacket (ix s) : exec (.mergeLeafPacket ix) s = execMergeLeafPacket ix s := rfl
@[simp] theorem exec_mergeRootEmit (die q s) : exec (.mergeRootEmit die q) s = execMergeRootEmit die q s := rfl
@[simp] theorem exec_mergeRemergePass (die q s) : exec (.mergeRemergePass die q) s = execMergeRemergePass die q s := rfl
@[simp] theorem exec_mergeOutputSend (die q s) : exec (.mergeOutputSend die q) s = execMergeOutputSend die q s := rfl
@[simp] theorem exec_xqMessage (ix s) : exec (.xqMessage ix) s = execXqMessage ix s := rfl
@[simp] theorem exec_xqDivert (die desc s) : exec (.xqDivert die desc) s = execXqDivert die desc s := rfl
@[simp] theorem exec_freezeArrive (die pid s) : exec (.freezeArrive die pid) s = execFreezeArrive die pid s := rfl
@[simp] theorem exec_sliceEnd (pid s) : exec (.sliceEnd pid) s = execSliceEnd pid s := rfl
@[simp] theorem exec_scrubComplete (pid s) : exec (.scrubComplete pid) s = execScrubComplete pid s := rfl
@[simp] theorem exec_sliceCopyComplete (kind site lfn s) : exec (.sliceCopyComplete kind site lfn) s = execSliceCopyComplete kind site lfn s := rfl
@[simp] theorem exec_faultRecordDeliver (ix s) : exec (.faultRecordDeliver ix) s = execFaultRecordDeliver ix s := rfl
@[simp] theorem exec_doorbellWrite (vf off data s) : exec (.doorbellWrite vf off data) s = execDoorbellWrite vf off data s := rfl
@[simp] theorem exec_roceWrite (qpn key va data s) : exec (.roceWrite qpn key va data) s = execRoceWrite qpn key va data s := rfl
@[simp] theorem exec_roceRead (qpn key va len s) : exec (.roceRead qpn key va len) s = execRoceRead qpn key va len s := rfl
@[simp] theorem exec_roceCnp (qpn s) : exec (.roceCnp qpn) s = execRoceCnp qpn s := rfl
@[simp] theorem exec_roceInvalidOpcode (qpn opc s) : exec (.roceInvalidOpcode qpn opc) s = execRoceInvalidOpcode qpn opc s := rfl
@[simp] theorem exec_trlsRetransmitTimeout (panel stream s) : exec (.trlsRetransmitTimeout panel stream) s = execTrlsRetransmitTimeout panel stream s := rfl
@[simp] theorem exec_trlsRekey (panel s) : exec (.trlsRekey panel) s = execTrlsRekey panel s := rfl
@[simp] theorem exec_getVersion (u s) : exec (.getVersion u) s = execGetVersion u s := rfl
@[simp] theorem exec_getCapabilities (u s) : exec (.getCapabilities u) s = execGetCapabilities u s := rfl
@[simp] theorem exec_negotiateAlgorithms (u offer s) : exec (.negotiateAlgorithms u offer) s = execNegotiateAlgorithms u offer s := rfl
@[simp] theorem exec_getDigests (u cslot s) : exec (.getDigests u cslot) s = execGetDigests u cslot s := rfl
@[simp] theorem exec_getCertificate (u cslot off len s) : exec (.getCertificate u cslot off len) s = execGetCertificate u cslot off len s := rfl
@[simp] theorem exec_challenge (u sigOk s) : exec (.challenge u sigOk) s = execChallenge u sigOk s := rfl
@[simp] theorem exec_getMeasurements (u sigOk s) : exec (.getMeasurements u sigOk) s = execGetMeasurements u sigOk s := rfl
@[simp] theorem exec_keyExchange (u s) : exec (.keyExchange u) s = execKeyExchange u s := rfl
@[simp] theorem exec_finish (u ok s) : exec (.finish u ok) s = execFinish u ok s := rfl
@[simp] theorem exec_keyUpdate (u s) : exec (.keyUpdate u) s = execKeyUpdate u s := rfl
@[simp] theorem exec_endSession (u s) : exec (.endSession u) s = execEndSession u s := rfl
@[simp] theorem exec_spdmUnsupportedRequest (u code s) : exec (.spdmUnsupportedRequest u code) s = execSpdmUnsupportedRequest u code s := rfl
@[simp] theorem exec_keyDeliver (u n rx gen s) : exec (.keyDeliver u n rx gen) s = execKeyDeliver u n rx gen s := rfl
@[simp] theorem exec_keyRollDue (u n s) : exec (.keyRollDue u n) s = execKeyRollDue u n s := rfl
@[simp] theorem exec_keyswitchReceive (u n gen s) : exec (.keyswitchReceive u n gen) s = execKeyswitchReceive u n gen s := rfl
@[simp] theorem exec_linkFrameSend (u n flits s) : exec (.linkFrameSend u n flits) s = execLinkFrameSend u n flits s := rfl
@[simp] theorem exec_frameCounterExhausted (u n s) : exec (.frameCounterExhausted u n) s = execFrameCounterExhausted u n s := rfl
@[simp] theorem exec_linkFrameReceive (u n gen flits crcOk tagOk chkOk peerOk s) : exec (.linkFrameReceive u n gen flits crcOk tagOk chkOk peerOk) s = execLinkFrameReceive u n gen flits crcOk tagOk chkOk peerOk s := rfl
@[simp] theorem exec_rootTakeover (port done s) : exec (.rootTakeover port done) s = execRootTakeover port done s := rfl
@[simp] theorem exec_powerGood (fw s) : exec (.powerGood fw) s = execPowerGood fw s := rfl
@[simp] theorem exec_clockRaise (die s) : exec (.clockRaise die) s = execClockRaise die s := rfl
@[simp] theorem exec_droopStretch (r on s) : exec (.droopStretch r on) s = execDroopStretch r on s := rfl
@[simp] theorem exec_powerEval (power s) : exec (.powerEval power) s = execPowerEval power s := rfl
@[simp] theorem exec_thermalThrottle (u temp s) : exec (.thermalThrottle u temp) s = execThermalThrottle u temp s := rfl
@[simp] theorem exec_thermalTrip (u temp s) : exec (.thermalTrip u temp) s = execThermalTrip u temp s := rfl
@[simp] theorem exec_patrolScrub (addr bad s) : exec (.patrolScrub addr bad) s = execPatrolScrub addr bad s := rfl
@[simp] theorem exec_channelSpare (vsn ch s) : exec (.channelSpare vsn ch) s = execChannelSpare vsn ch s := rfl
@[simp] theorem exec_sessionLost (u s) : exec (.sessionLost u) s = execSessionLost u s := rfl
@[simp] theorem exec_junctionBelowThrottle (u temp s) : exec (.junctionBelowThrottle u temp) s = execJunctionBelowThrottle u temp s := rfl
@[simp] theorem exec_pfcFrame (port prio pause s) : exec (.pfcFrame port prio pause) s = execPfcFrame port prio pause s := rfl

end Sys2Proof.Laws
end

