-- ==== Sys2Proof/Laws/Table.lean ====
section
/-! SUPPORT. Laws of sparse tables: what a key reads after a change of the table, and that a change keeps the canonical form. -/

namespace Sys2Proof

variable {α : Type}

/-- An erased key reads as the default. -/
theorem PMap.get_erase [Inhabited α] (m : PMap α) (k j : Nat) :
    (m.erase k).get j = if j = k then default else m.get j := by
  induction m with
  | nil => simp [PMap.erase, PMap.get]
  | cons x m ih =>
    obtain ⟨i, v⟩ := x
    unfold PMap.erase
    split
    · rename_i h
      rw [ih]
      by_cases h' : j = k
      · simp [h']
      · simp [PMap.get, h', show i ≠ j from fun h'' => h' (h''.symm.trans h)]
    · rename_i h
      by_cases h'' : i = j
      · simp [PMap.get, h'', show j ≠ k from h'' ▸ h]
      · simp [PMap.get, h'', ih]

/-- A key inserted where it did not stand reads as what was inserted, and no other key changes. -/
theorem PMap.get_insert [Inhabited α] (m : PMap α) (k j : Nat) (v : α) (hk : ∀ x ∈ m, x.1 ≠ k) :
    (m.insert k v).get j = if j = k then v else m.get j := by
  induction m with
  | nil => by_cases h : k = j <;> simp [PMap.insert, PMap.get, h, eq_comm]
  | cons x m ih =>
    obtain ⟨i, u⟩ := x
    have hi : i ≠ k := hk (i, u) (by simp)
    have ih := ih (fun y hy => hk y (by simp [hy]))
    unfold PMap.insert
    split
    · by_cases h : k = j
      · simp [PMap.get, h]
      · simp [PMap.get, h, Ne.symm h]
    · by_cases h : i = j
      · subst h; simp [PMap.get, hi]
      · simp [PMap.get, h, ih]

/-- An erased table lists the key no more. -/
theorem PMap.erase_fresh (m : PMap α) (k : Nat) : ∀ x ∈ m.erase k, x.1 ≠ k := by
  induction m with
  | nil => simp [PMap.erase]
  | cons x m ih =>
    obtain ⟨i, v⟩ := x
    unfold PMap.erase
    split
    · exact ih
    · rename_i h
      intro y hy
      rcases List.mem_cons.mp hy with rfl | hy
      · exact h
      · exact ih y hy

/-- A table read after a write: the written key gives what was written, every other key what it gave. -/
theorem PMap.get_set [Inhabited α] [DecidableEq α] (m : PMap α) (k j : Nat) (v : α) :
    (m.set k v).get j = if j = k then v else m.get j := by
  unfold PMap.set
  split
  · rename_i h; subst h; exact PMap.get_erase m k j
  · rw [PMap.get_insert _ _ _ _ (PMap.erase_fresh m k), PMap.get_erase]
    by_cases h : j = k <;> simp [h]

@[simp] theorem PMap.get_set_same [Inhabited α] [DecidableEq α] (m : PMap α) (k : Nat) (v : α) :
    (m.set k v).get k = v := by simp [PMap.get_set]

theorem PMap.get_set_ne [Inhabited α] [DecidableEq α] (m : PMap α) {k j : Nat} (v : α) (h : j ≠ k) :
    (m.set k v).get j = m.get j := by simp [PMap.get_set, h]

theorem PMap.get_modify [Inhabited α] [DecidableEq α] (m : PMap α) (k j : Nat) (f : α → α) :
    (m.modify k f).get j = if j = k then f (m.get k) else m.get j := by
  simp [PMap.modify, PMap.get_set]

@[simp] theorem PMap.get_modify_same [Inhabited α] [DecidableEq α] (m : PMap α) (k : Nat) (f : α → α) :
    (m.modify k f).get k = f (m.get k) := by simp [PMap.modify]

theorem PMap.get_modify_ne [Inhabited α] [DecidableEq α] (m : PMap α) {k j : Nat} (f : α → α) (h : j ≠ k) :
    (m.modify k f).get j = m.get j := by simp [PMap.modify, PMap.get_set, h]

/-- Keys that rise, as a chain. -/
theorem PMap.rising_iff (m : PMap α) : m.rising = true ↔ (m.map (·.1)).Pairwise (· < ·) := by
  induction m with
  | nil => simp [PMap.rising]
  | cons x m ih =>
    cases m with
    | nil => simp [PMap.rising]
    | cons y m =>
      simp only [PMap.rising, Bool.and_eq_true, decide_eq_true_eq, ih, List.map_cons, List.pairwise_cons]
      constructor
      · rintro ⟨h, hy, hm⟩
        refine ⟨?_, hy, hm⟩
        intro a ha
        simp only [List.mem_cons] at ha
        rcases ha with rfl | ha
        · exact h
        · exact Nat.lt_trans h (hy a ha)
      · rintro ⟨h, hy, hm⟩
        exact ⟨h y.1 (by simp), hy, hm⟩

/-- What the canonical form says. -/
theorem PMap.wf_iff [Inhabited α] [DecidableEq α] (m : PMap α) :
    m.wf = true ↔ (m.map (·.1)).Pairwise (· < ·) ∧ ∀ x ∈ m, x.2 ≠ default := by
  simp [PMap.wf, PMap.rising_iff]

/-- An erased table is a part of the table. -/
theorem PMap.erase_eq_filter (m : PMap α) (k : Nat) : m.erase k = m.filter (fun x => x.1 != k) := by
  induction m with
  | nil => rfl
  | cons x m ih =>
    obtain ⟨i, v⟩ := x
    by_cases h : i = k <;> simp_all [PMap.erase]

/-- A part of a table in canonical form is in canonical form. -/
theorem PMap.wf_filter [Inhabited α] [DecidableEq α] (m : PMap α) (p : Nat × α → Bool) (h : m.wf = true) :
    PMap.wf (m.filter p) = true := by
  rw [PMap.wf_iff] at h ⊢
  refine ⟨h.1.sublist (List.filter_sublist.map _), ?_⟩
  intro x hx
  exact h.2 x (List.mem_filter.mp hx).1

/-- Where the members of an inserted table come from. -/
theorem PMap.mem_insert (m : PMap α) (k : Nat) (v : α) (x : Nat × α) (h : x ∈ m.insert k v) : x = (k, v) ∨ x ∈ m := by
  induction m with
  | nil => simpa [PMap.insert] using h
  | cons y m ih =>
    obtain ⟨i, u⟩ := y
    unfold PMap.insert at h
    split at h
    · simpa using h
    · simp only [List.mem_cons] at h ⊢
      rcases h with h | h
      · exact .inr (.inl h)
      · rcases ih h with h | h
        · exact .inl h
        · exact .inr (.inr h)

/-- Insertion of a fresh key keeps the keys rising. -/
theorem PMap.insert_rising (m : PMap α) (k : Nat) (v : α) (h : (m.map (·.1)).Pairwise (· < ·)) (hk : ∀ x ∈ m, x.1 ≠ k) :
    ((m.insert k v).map (·.1)).Pairwise (· < ·) := by
  induction m with
  | nil => simp [PMap.insert]
  | cons y m ih =>
    obtain ⟨i, u⟩ := y
    simp only [List.map_cons, List.pairwise_cons] at h
    have hi : i ≠ k := hk (i, u) (by simp)
    unfold PMap.insert
    split
    · rename_i hlt
      simp only [List.map_cons, List.pairwise_cons, List.mem_cons]
      refine ⟨?_, h.1, h.2⟩
      intro a ha
      rcases ha with rfl | ha
      · exact hlt
      · exact Nat.lt_trans hlt (h.1 a ha)
    · rename_i hge
      simp only [List.map_cons, List.pairwise_cons]
      refine ⟨?_, ih h.2 (fun x hx => hk x (by simp [hx]))⟩
      intro a ha
      obtain ⟨x, hx, rfl⟩ := List.mem_map.mp ha
      rcases PMap.mem_insert m k v x hx with rfl | hx
      · simp only; omega
      · exact h.1 x.1 (List.mem_map.mpr ⟨x, hx, rfl⟩)

/-- A write keeps the canonical form. -/
theorem PMap.wf_set [Inhabited α] [DecidableEq α] (m : PMap α) (k : Nat) (v : α) (h : m.wf = true) :
    (m.set k v).wf = true := by
  have he : PMap.wf (m.erase k) = true := by rw [PMap.erase_eq_filter]; exact PMap.wf_filter m _ h
  unfold PMap.set
  split
  · exact he
  · rename_i hv
    rw [PMap.wf_iff] at he ⊢
    refine ⟨PMap.insert_rising _ _ _ he.1 (PMap.erase_fresh m k), ?_⟩
    intro x hx
    rcases PMap.mem_insert _ _ _ _ hx with rfl | hx
    · exact hv
    · exact he.2 x hx

theorem PMap.wf_modify [Inhabited α] [DecidableEq α] (m : PMap α) (k : Nat) (f : α → α) (h : m.wf = true) :
    (m.modify k f).wf = true := PMap.wf_set m k _ h

end Sys2Proof
end

