-- ==== Sys2Proof/Laws/State.lean ====
section
/-! SUPPORT. What each update of the state leaves in each field of it, and what the tables read afterwards. -/

namespace Sys2Proof.Machine

/-! setElem -/

@[simp] theorem State.setElem_agenda (s : State) (e : Nat) (x : Elem) : (s.setElem e x).agenda = s.agenda := rfl
@[simp] theorem State.setElem_draws (s : State) (e : Nat) (x : Elem) : (s.setElem e x).draws = s.draws := rfl
@[simp] theorem State.setElem_cur (s : State) (e : Nat) (x : Elem) : (s.setElem e x).cur = s.cur := rfl
@[simp] theorem State.setElem_nextId (s : State) (e : Nat) (x : Elem) : (s.setElem e x).nextId = s.nextId := rfl
@[simp] theorem State.setElem_panel (s : State) (e : Nat) (x : Elem) : (s.setElem e x).panel = s.panel := rfl
@[simp] theorem State.setElem_mem (s : State) (e : Nat) (x : Elem) : (s.setElem e x).mem = s.mem := rfl
@[simp] theorem State.setElem_marks (s : State) (e : Nat) (x : Elem) : (s.setElem e x).marks = s.marks := rfl
@[simp] theorem State.setElem_vers (s : State) (e : Nat) (x : Elem) : (s.setElem e x).vers = s.vers := rfl
@[simp] theorem State.setElem_ecc (s : State) (e : Nat) (x : Elem) : (s.setElem e x).ecc = s.ecc := rfl
@[simp] theorem State.setElem_relCov (s : State) (e : Nat) (x : Elem) : (s.setElem e x).relCov = s.relCov := rfl
@[simp] theorem State.setElem_elems (s : State) (e : Nat) (x : Elem) : (s.setElem e x).elems = s.elems.set e x := rfl
@[simp] theorem State.setElem_nodes (s : State) (e : Nat) (x : Elem) : (s.setElem e x).nodes = s.nodes := rfl
@[simp] theorem State.setElem_regions (s : State) (e : Nat) (x : Elem) : (s.setElem e x).regions = s.regions := rfl
@[simp] theorem State.setElem_dies (s : State) (e : Nat) (x : Elem) : (s.setElem e x).dies = s.dies := rfl
@[simp] theorem State.setElem_descs (s : State) (e : Nat) (x : Elem) : (s.setElem e x).descs = s.descs := rfl
@[simp] theorem State.setElem_parts (s : State) (e : Nat) (x : Elem) : (s.setElem e x).parts = s.parts := rfl
@[simp] theorem State.setElem_vfs (s : State) (e : Nat) (x : Elem) : (s.setElem e x).vfs = s.vfs := rfl
@[simp] theorem State.setElem_net (s : State) (e : Nat) (x : Elem) : (s.setElem e x).net = s.net := rfl
@[simp] theorem State.setElem_creds (s : State) (e : Nat) (x : Elem) : (s.setElem e x).creds = s.creds := rfl
@[simp] theorem State.setElem_bnds (s : State) (e : Nat) (x : Elem) : (s.setElem e x).bnds = s.bnds := rfl
@[simp] theorem State.setElem_reqs (s : State) (e : Nat) (x : Elem) : (s.setElem e x).reqs = s.reqs := rfl
@[simp] theorem State.setElem_tileQ (s : State) (e : Nat) (x : Elem) : (s.setElem e x).tileQ = s.tileQ := rfl
@[simp] theorem State.setElem_jobs (s : State) (e : Nat) (x : Elem) : (s.setElem e x).jobs = s.jobs := rfl
@[simp] theorem State.setElem_words (s : State) (e : Nat) (x : Elem) : (s.setElem e x).words = s.words := rfl
@[simp] theorem State.setElem_recs (s : State) (e : Nat) (x : Elem) : (s.setElem e x).recs = s.recs := rfl

/-! modElem -/

@[simp] theorem State.modElem_agenda (s : State) (e : Nat) (f : Elem → Elem) : (s.modElem e f).agenda = s.agenda := rfl
@[simp] theorem State.modElem_draws (s : State) (e : Nat) (f : Elem → Elem) : (s.modElem e f).draws = s.draws := rfl
@[simp] theorem State.modElem_cur (s : State) (e : Nat) (f : Elem → Elem) : (s.modElem e f).cur = s.cur := rfl
@[simp] theorem State.modElem_nextId (s : State) (e : Nat) (f : Elem → Elem) : (s.modElem e f).nextId = s.nextId := rfl
@[simp] theorem State.modElem_panel (s : State) (e : Nat) (f : Elem → Elem) : (s.modElem e f).panel = s.panel := rfl
@[simp] theorem State.modElem_mem (s : State) (e : Nat) (f : Elem → Elem) : (s.modElem e f).mem = s.mem := rfl
@[simp] theorem State.modElem_marks (s : State) (e : Nat) (f : Elem → Elem) : (s.modElem e f).marks = s.marks := rfl
@[simp] theorem State.modElem_vers (s : State) (e : Nat) (f : Elem → Elem) : (s.modElem e f).vers = s.vers := rfl
@[simp] theorem State.modElem_ecc (s : State) (e : Nat) (f : Elem → Elem) : (s.modElem e f).ecc = s.ecc := rfl
@[simp] theorem State.modElem_relCov (s : State) (e : Nat) (f : Elem → Elem) : (s.modElem e f).relCov = s.relCov := rfl
@[simp] theorem State.modElem_elems (s : State) (e : Nat) (f : Elem → Elem) :
    (s.modElem e f).elems = s.elems.set e (f (s.elem e)) := rfl
@[simp] theorem State.modElem_nodes (s : State) (e : Nat) (f : Elem → Elem) : (s.modElem e f).nodes = s.nodes := rfl
@[simp] theorem State.modElem_regions (s : State) (e : Nat) (f : Elem → Elem) : (s.modElem e f).regions = s.regions := rfl
@[simp] theorem State.modElem_dies (s : State) (e : Nat) (f : Elem → Elem) : (s.modElem e f).dies = s.dies := rfl
@[simp] theorem State.modElem_descs (s : State) (e : Nat) (f : Elem → Elem) : (s.modElem e f).descs = s.descs := rfl
@[simp] theorem State.modElem_parts (s : State) (e : Nat) (f : Elem → Elem) : (s.modElem e f).parts = s.parts := rfl
@[simp] theorem State.modElem_vfs (s : State) (e : Nat) (f : Elem → Elem) : (s.modElem e f).vfs = s.vfs := rfl
@[simp] theorem State.modElem_net (s : State) (e : Nat) (f : Elem → Elem) : (s.modElem e f).net = s.net := rfl
@[simp] theorem State.modElem_creds (s : State) (e : Nat) (f : Elem → Elem) : (s.modElem e f).creds = s.creds := rfl
@[simp] theorem State.modElem_bnds (s : State) (e : Nat) (f : Elem → Elem) : (s.modElem e f).bnds = s.bnds := rfl
@[simp] theorem State.modElem_reqs (s : State) (e : Nat) (f : Elem → Elem) : (s.modElem e f).reqs = s.reqs := rfl
@[simp] theorem State.modElem_tileQ (s : State) (e : Nat) (f : Elem → Elem) : (s.modElem e f).tileQ = s.tileQ := rfl
@[simp] theorem State.modElem_jobs (s : State) (e : Nat) (f : Elem → Elem) : (s.modElem e f).jobs = s.jobs := rfl
@[simp] theorem State.modElem_words (s : State) (e : Nat) (f : Elem → Elem) : (s.modElem e f).words = s.words := rfl
@[simp] theorem State.modElem_recs (s : State) (e : Nat) (f : Elem → Elem) : (s.modElem e f).recs = s.recs := rfl

/-! setRegion -/

@[simp] theorem State.setRegion_agenda (s : State) (r : Nat) (x : Region) : (s.setRegion r x).agenda = s.agenda := rfl
@[simp] theorem State.setRegion_draws (s : State) (r : Nat) (x : Region) : (s.setRegion r x).draws = s.draws := rfl
@[simp] theorem State.setRegion_cur (s : State) (r : Nat) (x : Region) : (s.setRegion r x).cur = s.cur := rfl
@[simp] theorem State.setRegion_nextId (s : State) (r : Nat) (x : Region) : (s.setRegion r x).nextId = s.nextId := rfl
@[simp] theorem State.setRegion_panel (s : State) (r : Nat) (x : Region) : (s.setRegion r x).panel = s.panel := rfl
@[simp] theorem State.setRegion_mem (s : State) (r : Nat) (x : Region) : (s.setRegion r x).mem = s.mem := rfl
@[simp] theorem State.setRegion_marks (s : State) (r : Nat) (x : Region) : (s.setRegion r x).marks = s.marks := rfl
@[simp] theorem State.setRegion_vers (s : State) (r : Nat) (x : Region) : (s.setRegion r x).vers = s.vers := rfl
@[simp] theorem State.setRegion_ecc (s : State) (r : Nat) (x : Region) : (s.setRegion r x).ecc = s.ecc := rfl
@[simp] theorem State.setRegion_relCov (s : State) (r : Nat) (x : Region) : (s.setRegion r x).relCov = s.relCov := rfl
@[simp] theorem State.setRegion_elems (s : State) (r : Nat) (x : Region) : (s.setRegion r x).elems = s.elems := rfl
@[simp] theorem State.setRegion_nodes (s : State) (r : Nat) (x : Region) : (s.setRegion r x).nodes = s.nodes := rfl
@[simp] theorem State.setRegion_regions (s : State) (r : Nat) (x : Region) :
    (s.setRegion r x).regions = s.regions.set r x := rfl
@[simp] theorem State.setRegion_dies (s : State) (r : Nat) (x : Region) : (s.setRegion r x).dies = s.dies := rfl
@[simp] theorem State.setRegion_descs (s : State) (r : Nat) (x : Region) : (s.setRegion r x).descs = s.descs := rfl
@[simp] theorem State.setRegion_parts (s : State) (r : Nat) (x : Region) : (s.setRegion r x).parts = s.parts := rfl
@[simp] theorem State.setRegion_vfs (s : State) (r : Nat) (x : Region) : (s.setRegion r x).vfs = s.vfs := rfl
@[simp] theorem State.setRegion_net (s : State) (r : Nat) (x : Region) : (s.setRegion r x).net = s.net := rfl
@[simp] theorem State.setRegion_creds (s : State) (r : Nat) (x : Region) : (s.setRegion r x).creds = s.creds := rfl
@[simp] theorem State.setRegion_bnds (s : State) (r : Nat) (x : Region) : (s.setRegion r x).bnds = s.bnds := rfl
@[simp] theorem State.setRegion_reqs (s : State) (r : Nat) (x : Region) : (s.setRegion r x).reqs = s.reqs := rfl
@[simp] theorem State.setRegion_tileQ (s : State) (r : Nat) (x : Region) : (s.setRegion r x).tileQ = s.tileQ := rfl
@[simp] theorem State.setRegion_jobs (s : State) (r : Nat) (x : Region) : (s.setRegion r x).jobs = s.jobs := rfl
@[simp] theorem State.setRegion_words (s : State) (r : Nat) (x : Region) : (s.setRegion r x).words = s.words := rfl
@[simp] theorem State.setRegion_recs (s : State) (r : Nat) (x : Region) : (s.setRegion r x).recs = s.recs := rfl

/-! modRegion -/

@[simp] theorem State.modRegion_agenda (s : State) (r : Nat) (f : Region → Region) : (s.modRegion r f).agenda = s.agenda := rfl
@[simp] theorem State.modRegion_draws (s : State) (r : Nat) (f : Region → Region) : (s.modRegion r f).draws = s.draws := rfl
@[simp] theorem State.modRegion_cur (s : State) (r : Nat) (f : Region → Region) : (s.modRegion r f).cur = s.cur := rfl
@[simp] theorem State.modRegion_nextId (s : State) (r : Nat) (f : Region → Region) : (s.modRegion r f).nextId = s.nextId := rfl
@[simp] theorem State.modRegion_panel (s : State) (r : Nat) (f : Region → Region) : (s.modRegion r f).panel = s.panel := rfl
@[simp] theorem State.modRegion_mem (s : State) (r : Nat) (f : Region → Region) : (s.modRegion r f).mem = s.mem := rfl
@[simp] theorem State.modRegion_marks (s : State) (r : Nat) (f : Region → Region) : (s.modRegion r f).marks = s.marks := rfl
@[simp] theorem State.modRegion_vers (s : State) (r : Nat) (f : Region → Region) : (s.modRegion r f).vers = s.vers := rfl
@[simp] theorem State.modRegion_ecc (s : State) (r : Nat) (f : Region → Region) : (s.modRegion r f).ecc = s.ecc := rfl
@[simp] theorem State.modRegion_relCov (s : State) (r : Nat) (f : Region → Region) : (s.modRegion r f).relCov = s.relCov := rfl
@[simp] theorem State.modRegion_elems (s : State) (r : Nat) (f : Region → Region) : (s.modRegion r f).elems = s.elems := rfl
@[simp] theorem State.modRegion_nodes (s : State) (r : Nat) (f : Region → Region) : (s.modRegion r f).nodes = s.nodes := rfl
@[simp] theorem State.modRegion_regions (s : State) (r : Nat) (f : Region → Region) :
    (s.modRegion r f).regions = s.regions.set r (f (s.region r)) := rfl
@[simp] theorem State.modRegion_dies (s : State) (r : Nat) (f : Region → Region) : (s.modRegion r f).dies = s.dies := rfl
@[simp] theorem State.modRegion_descs (s : State) (r : Nat) (f : Region → Region) : (s.modRegion r f).descs = s.descs := rfl
@[simp] theorem State.modRegion_parts (s : State) (r : Nat) (f : Region → Region) : (s.modRegion r f).parts = s.parts := rfl
@[simp] theorem State.modRegion_vfs (s : State) (r : Nat) (f : Region → Region) : (s.modRegion r f).vfs = s.vfs := rfl
@[simp] theorem State.modRegion_net (s : State) (r : Nat) (f : Region → Region) : (s.modRegion r f).net = s.net := rfl
@[simp] theorem State.modRegion_creds (s : State) (r : Nat) (f : Region → Region) : (s.modRegion r f).creds = s.creds := rfl
@[simp] theorem State.modRegion_bnds (s : State) (r : Nat) (f : Region → Region) : (s.modRegion r f).bnds = s.bnds := rfl
@[simp] theorem State.modRegion_reqs (s : State) (r : Nat) (f : Region → Region) : (s.modRegion r f).reqs = s.reqs := rfl
@[simp] theorem State.modRegion_tileQ (s : State) (r : Nat) (f : Region → Region) : (s.modRegion r f).tileQ = s.tileQ := rfl
@[simp] theorem State.modRegion_jobs (s : State) (r : Nat) (f : Region → Region) : (s.modRegion r f).jobs = s.jobs := rfl
@[simp] theorem State.modRegion_words (s : State) (r : Nat) (f : Region → Region) : (s.modRegion r f).words = s.words := rfl
@[simp] theorem State.modRegion_recs (s : State) (r : Nat) (f : Region → Region) : (s.modRegion r f).recs = s.recs := rfl

/-! modFrame -/

@[simp] theorem State.modFrame_agenda (s : State) (r n : Nat) (f : Frame → Frame) : (s.modFrame r n f).agenda = s.agenda := rfl
@[simp] theorem State.modFrame_draws (s : State) (r n : Nat) (f : Frame → Frame) : (s.modFrame r n f).draws = s.draws := rfl
@[simp] theorem State.modFrame_cur (s : State) (r n : Nat) (f : Frame → Frame) : (s.modFrame r n f).cur = s.cur := rfl
@[simp] theorem State.modFrame_nextId (s : State) (r n : Nat) (f : Frame → Frame) : (s.modFrame r n f).nextId = s.nextId := rfl
@[simp] theorem State.modFrame_panel (s : State) (r n : Nat) (f : Frame → Frame) : (s.modFrame r n f).panel = s.panel := rfl
@[simp] theorem State.modFrame_mem (s : State) (r n : Nat) (f : Frame → Frame) : (s.modFrame r n f).mem = s.mem := rfl
@[simp] theorem State.modFrame_marks (s : State) (r n : Nat) (f : Frame → Frame) : (s.modFrame r n f).marks = s.marks := rfl
@[simp] theorem State.modFrame_vers (s : State) (r n : Nat) (f : Frame → Frame) : (s.modFrame r n f).vers = s.vers := rfl
@[simp] theorem State.modFrame_ecc (s : State) (r n : Nat) (f : Frame → Frame) : (s.modFrame r n f).ecc = s.ecc := rfl
@[simp] theorem State.modFrame_relCov (s : State) (r n : Nat) (f : Frame → Frame) : (s.modFrame r n f).relCov = s.relCov := rfl
@[simp] theorem State.modFrame_elems (s : State) (r n : Nat) (f : Frame → Frame) : (s.modFrame r n f).elems = s.elems := rfl
@[simp] theorem State.modFrame_nodes (s : State) (r n : Nat) (f : Frame → Frame) : (s.modFrame r n f).nodes = s.nodes := rfl
@[simp] theorem State.modFrame_regions (s : State) (r n : Nat) (f : Frame → Frame) :
    (s.modFrame r n f).regions = s.regions.set r { s.region r with frames := (s.region r).frames.modify n f } := rfl
@[simp] theorem State.modFrame_dies (s : State) (r n : Nat) (f : Frame → Frame) : (s.modFrame r n f).dies = s.dies := rfl
@[simp] theorem State.modFrame_descs (s : State) (r n : Nat) (f : Frame → Frame) : (s.modFrame r n f).descs = s.descs := rfl
@[simp] theorem State.modFrame_parts (s : State) (r n : Nat) (f : Frame → Frame) : (s.modFrame r n f).parts = s.parts := rfl
@[simp] theorem State.modFrame_vfs (s : State) (r n : Nat) (f : Frame → Frame) : (s.modFrame r n f).vfs = s.vfs := rfl
@[simp] theorem State.modFrame_net (s : State) (r n : Nat) (f : Frame → Frame) : (s.modFrame r n f).net = s.net := rfl
@[simp] theorem State.modFrame_creds (s : State) (r n : Nat) (f : Frame → Frame) : (s.modFrame r n f).creds = s.creds := rfl
@[simp] theorem State.modFrame_bnds (s : State) (r n : Nat) (f : Frame → Frame) : (s.modFrame r n f).bnds = s.bnds := rfl
@[simp] theorem State.modFrame_reqs (s : State) (r n : Nat) (f : Frame → Frame) : (s.modFrame r n f).reqs = s.reqs := rfl
@[simp] theorem State.modFrame_tileQ (s : State) (r n : Nat) (f : Frame → Frame) : (s.modFrame r n f).tileQ = s.tileQ := rfl
@[simp] theorem State.modFrame_jobs (s : State) (r n : Nat) (f : Frame → Frame) : (s.modFrame r n f).jobs = s.jobs := rfl
@[simp] theorem State.modFrame_words (s : State) (r n : Nat) (f : Frame → Frame) : (s.modFrame r n f).words = s.words := rfl
@[simp] theorem State.modFrame_recs (s : State) (r n : Nat) (f : Frame → Frame) : (s.modFrame r n f).recs = s.recs := rfl

/-! modDie -/

@[simp] theorem State.modDie_agenda (s : State) (d : Nat) (f : Die → Die) : (s.modDie d f).agenda = s.agenda := rfl
@[simp] theorem State.modDie_draws (s : State) (d : Nat) (f : Die → Die) : (s.modDie d f).draws = s.draws := rfl
@[simp] theorem State.modDie_cur (s : State) (d : Nat) (f : Die → Die) : (s.modDie d f).cur = s.cur := rfl
@[simp] theorem State.modDie_nextId (s : State) (d : Nat) (f : Die → Die) : (s.modDie d f).nextId = s.nextId := rfl
@[simp] theorem State.modDie_panel (s : State) (d : Nat) (f : Die → Die) : (s.modDie d f).panel = s.panel := rfl
@[simp] theorem State.modDie_mem (s : State) (d : Nat) (f : Die → Die) : (s.modDie d f).mem = s.mem := rfl
@[simp] theorem State.modDie_marks (s : State) (d : Nat) (f : Die → Die) : (s.modDie d f).marks = s.marks := rfl
@[simp] theorem State.modDie_vers (s : State) (d : Nat) (f : Die → Die) : (s.modDie d f).vers = s.vers := rfl
@[simp] theorem State.modDie_ecc (s : State) (d : Nat) (f : Die → Die) : (s.modDie d f).ecc = s.ecc := rfl
@[simp] theorem State.modDie_relCov (s : State) (d : Nat) (f : Die → Die) : (s.modDie d f).relCov = s.relCov := rfl
@[simp] theorem State.modDie_elems (s : State) (d : Nat) (f : Die → Die) : (s.modDie d f).elems = s.elems := rfl
@[simp] theorem State.modDie_nodes (s : State) (d : Nat) (f : Die → Die) : (s.modDie d f).nodes = s.nodes := rfl
@[simp] theorem State.modDie_regions (s : State) (d : Nat) (f : Die → Die) : (s.modDie d f).regions = s.regions := rfl
@[simp] theorem State.modDie_dies (s : State) (d : Nat) (f : Die → Die) :
    (s.modDie d f).dies = s.dies.set d (f (s.die d)) := rfl
@[simp] theorem State.modDie_descs (s : State) (d : Nat) (f : Die → Die) : (s.modDie d f).descs = s.descs := rfl
@[simp] theorem State.modDie_parts (s : State) (d : Nat) (f : Die → Die) : (s.modDie d f).parts = s.parts := rfl
@[simp] theorem State.modDie_vfs (s : State) (d : Nat) (f : Die → Die) : (s.modDie d f).vfs = s.vfs := rfl
@[simp] theorem State.modDie_net (s : State) (d : Nat) (f : Die → Die) : (s.modDie d f).net = s.net := rfl
@[simp] theorem State.modDie_creds (s : State) (d : Nat) (f : Die → Die) : (s.modDie d f).creds = s.creds := rfl
@[simp] theorem State.modDie_bnds (s : State) (d : Nat) (f : Die → Die) : (s.modDie d f).bnds = s.bnds := rfl
@[simp] theorem State.modDie_reqs (s : State) (d : Nat) (f : Die → Die) : (s.modDie d f).reqs = s.reqs := rfl
@[simp] theorem State.modDie_tileQ (s : State) (d : Nat) (f : Die → Die) : (s.modDie d f).tileQ = s.tileQ := rfl
@[simp] theorem State.modDie_jobs (s : State) (d : Nat) (f : Die → Die) : (s.modDie d f).jobs = s.jobs := rfl
@[simp] theorem State.modDie_words (s : State) (d : Nat) (f : Die → Die) : (s.modDie d f).words = s.words := rfl
@[simp] theorem State.modDie_recs (s : State) (d : Nat) (f : Die → Die) : (s.modDie d f).recs = s.recs := rfl

/-! modPart -/

@[simp] theorem State.modPart_agenda (s : State) (p : Nat) (f : Part → Part) : (s.modPart p f).agenda = s.agenda := rfl
@[simp] theorem State.modPart_draws (s : State) (p : Nat) (f : Part → Part) : (s.modPart p f).draws = s.draws := rfl
@[simp] theorem State.modPart_cur (s : State) (p : Nat) (f : Part → Part) : (s.modPart p f).cur = s.cur := rfl
@[simp] theorem State.modPart_nextId (s : State) (p : Nat) (f : Part → Part) : (s.modPart p f).nextId = s.nextId := rfl
@[simp] theorem State.modPart_panel (s : State) (p : Nat) (f : Part → Part) : (s.modPart p f).panel = s.panel := rfl
@[simp] theorem State.modPart_mem (s : State) (p : Nat) (f : Part → Part) : (s.modPart p f).mem = s.mem := rfl
@[simp] theorem State.modPart_marks (s : State) (p : Nat) (f : Part → Part) : (s.modPart p f).marks = s.marks := rfl
@[simp] theorem State.modPart_vers (s : State) (p : Nat) (f : Part → Part) : (s.modPart p f).vers = s.vers := rfl
@[simp] theorem State.modPart_ecc (s : State) (p : Nat) (f : Part → Part) : (s.modPart p f).ecc = s.ecc := rfl
@[simp] theorem State.modPart_relCov (s : State) (p : Nat) (f : Part → Part) : (s.modPart p f).relCov = s.relCov := rfl
@[simp] theorem State.modPart_elems (s : State) (p : Nat) (f : Part → Part) : (s.modPart p f).elems = s.elems := rfl
@[simp] theorem State.modPart_nodes (s : State) (p : Nat) (f : Part → Part) : (s.modPart p f).nodes = s.nodes := rfl
@[simp] theorem State.modPart_regions (s : State) (p : Nat) (f : Part → Part) : (s.modPart p f).regions = s.regions := rfl
@[simp] theorem State.modPart_dies (s : State) (p : Nat) (f : Part → Part) : (s.modPart p f).dies = s.dies := rfl
@[simp] theorem State.modPart_descs (s : State) (p : Nat) (f : Part → Part) : (s.modPart p f).descs = s.descs := rfl
@[simp] theorem State.modPart_parts (s : State) (p : Nat) (f : Part → Part) :
    (s.modPart p f).parts = s.parts.set p (f (s.part p)) := rfl
@[simp] theorem State.modPart_vfs (s : State) (p : Nat) (f : Part → Part) : (s.modPart p f).vfs = s.vfs := rfl
@[simp] theorem State.modPart_net (s : State) (p : Nat) (f : Part → Part) : (s.modPart p f).net = s.net := rfl
@[simp] theorem State.modPart_creds (s : State) (p : Nat) (f : Part → Part) : (s.modPart p f).creds = s.creds := rfl
@[simp] theorem State.modPart_bnds (s : State) (p : Nat) (f : Part → Part) : (s.modPart p f).bnds = s.bnds := rfl
@[simp] theorem State.modPart_reqs (s : State) (p : Nat) (f : Part → Part) : (s.modPart p f).reqs = s.reqs := rfl
@[simp] theorem State.modPart_tileQ (s : State) (p : Nat) (f : Part → Part) : (s.modPart p f).tileQ = s.tileQ := rfl
@[simp] theorem State.modPart_jobs (s : State) (p : Nat) (f : Part → Part) : (s.modPart p f).jobs = s.jobs := rfl
@[simp] theorem State.modPart_words (s : State) (p : Nat) (f : Part → Part) : (s.modPart p f).words = s.words := rfl
@[simp] theorem State.modPart_recs (s : State) (p : Nat) (f : Part → Part) : (s.modPart p f).recs = s.recs := rfl

/-! modVf -/

@[simp] theorem State.modVf_agenda (s : State) (v : Nat) (f : Vf → Vf) : (s.modVf v f).agenda = s.agenda := rfl
@[simp] theorem State.modVf_draws (s : State) (v : Nat) (f : Vf → Vf) : (s.modVf v f).draws = s.draws := rfl
@[simp] theorem State.modVf_cur (s : State) (v : Nat) (f : Vf → Vf) : (s.modVf v f).cur = s.cur := rfl
@[simp] theorem State.modVf_nextId (s : State) (v : Nat) (f : Vf → Vf) : (s.modVf v f).nextId = s.nextId := rfl
@[simp] theorem State.modVf_panel (s : State) (v : Nat) (f : Vf → Vf) : (s.modVf v f).panel = s.panel := rfl
@[simp] theorem State.modVf_mem (s : State) (v : Nat) (f : Vf → Vf) : (s.modVf v f).mem = s.mem := rfl
@[simp] theorem State.modVf_marks (s : State) (v : Nat) (f : Vf → Vf) : (s.modVf v f).marks = s.marks := rfl
@[simp] theorem State.modVf_vers (s : State) (v : Nat) (f : Vf → Vf) : (s.modVf v f).vers = s.vers := rfl
@[simp] theorem State.modVf_ecc (s : State) (v : Nat) (f : Vf → Vf) : (s.modVf v f).ecc = s.ecc := rfl
@[simp] theorem State.modVf_relCov (s : State) (v : Nat) (f : Vf → Vf) : (s.modVf v f).relCov = s.relCov := rfl
@[simp] theorem State.modVf_elems (s : State) (v : Nat) (f : Vf → Vf) : (s.modVf v f).elems = s.elems := rfl
@[simp] theorem State.modVf_nodes (s : State) (v : Nat) (f : Vf → Vf) : (s.modVf v f).nodes = s.nodes := rfl
@[simp] theorem State.modVf_regions (s : State) (v : Nat) (f : Vf → Vf) : (s.modVf v f).regions = s.regions := rfl
@[simp] theorem State.modVf_dies (s : State) (v : Nat) (f : Vf → Vf) : (s.modVf v f).dies = s.dies := rfl
@[simp] theorem State.modVf_descs (s : State) (v : Nat) (f : Vf → Vf) : (s.modVf v f).descs = s.descs := rfl
@[simp] theorem State.modVf_parts (s : State) (v : Nat) (f : Vf → Vf) : (s.modVf v f).parts = s.parts := rfl
@[simp] theorem State.modVf_vfs (s : State) (v : Nat) (f : Vf → Vf) : (s.modVf v f).vfs = s.vfs.set v (f (s.vf v)) := rfl
@[simp] theorem State.modVf_net (s : State) (v : Nat) (f : Vf → Vf) : (s.modVf v f).net = s.net := rfl
@[simp] theorem State.modVf_creds (s : State) (v : Nat) (f : Vf → Vf) : (s.modVf v f).creds = s.creds := rfl
@[simp] theorem State.modVf_bnds (s : State) (v : Nat) (f : Vf → Vf) : (s.modVf v f).bnds = s.bnds := rfl
@[simp] theorem State.modVf_reqs (s : State) (v : Nat) (f : Vf → Vf) : (s.modVf v f).reqs = s.reqs := rfl
@[simp] theorem State.modVf_tileQ (s : State) (v : Nat) (f : Vf → Vf) : (s.modVf v f).tileQ = s.tileQ := rfl
@[simp] theorem State.modVf_jobs (s : State) (v : Nat) (f : Vf → Vf) : (s.modVf v f).jobs = s.jobs := rfl
@[simp] theorem State.modVf_words (s : State) (v : Nat) (f : Vf → Vf) : (s.modVf v f).words = s.words := rfl
@[simp] theorem State.modVf_recs (s : State) (v : Nat) (f : Vf → Vf) : (s.modVf v f).recs = s.recs := rfl

/-! modRoot -/

@[simp] theorem State.modRoot_agenda (s : State) (f : Root → Root) : (s.modRoot f).agenda = s.agenda := rfl
@[simp] theorem State.modRoot_draws (s : State) (f : Root → Root) : (s.modRoot f).draws = s.draws := rfl
@[simp] theorem State.modRoot_cur (s : State) (f : Root → Root) : (s.modRoot f).cur = s.cur := rfl
@[simp] theorem State.modRoot_nextId (s : State) (f : Root → Root) : (s.modRoot f).nextId = s.nextId := rfl
@[simp] theorem State.modRoot_panel (s : State) (f : Root → Root) :
    (s.modRoot f).panel = { s.panel with root := f s.panel.root } := rfl
@[simp] theorem State.modRoot_mem (s : State) (f : Root → Root) : (s.modRoot f).mem = s.mem := rfl
@[simp] theorem State.modRoot_marks (s : State) (f : Root → Root) : (s.modRoot f).marks = s.marks := rfl
@[simp] theorem State.modRoot_vers (s : State) (f : Root → Root) : (s.modRoot f).vers = s.vers := rfl
@[simp] theorem State.modRoot_ecc (s : State) (f : Root → Root) : (s.modRoot f).ecc = s.ecc := rfl
@[simp] theorem State.modRoot_relCov (s : State) (f : Root → Root) : (s.modRoot f).relCov = s.relCov := rfl
@[simp] theorem State.modRoot_elems (s : State) (f : Root → Root) : (s.modRoot f).elems = s.elems := rfl
@[simp] theorem State.modRoot_nodes (s : State) (f : Root → Root) : (s.modRoot f).nodes = s.nodes := rfl
@[simp] theorem State.modRoot_regions (s : State) (f : Root → Root) : (s.modRoot f).regions = s.regions := rfl
@[simp] theorem State.modRoot_dies (s : State) (f : Root → Root) : (s.modRoot f).dies = s.dies := rfl
@[simp] theorem State.modRoot_descs (s : State) (f : Root → Root) : (s.modRoot f).descs = s.descs := rfl
@[simp] theorem State.modRoot_parts (s : State) (f : Root → Root) : (s.modRoot f).parts = s.parts := rfl
@[simp] theorem State.modRoot_vfs (s : State) (f : Root → Root) : (s.modRoot f).vfs = s.vfs := rfl
@[simp] theorem State.modRoot_net (s : State) (f : Root → Root) : (s.modRoot f).net = s.net := rfl
@[simp] theorem State.modRoot_creds (s : State) (f : Root → Root) : (s.modRoot f).creds = s.creds := rfl
@[simp] theorem State.modRoot_bnds (s : State) (f : Root → Root) : (s.modRoot f).bnds = s.bnds := rfl
@[simp] theorem State.modRoot_reqs (s : State) (f : Root → Root) : (s.modRoot f).reqs = s.reqs := rfl
@[simp] theorem State.modRoot_tileQ (s : State) (f : Root → Root) : (s.modRoot f).tileQ = s.tileQ := rfl
@[simp] theorem State.modRoot_jobs (s : State) (f : Root → Root) : (s.modRoot f).jobs = s.jobs := rfl
@[simp] theorem State.modRoot_words (s : State) (f : Root → Root) : (s.modRoot f).words = s.words := rfl
@[simp] theorem State.modRoot_recs (s : State) (f : Root → Root) : (s.modRoot f).recs = s.recs := rfl

/-! modIdent -/

@[simp] theorem State.modIdent_agenda (s : State) (k : Nat) (f : Identity → Identity) :
    (s.modIdent k f).agenda = s.agenda := rfl
@[simp] theorem State.modIdent_draws (s : State) (k : Nat) (f : Identity → Identity) : (s.modIdent k f).draws = s.draws := rfl
@[simp] theorem State.modIdent_cur (s : State) (k : Nat) (f : Identity → Identity) : (s.modIdent k f).cur = s.cur := rfl
@[simp] theorem State.modIdent_nextId (s : State) (k : Nat) (f : Identity → Identity) :
    (s.modIdent k f).nextId = s.nextId := rfl
@[simp] theorem State.modIdent_panel (s : State) (k : Nat) (f : Identity → Identity) :
    (s.modIdent k f).panel = { s.panel with ids := s.panel.ids.set k (f (s.ident k)) } := rfl
@[simp] theorem State.modIdent_mem (s : State) (k : Nat) (f : Identity → Identity) : (s.modIdent k f).mem = s.mem := rfl
@[simp] theorem State.modIdent_marks (s : State) (k : Nat) (f : Identity → Identity) : (s.modIdent k f).marks = s.marks := rfl
@[simp] theorem State.modIdent_vers (s : State) (k : Nat) (f : Identity → Identity) : (s.modIdent k f).vers = s.vers := rfl
@[simp] theorem State.modIdent_ecc (s : State) (k : Nat) (f : Identity → Identity) : (s.modIdent k f).ecc = s.ecc := rfl
@[simp] theorem State.modIdent_relCov (s : State) (k : Nat) (f : Identity → Identity) :
    (s.modIdent k f).relCov = s.relCov := rfl
@[simp] theorem State.modIdent_elems (s : State) (k : Nat) (f : Identity → Identity) : (s.modIdent k f).elems = s.elems := rfl
@[simp] theorem State.modIdent_nodes (s : State) (k : Nat) (f : Identity → Identity) : (s.modIdent k f).nodes = s.nodes := rfl
@[simp] theorem State.modIdent_regions (s : State) (k : Nat) (f : Identity → Identity) :
    (s.modIdent k f).regions = s.regions := rfl
@[simp] theorem State.modIdent_dies (s : State) (k : Nat) (f : Identity → Identity) : (s.modIdent k f).dies = s.dies := rfl
@[simp] theorem State.modIdent_descs (s : State) (k : Nat) (f : Identity → Identity) : (s.modIdent k f).descs = s.descs := rfl
@[simp] theorem State.modIdent_parts (s : State) (k : Nat) (f : Identity → Identity) : (s.modIdent k f).parts = s.parts := rfl
@[simp] theorem State.modIdent_vfs (s : State) (k : Nat) (f : Identity → Identity) : (s.modIdent k f).vfs = s.vfs := rfl
@[simp] theorem State.modIdent_net (s : State) (k : Nat) (f : Identity → Identity) : (s.modIdent k f).net = s.net := rfl
@[simp] theorem State.modIdent_creds (s : State) (k : Nat) (f : Identity → Identity) : (s.modIdent k f).creds = s.creds := rfl
@[simp] theorem State.modIdent_bnds (s : State) (k : Nat) (f : Identity → Identity) : (s.modIdent k f).bnds = s.bnds := rfl
@[simp] theorem State.modIdent_reqs (s : State) (k : Nat) (f : Identity → Identity) : (s.modIdent k f).reqs = s.reqs := rfl
@[simp] theorem State.modIdent_tileQ (s : State) (k : Nat) (f : Identity → Identity) : (s.modIdent k f).tileQ = s.tileQ := rfl
@[simp] theorem State.modIdent_jobs (s : State) (k : Nat) (f : Identity → Identity) : (s.modIdent k f).jobs = s.jobs := rfl
@[simp] theorem State.modIdent_words (s : State) (k : Nat) (f : Identity → Identity) : (s.modIdent k f).words = s.words := rfl
@[simp] theorem State.modIdent_recs (s : State) (k : Nat) (f : Identity → Identity) : (s.modIdent k f).recs = s.recs := rfl

/-! modSlot -/

@[simp] theorem State.modSlot_agenda (s : State) (e n : Nat) (f : SlotSt → SlotSt) : (s.modSlot e n f).agenda = s.agenda := rfl
@[simp] theorem State.modSlot_draws (s : State) (e n : Nat) (f : SlotSt → SlotSt) : (s.modSlot e n f).draws = s.draws := rfl
@[simp] theorem State.modSlot_cur (s : State) (e n : Nat) (f : SlotSt → SlotSt) : (s.modSlot e n f).cur = s.cur := rfl
@[simp] theorem State.modSlot_nextId (s : State) (e n : Nat) (f : SlotSt → SlotSt) : (s.modSlot e n f).nextId = s.nextId := rfl
@[simp] theorem State.modSlot_panel (s : State) (e n : Nat) (f : SlotSt → SlotSt) : (s.modSlot e n f).panel = s.panel := rfl
@[simp] theorem State.modSlot_mem (s : State) (e n : Nat) (f : SlotSt → SlotSt) : (s.modSlot e n f).mem = s.mem := rfl
@[simp] theorem State.modSlot_marks (s : State) (e n : Nat) (f : SlotSt → SlotSt) : (s.modSlot e n f).marks = s.marks := rfl
@[simp] theorem State.modSlot_vers (s : State) (e n : Nat) (f : SlotSt → SlotSt) : (s.modSlot e n f).vers = s.vers := rfl
@[simp] theorem State.modSlot_ecc (s : State) (e n : Nat) (f : SlotSt → SlotSt) : (s.modSlot e n f).ecc = s.ecc := rfl
@[simp] theorem State.modSlot_relCov (s : State) (e n : Nat) (f : SlotSt → SlotSt) : (s.modSlot e n f).relCov = s.relCov := rfl
@[simp] theorem State.modSlot_elems (s : State) (e n : Nat) (f : SlotSt → SlotSt) :
    (s.modSlot e n f).elems = s.elems.set e { s.elem e with slots := (s.elem e).slots.modify n f } := rfl
@[simp] theorem State.modSlot_nodes (s : State) (e n : Nat) (f : SlotSt → SlotSt) : (s.modSlot e n f).nodes = s.nodes := rfl
@[simp] theorem State.modSlot_regions (s : State) (e n : Nat) (f : SlotSt → SlotSt) :
    (s.modSlot e n f).regions = s.regions := rfl
@[simp] theorem State.modSlot_dies (s : State) (e n : Nat) (f : SlotSt → SlotSt) : (s.modSlot e n f).dies = s.dies := rfl
@[simp] theorem State.modSlot_descs (s : State) (e n : Nat) (f : SlotSt → SlotSt) : (s.modSlot e n f).descs = s.descs := rfl
@[simp] theorem State.modSlot_parts (s : State) (e n : Nat) (f : SlotSt → SlotSt) : (s.modSlot e n f).parts = s.parts := rfl
@[simp] theorem State.modSlot_vfs (s : State) (e n : Nat) (f : SlotSt → SlotSt) : (s.modSlot e n f).vfs = s.vfs := rfl
@[simp] theorem State.modSlot_net (s : State) (e n : Nat) (f : SlotSt → SlotSt) : (s.modSlot e n f).net = s.net := rfl
@[simp] theorem State.modSlot_creds (s : State) (e n : Nat) (f : SlotSt → SlotSt) : (s.modSlot e n f).creds = s.creds := rfl
@[simp] theorem State.modSlot_bnds (s : State) (e n : Nat) (f : SlotSt → SlotSt) : (s.modSlot e n f).bnds = s.bnds := rfl
@[simp] theorem State.modSlot_reqs (s : State) (e n : Nat) (f : SlotSt → SlotSt) : (s.modSlot e n f).reqs = s.reqs := rfl
@[simp] theorem State.modSlot_tileQ (s : State) (e n : Nat) (f : SlotSt → SlotSt) : (s.modSlot e n f).tileQ = s.tileQ := rfl
@[simp] theorem State.modSlot_jobs (s : State) (e n : Nat) (f : SlotSt → SlotSt) : (s.modSlot e n f).jobs = s.jobs := rfl
@[simp] theorem State.modSlot_words (s : State) (e n : Nat) (f : SlotSt → SlotSt) : (s.modSlot e n f).words = s.words := rfl
@[simp] theorem State.modSlot_recs (s : State) (e n : Nat) (f : SlotSt → SlotSt) : (s.modSlot e n f).recs = s.recs := rfl

/-! modLaunch -/

@[simp] theorem State.modLaunch_agenda (s : State) (p n : Nat) (f : Launch → Launch) :
    (s.modLaunch p n f).agenda = s.agenda := rfl
@[simp] theorem State.modLaunch_draws (s : State) (p n : Nat) (f : Launch → Launch) : (s.modLaunch p n f).draws = s.draws := rfl
@[simp] theorem State.modLaunch_cur (s : State) (p n : Nat) (f : Launch → Launch) : (s.modLaunch p n f).cur = s.cur := rfl
@[simp] theorem State.modLaunch_nextId (s : State) (p n : Nat) (f : Launch → Launch) :
    (s.modLaunch p n f).nextId = s.nextId := rfl
@[simp] theorem State.modLaunch_panel (s : State) (p n : Nat) (f : Launch → Launch) : (s.modLaunch p n f).panel = s.panel := rfl
@[simp] theorem State.modLaunch_mem (s : State) (p n : Nat) (f : Launch → Launch) : (s.modLaunch p n f).mem = s.mem := rfl
@[simp] theorem State.modLaunch_marks (s : State) (p n : Nat) (f : Launch → Launch) : (s.modLaunch p n f).marks = s.marks := rfl
@[simp] theorem State.modLaunch_vers (s : State) (p n : Nat) (f : Launch → Launch) : (s.modLaunch p n f).vers = s.vers := rfl
@[simp] theorem State.modLaunch_ecc (s : State) (p n : Nat) (f : Launch → Launch) : (s.modLaunch p n f).ecc = s.ecc := rfl
@[simp] theorem State.modLaunch_relCov (s : State) (p n : Nat) (f : Launch → Launch) :
    (s.modLaunch p n f).relCov = s.relCov := rfl
@[simp] theorem State.modLaunch_elems (s : State) (p n : Nat) (f : Launch → Launch) : (s.modLaunch p n f).elems = s.elems := rfl
@[simp] theorem State.modLaunch_nodes (s : State) (p n : Nat) (f : Launch → Launch) : (s.modLaunch p n f).nodes = s.nodes := rfl
@[simp] theorem State.modLaunch_regions (s : State) (p n : Nat) (f : Launch → Launch) :
    (s.modLaunch p n f).regions = s.regions := rfl
@[simp] theorem State.modLaunch_dies (s : State) (p n : Nat) (f : Launch → Launch) : (s.modLaunch p n f).dies = s.dies := rfl
@[simp] theorem State.modLaunch_descs (s : State) (p n : Nat) (f : Launch → Launch) : (s.modLaunch p n f).descs = s.descs := rfl
@[simp] theorem State.modLaunch_parts (s : State) (p n : Nat) (f : Launch → Launch) :
    (s.modLaunch p n f).parts = s.parts.set p { s.part p with launches := (s.part p).launches.map (fun l => if l.lnch == n then f l else l) } := rfl
@[simp] theorem State.modLaunch_vfs (s : State) (p n : Nat) (f : Launch → Launch) : (s.modLaunch p n f).vfs = s.vfs := rfl
@[simp] theorem State.modLaunch_net (s : State) (p n : Nat) (f : Launch → Launch) : (s.modLaunch p n f).net = s.net := rfl
@[simp] theorem State.modLaunch_creds (s : State) (p n : Nat) (f : Launch → Launch) : (s.modLaunch p n f).creds = s.creds := rfl
@[simp] theorem State.modLaunch_bnds (s : State) (p n : Nat) (f : Launch → Launch) : (s.modLaunch p n f).bnds = s.bnds := rfl
@[simp] theorem State.modLaunch_reqs (s : State) (p n : Nat) (f : Launch → Launch) : (s.modLaunch p n f).reqs = s.reqs := rfl
@[simp] theorem State.modLaunch_tileQ (s : State) (p n : Nat) (f : Launch → Launch) : (s.modLaunch p n f).tileQ = s.tileQ := rfl
@[simp] theorem State.modLaunch_jobs (s : State) (p n : Nat) (f : Launch → Launch) : (s.modLaunch p n f).jobs = s.jobs := rfl
@[simp] theorem State.modLaunch_words (s : State) (p n : Nat) (f : Launch → Launch) : (s.modLaunch p n f).words = s.words := rfl
@[simp] theorem State.modLaunch_recs (s : State) (p n : Nat) (f : Launch → Launch) : (s.modLaunch p n f).recs = s.recs := rfl

/-! drawn -/

@[simp] theorem State.drawn_agenda (s : State) : (s.drawn).agenda = s.agenda := rfl
@[simp] theorem State.drawn_draws (s : State) : (s.drawn).draws = s.draws + 1 := rfl
@[simp] theorem State.drawn_cur (s : State) : (s.drawn).cur = s.cur := rfl
@[simp] theorem State.drawn_nextId (s : State) : (s.drawn).nextId = s.nextId := rfl
@[simp] theorem State.drawn_panel (s : State) : (s.drawn).panel = s.panel := rfl
@[simp] theorem State.drawn_mem (s : State) : (s.drawn).mem = s.mem := rfl
@[simp] theorem State.drawn_marks (s : State) : (s.drawn).marks = s.marks := rfl
@[simp] theorem State.drawn_vers (s : State) : (s.drawn).vers = s.vers := rfl
@[simp] theorem State.drawn_ecc (s : State) : (s.drawn).ecc = s.ecc := rfl
@[simp] theorem State.drawn_relCov (s : State) : (s.drawn).relCov = s.relCov := rfl
@[simp] theorem State.drawn_elems (s : State) : (s.drawn).elems = s.elems := rfl
@[simp] theorem State.drawn_nodes (s : State) : (s.drawn).nodes = s.nodes := rfl
@[simp] theorem State.drawn_regions (s : State) : (s.drawn).regions = s.regions := rfl
@[simp] theorem State.drawn_dies (s : State) : (s.drawn).dies = s.dies := rfl
@[simp] theorem State.drawn_descs (s : State) : (s.drawn).descs = s.descs := rfl
@[simp] theorem State.drawn_parts (s : State) : (s.drawn).parts = s.parts := rfl
@[simp] theorem State.drawn_vfs (s : State) : (s.drawn).vfs = s.vfs := rfl
@[simp] theorem State.drawn_net (s : State) : (s.drawn).net = s.net := rfl
@[simp] theorem State.drawn_creds (s : State) : (s.drawn).creds = s.creds := rfl
@[simp] theorem State.drawn_bnds (s : State) : (s.drawn).bnds = s.bnds := rfl
@[simp] theorem State.drawn_reqs (s : State) : (s.drawn).reqs = s.reqs := rfl
@[simp] theorem State.drawn_tileQ (s : State) : (s.drawn).tileQ = s.tileQ := rfl
@[simp] theorem State.drawn_jobs (s : State) : (s.drawn).jobs = s.jobs := rfl
@[simp] theorem State.drawn_words (s : State) : (s.drawn).words = s.words := rfl
@[simp] theorem State.drawn_recs (s : State) : (s.drawn).recs = s.recs := rfl

/-! fresh -/

@[simp] theorem State.fresh_agenda (s : State) : (s.fresh).agenda = s.agenda := rfl
@[simp] theorem State.fresh_draws (s : State) : (s.fresh).draws = s.draws := rfl
@[simp] theorem State.fresh_cur (s : State) : (s.fresh).cur = s.cur := rfl
@[simp] theorem State.fresh_nextId (s : State) : (s.fresh).nextId = s.nextId + 1 := rfl
@[simp] theorem State.fresh_panel (s : State) : (s.fresh).panel = s.panel := rfl
@[simp] theorem State.fresh_mem (s : State) : (s.fresh).mem = s.mem := rfl
@[simp] theorem State.fresh_marks (s : State) : (s.fresh).marks = s.marks := rfl
@[simp] theorem State.fresh_vers (s : State) : (s.fresh).vers = s.vers := rfl
@[simp] theorem State.fresh_ecc (s : State) : (s.fresh).ecc = s.ecc := rfl
@[simp] theorem State.fresh_relCov (s : State) : (s.fresh).relCov = s.relCov := rfl
@[simp] theorem State.fresh_elems (s : State) : (s.fresh).elems = s.elems := rfl
@[simp] theorem State.fresh_nodes (s : State) : (s.fresh).nodes = s.nodes := rfl
@[simp] theorem State.fresh_regions (s : State) : (s.fresh).regions = s.regions := rfl
@[simp] theorem State.fresh_dies (s : State) : (s.fresh).dies = s.dies := rfl
@[simp] theorem State.fresh_descs (s : State) : (s.fresh).descs = s.descs := rfl
@[simp] theorem State.fresh_parts (s : State) : (s.fresh).parts = s.parts := rfl
@[simp] theorem State.fresh_vfs (s : State) : (s.fresh).vfs = s.vfs := rfl
@[simp] theorem State.fresh_net (s : State) : (s.fresh).net = s.net := rfl
@[simp] theorem State.fresh_creds (s : State) : (s.fresh).creds = s.creds := rfl
@[simp] theorem State.fresh_bnds (s : State) : (s.fresh).bnds = s.bnds := rfl
@[simp] theorem State.fresh_reqs (s : State) : (s.fresh).reqs = s.reqs := rfl
@[simp] theorem State.fresh_tileQ (s : State) : (s.fresh).tileQ = s.tileQ := rfl
@[simp] theorem State.fresh_jobs (s : State) : (s.fresh).jobs = s.jobs := rfl
@[simp] theorem State.fresh_words (s : State) : (s.fresh).words = s.words := rfl
@[simp] theorem State.fresh_recs (s : State) : (s.fresh).recs = s.recs := rfl

/-! write -/

@[simp] theorem State.write_agenda (s : State) (a : Nat) (bs : List Byte) : (s.write a bs).agenda = s.agenda := rfl
@[simp] theorem State.write_draws (s : State) (a : Nat) (bs : List Byte) : (s.write a bs).draws = s.draws := rfl
@[simp] theorem State.write_cur (s : State) (a : Nat) (bs : List Byte) : (s.write a bs).cur = s.cur := rfl
@[simp] theorem State.write_nextId (s : State) (a : Nat) (bs : List Byte) : (s.write a bs).nextId = s.nextId := rfl
@[simp] theorem State.write_panel (s : State) (a : Nat) (bs : List Byte) : (s.write a bs).panel = s.panel := rfl
@[simp] theorem State.write_mem (s : State) (a : Nat) (bs : List Byte) : (s.write a bs).mem = memPut s.mem a bs := rfl
@[simp] theorem State.write_marks (s : State) (a : Nat) (bs : List Byte) : (s.write a bs).marks = s.marks := rfl
@[simp] theorem State.write_vers (s : State) (a : Nat) (bs : List Byte) : (s.write a bs).vers = s.vers := rfl
@[simp] theorem State.write_ecc (s : State) (a : Nat) (bs : List Byte) : (s.write a bs).ecc = s.ecc := rfl
@[simp] theorem State.write_relCov (s : State) (a : Nat) (bs : List Byte) : (s.write a bs).relCov = s.relCov := rfl
@[simp] theorem State.write_elems (s : State) (a : Nat) (bs : List Byte) : (s.write a bs).elems = s.elems := rfl
@[simp] theorem State.write_nodes (s : State) (a : Nat) (bs : List Byte) : (s.write a bs).nodes = s.nodes := rfl
@[simp] theorem State.write_regions (s : State) (a : Nat) (bs : List Byte) : (s.write a bs).regions = s.regions := rfl
@[simp] theorem State.write_dies (s : State) (a : Nat) (bs : List Byte) : (s.write a bs).dies = s.dies := rfl
@[simp] theorem State.write_descs (s : State) (a : Nat) (bs : List Byte) : (s.write a bs).descs = s.descs := rfl
@[simp] theorem State.write_parts (s : State) (a : Nat) (bs : List Byte) : (s.write a bs).parts = s.parts := rfl
@[simp] theorem State.write_vfs (s : State) (a : Nat) (bs : List Byte) : (s.write a bs).vfs = s.vfs := rfl
@[simp] theorem State.write_net (s : State) (a : Nat) (bs : List Byte) : (s.write a bs).net = s.net := rfl
@[simp] theorem State.write_creds (s : State) (a : Nat) (bs : List Byte) : (s.write a bs).creds = s.creds := rfl
@[simp] theorem State.write_bnds (s : State) (a : Nat) (bs : List Byte) : (s.write a bs).bnds = s.bnds := rfl
@[simp] theorem State.write_reqs (s : State) (a : Nat) (bs : List Byte) : (s.write a bs).reqs = s.reqs := rfl
@[simp] theorem State.write_tileQ (s : State) (a : Nat) (bs : List Byte) : (s.write a bs).tileQ = s.tileQ := rfl
@[simp] theorem State.write_jobs (s : State) (a : Nat) (bs : List Byte) : (s.write a bs).jobs = s.jobs := rfl
@[simp] theorem State.write_words (s : State) (a : Nat) (bs : List Byte) : (s.write a bs).words = s.words := rfl
@[simp] theorem State.write_recs (s : State) (a : Nat) (bs : List Byte) : (s.write a bs).recs = s.recs := rfl

/-! emit -/

@[simp] theorem State.emit_agenda (s : State) (m : HostMsg) : (s.emit m).agenda = s.agenda := rfl
@[simp] theorem State.emit_draws (s : State) (m : HostMsg) : (s.emit m).draws = s.draws := rfl
@[simp] theorem State.emit_cur (s : State) (m : HostMsg) : (s.emit m).cur = s.cur := rfl
@[simp] theorem State.emit_nextId (s : State) (m : HostMsg) : (s.emit m).nextId = s.nextId := rfl
@[simp] theorem State.emit_panel (s : State) (m : HostMsg) :
    (s.emit m).panel = { s.panel with hostOut := s.panel.hostOut ++ [m] } := rfl
@[simp] theorem State.emit_mem (s : State) (m : HostMsg) : (s.emit m).mem = s.mem := rfl
@[simp] theorem State.emit_marks (s : State) (m : HostMsg) : (s.emit m).marks = s.marks := rfl
@[simp] theorem State.emit_vers (s : State) (m : HostMsg) : (s.emit m).vers = s.vers := rfl
@[simp] theorem State.emit_ecc (s : State) (m : HostMsg) : (s.emit m).ecc = s.ecc := rfl
@[simp] theorem State.emit_relCov (s : State) (m : HostMsg) : (s.emit m).relCov = s.relCov := rfl
@[simp] theorem State.emit_elems (s : State) (m : HostMsg) : (s.emit m).elems = s.elems := rfl
@[simp] theorem State.emit_nodes (s : State) (m : HostMsg) : (s.emit m).nodes = s.nodes := rfl
@[simp] theorem State.emit_regions (s : State) (m : HostMsg) : (s.emit m).regions = s.regions := rfl
@[simp] theorem State.emit_dies (s : State) (m : HostMsg) : (s.emit m).dies = s.dies := rfl
@[simp] theorem State.emit_descs (s : State) (m : HostMsg) : (s.emit m).descs = s.descs := rfl
@[simp] theorem State.emit_parts (s : State) (m : HostMsg) : (s.emit m).parts = s.parts := rfl
@[simp] theorem State.emit_vfs (s : State) (m : HostMsg) : (s.emit m).vfs = s.vfs := rfl
@[simp] theorem State.emit_net (s : State) (m : HostMsg) : (s.emit m).net = s.net := rfl
@[simp] theorem State.emit_creds (s : State) (m : HostMsg) : (s.emit m).creds = s.creds := rfl
@[simp] theorem State.emit_bnds (s : State) (m : HostMsg) : (s.emit m).bnds = s.bnds := rfl
@[simp] theorem State.emit_reqs (s : State) (m : HostMsg) : (s.emit m).reqs = s.reqs := rfl
@[simp] theorem State.emit_tileQ (s : State) (m : HostMsg) : (s.emit m).tileQ = s.tileQ := rfl
@[simp] theorem State.emit_jobs (s : State) (m : HostMsg) : (s.emit m).jobs = s.jobs := rfl
@[simp] theorem State.emit_words (s : State) (m : HostMsg) : (s.emit m).words = s.words := rfl
@[simp] theorem State.emit_recs (s : State) (m : HostMsg) : (s.emit m).recs = s.recs := rfl

/-! Tables read after an update. -/

@[simp] theorem State.setElem_read_region (s : State) (e : Nat) (x : Elem) (k' : Nat) :
    (s.setElem e x).region k' = s.region k' := rfl
@[simp] theorem State.setElem_read_die (s : State) (e : Nat) (x : Elem) (k' : Nat) :
    (s.setElem e x).die k' = s.die k' := rfl
@[simp] theorem State.setElem_read_part (s : State) (e : Nat) (x : Elem) (k' : Nat) :
    (s.setElem e x).part k' = s.part k' := rfl
@[simp] theorem State.setElem_read_vf (s : State) (e : Nat) (x : Elem) (k' : Nat) :
    (s.setElem e x).vf k' = s.vf k' := rfl
@[simp] theorem State.setElem_read_ident (s : State) (e : Nat) (x : Elem) (k' : Nat) :
    (s.setElem e x).ident k' = s.ident k' := rfl
@[simp] theorem State.modElem_read_region (s : State) (e : Nat) (f : Elem → Elem) (k' : Nat) :
    (s.modElem e f).region k' = s.region k' := rfl
@[simp] theorem State.modElem_read_die (s : State) (e : Nat) (f : Elem → Elem) (k' : Nat) :
    (s.modElem e f).die k' = s.die k' := rfl
@[simp] theorem State.modElem_read_part (s : State) (e : Nat) (f : Elem → Elem) (k' : Nat) :
    (s.modElem e f).part k' = s.part k' := rfl
@[simp] theorem State.modElem_read_vf (s : State) (e : Nat) (f : Elem → Elem) (k' : Nat) :
    (s.modElem e f).vf k' = s.vf k' := rfl
@[simp] theorem State.modElem_read_ident (s : State) (e : Nat) (f : Elem → Elem) (k' : Nat) :
    (s.modElem e f).ident k' = s.ident k' := rfl
@[simp] theorem State.setRegion_read_elem (s : State) (r : Nat) (x : Region) (k' : Nat) :
    (s.setRegion r x).elem k' = s.elem k' := rfl
@[simp] theorem State.setRegion_read_die (s : State) (r : Nat) (x : Region) (k' : Nat) :
    (s.setRegion r x).die k' = s.die k' := rfl
@[simp] theorem State.setRegion_read_part (s : State) (r : Nat) (x : Region) (k' : Nat) :
    (s.setRegion r x).part k' = s.part k' := rfl
@[simp] theorem State.setRegion_read_vf (s : State) (r : Nat) (x : Region) (k' : Nat) :
    (s.setRegion r x).vf k' = s.vf k' := rfl
@[simp] theorem State.setRegion_read_ident (s : State) (r : Nat) (x : Region) (k' : Nat) :
    (s.setRegion r x).ident k' = s.ident k' := rfl
@[simp] theorem State.modRegion_read_elem (s : State) (r : Nat) (f : Region → Region) (k' : Nat) :
    (s.modRegion r f).elem k' = s.elem k' := rfl
@[simp] theorem State.modRegion_read_die (s : State) (r : Nat) (f : Region → Region) (k' : Nat) :
    (s.modRegion r f).die k' = s.die k' := rfl
@[simp] theorem State.modRegion_read_part (s : State) (r : Nat) (f : Region → Region) (k' : Nat) :
    (s.modRegion r f).part k' = s.part k' := rfl
@[simp] theorem State.modRegion_read_vf (s : State) (r : Nat) (f : Region → Region) (k' : Nat) :
    (s.modRegion r f).vf k' = s.vf k' := rfl
@[simp] theorem State.modRegion_read_ident (s : State) (r : Nat) (f : Region → Region) (k' : Nat) :
    (s.modRegion r f).ident k' = s.ident k' := rfl
@[simp] theorem State.modFrame_read_elem (s : State) (r n : Nat) (f : Frame → Frame) (k' : Nat) :
    (s.modFrame r n f).elem k' = s.elem k' := rfl
@[simp] theorem State.modFrame_read_die (s : State) (r n : Nat) (f : Frame → Frame) (k' : Nat) :
    (s.modFrame r n f).die k' = s.die k' := rfl
@[simp] theorem State.modFrame_read_part (s : State) (r n : Nat) (f : Frame → Frame) (k' : Nat) :
    (s.modFrame r n f).part k' = s.part k' := rfl
@[simp] theorem State.modFrame_read_vf (s : State) (r n : Nat) (f : Frame → Frame) (k' : Nat) :
    (s.modFrame r n f).vf k' = s.vf k' := rfl
@[simp] theorem State.modFrame_read_ident (s : State) (r n : Nat) (f : Frame → Frame) (k' : Nat) :
    (s.modFrame r n f).ident k' = s.ident k' := rfl
@[simp] theorem State.modDie_read_elem (s : State) (d : Nat) (f : Die → Die) (k' : Nat) :
    (s.modDie d f).elem k' = s.elem k' := rfl
@[simp] theorem State.modDie_read_region (s : State) (d : Nat) (f : Die → Die) (k' : Nat) :
    (s.modDie d f).region k' = s.region k' := rfl
@[simp] theorem State.modDie_read_part (s : State) (d : Nat) (f : Die → Die) (k' : Nat) :
    (s.modDie d f).part k' = s.part k' := rfl
@[simp] theorem State.modDie_read_vf (s : State) (d : Nat) (f : Die → Die) (k' : Nat) :
    (s.modDie d f).vf k' = s.vf k' := rfl
@[simp] theorem State.modDie_read_ident (s : State) (d : Nat) (f : Die → Die) (k' : Nat) :
    (s.modDie d f).ident k' = s.ident k' := rfl
@[simp] theorem State.modPart_read_elem (s : State) (p : Nat) (f : Part → Part) (k' : Nat) :
    (s.modPart p f).elem k' = s.elem k' := rfl
@[simp] theorem State.modPart_read_region (s : State) (p : Nat) (f : Part → Part) (k' : Nat) :
    (s.modPart p f).region k' = s.region k' := rfl
@[simp] theorem State.modPart_read_die (s : State) (p : Nat) (f : Part → Part) (k' : Nat) :
    (s.modPart p f).die k' = s.die k' := rfl
@[simp] theorem State.modPart_read_vf (s : State) (p : Nat) (f : Part → Part) (k' : Nat) :
    (s.modPart p f).vf k' = s.vf k' := rfl
@[simp] theorem State.modPart_read_ident (s : State) (p : Nat) (f : Part → Part) (k' : Nat) :
    (s.modPart p f).ident k' = s.ident k' := rfl
@[simp] theorem State.modVf_read_elem (s : State) (v : Nat) (f : Vf → Vf) (k' : Nat) :
    (s.modVf v f).elem k' = s.elem k' := rfl
@[simp] theorem State.modVf_read_region (s : State) (v : Nat) (f : Vf → Vf) (k' : Nat) :
    (s.modVf v f).region k' = s.region k' := rfl
@[simp] theorem State.modVf_read_die (s : State) (v : Nat) (f : Vf → Vf) (k' : Nat) :
    (s.modVf v f).die k' = s.die k' := rfl
@[simp] theorem State.modVf_read_part (s : State) (v : Nat) (f : Vf → Vf) (k' : Nat) :
    (s.modVf v f).part k' = s.part k' := rfl
@[simp] theorem State.modVf_read_ident (s : State) (v : Nat) (f : Vf → Vf) (k' : Nat) :
    (s.modVf v f).ident k' = s.ident k' := rfl
@[simp] theorem State.modRoot_read_elem (s : State) (f : Root → Root) (k' : Nat) :
    (s.modRoot f).elem k' = s.elem k' := rfl
@[simp] theorem State.modRoot_read_region (s : State) (f : Root → Root) (k' : Nat) :
    (s.modRoot f).region k' = s.region k' := rfl
@[simp] theorem State.modRoot_read_die (s : State) (f : Root → Root) (k' : Nat) :
    (s.modRoot f).die k' = s.die k' := rfl
@[simp] theorem State.modRoot_read_part (s : State) (f : Root → Root) (k' : Nat) :
    (s.modRoot f).part k' = s.part k' := rfl
@[simp] theorem State.modRoot_read_vf (s : State) (f : Root → Root) (k' : Nat) :
    (s.modRoot f).vf k' = s.vf k' := rfl
@[simp] theorem State.modIdent_read_elem (s : State) (k : Nat) (f : Identity → Identity) (k' : Nat) :
    (s.modIdent k f).elem k' = s.elem k' := rfl
@[simp] theorem State.modIdent_read_region (s : State) (k : Nat) (f : Identity → Identity) (k' : Nat) :
    (s.modIdent k f).region k' = s.region k' := rfl
@[simp] theorem State.modIdent_read_die (s : State) (k : Nat) (f : Identity → Identity) (k' : Nat) :
    (s.modIdent k f).die k' = s.die k' := rfl
@[simp] theorem State.modIdent_read_part (s : State) (k : Nat) (f : Identity → Identity) (k' : Nat) :
    (s.modIdent k f).part k' = s.part k' := rfl
@[simp] theorem State.modIdent_read_vf (s : State) (k : Nat) (f : Identity → Identity) (k' : Nat) :
    (s.modIdent k f).vf k' = s.vf k' := rfl
@[simp] theorem State.modSlot_read_region (s : State) (e n : Nat) (f : SlotSt → SlotSt) (k' : Nat) :
    (s.modSlot e n f).region k' = s.region k' := rfl
@[simp] theorem State.modSlot_read_die (s : State) (e n : Nat) (f : SlotSt → SlotSt) (k' : Nat) :
    (s.modSlot e n f).die k' = s.die k' := rfl
@[simp] theorem State.modSlot_read_part (s : State) (e n : Nat) (f : SlotSt → SlotSt) (k' : Nat) :
    (s.modSlot e n f).part k' = s.part k' := rfl
@[simp] theorem State.modSlot_read_vf (s : State) (e n : Nat) (f : SlotSt → SlotSt) (k' : Nat) :
    (s.modSlot e n f).vf k' = s.vf k' := rfl
@[simp] theorem State.modSlot_read_ident (s : State) (e n : Nat) (f : SlotSt → SlotSt) (k' : Nat) :
    (s.modSlot e n f).ident k' = s.ident k' := rfl
@[simp] theorem State.modLaunch_read_elem (s : State) (p n : Nat) (f : Launch → Launch) (k' : Nat) :
    (s.modLaunch p n f).elem k' = s.elem k' := rfl
@[simp] theorem State.modLaunch_read_region (s : State) (p n : Nat) (f : Launch → Launch) (k' : Nat) :
    (s.modLaunch p n f).region k' = s.region k' := rfl
@[simp] theorem State.modLaunch_read_die (s : State) (p n : Nat) (f : Launch → Launch) (k' : Nat) :
    (s.modLaunch p n f).die k' = s.die k' := rfl
@[simp] theorem State.modLaunch_read_vf (s : State) (p n : Nat) (f : Launch → Launch) (k' : Nat) :
    (s.modLaunch p n f).vf k' = s.vf k' := rfl
@[simp] theorem State.modLaunch_read_ident (s : State) (p n : Nat) (f : Launch → Launch) (k' : Nat) :
    (s.modLaunch p n f).ident k' = s.ident k' := rfl
@[simp] theorem State.drawn_read_elem (s : State) (k' : Nat) :
    (s.drawn).elem k' = s.elem k' := rfl
@[simp] theorem State.drawn_read_region (s : State) (k' : Nat) :
    (s.drawn).region k' = s.region k' := rfl
@[simp] theorem State.drawn_read_die (s : State) (k' : Nat) :
    (s.drawn).die k' = s.die k' := rfl
@[simp] theorem State.drawn_read_part (s : State) (k' : Nat) :
    (s.drawn).part k' = s.part k' := rfl
@[simp] theorem State.drawn_read_vf (s : State) (k' : Nat) :
    (s.drawn).vf k' = s.vf k' := rfl
@[simp] theorem State.drawn_read_ident (s : State) (k' : Nat) :
    (s.drawn).ident k' = s.ident k' := rfl
@[simp] theorem State.fresh_read_elem (s : State) (k' : Nat) :
    (s.fresh).elem k' = s.elem k' := rfl
@[simp] theorem State.fresh_read_region (s : State) (k' : Nat) :
    (s.fresh).region k' = s.region k' := rfl
@[simp] theorem State.fresh_read_die (s : State) (k' : Nat) :
    (s.fresh).die k' = s.die k' := rfl
@[simp] theorem State.fresh_read_part (s : State) (k' : Nat) :
    (s.fresh).part k' = s.part k' := rfl
@[simp] theorem State.fresh_read_vf (s : State) (k' : Nat) :
    (s.fresh).vf k' = s.vf k' := rfl
@[simp] theorem State.fresh_read_ident (s : State) (k' : Nat) :
    (s.fresh).ident k' = s.ident k' := rfl
@[simp] theorem State.write_read_elem (s : State) (a : Nat) (bs : List Byte) (k' : Nat) :
    (s.write a bs).elem k' = s.elem k' := rfl
@[simp] theorem State.write_read_region (s : State) (a : Nat) (bs : List Byte) (k' : Nat) :
    (s.write a bs).region k' = s.region k' := rfl
@[simp] theorem State.write_read_die (s : State) (a : Nat) (bs : List Byte) (k' : Nat) :
    (s.write a bs).die k' = s.die k' := rfl
@[simp] theorem State.write_read_part (s : State) (a : Nat) (bs : List Byte) (k' : Nat) :
    (s.write a bs).part k' = s.part k' := rfl
@[simp] theorem State.write_read_vf (s : State) (a : Nat) (bs : List Byte) (k' : Nat) :
    (s.write a bs).vf k' = s.vf k' := rfl
@[simp] theorem State.write_read_ident (s : State) (a : Nat) (bs : List Byte) (k' : Nat) :
    (s.write a bs).ident k' = s.ident k' := rfl
@[simp] theorem State.emit_read_elem (s : State) (m : HostMsg) (k' : Nat) :
    (s.emit m).elem k' = s.elem k' := rfl
@[simp] theorem State.emit_read_region (s : State) (m : HostMsg) (k' : Nat) :
    (s.emit m).region k' = s.region k' := rfl
@[simp] theorem State.emit_read_die (s : State) (m : HostMsg) (k' : Nat) :
    (s.emit m).die k' = s.die k' := rfl
@[simp] theorem State.emit_read_part (s : State) (m : HostMsg) (k' : Nat) :
    (s.emit m).part k' = s.part k' := rfl
@[simp] theorem State.emit_read_vf (s : State) (m : HostMsg) (k' : Nat) :
    (s.emit m).vf k' = s.vf k' := rfl

theorem State.elem_modElem (s : State) (e j : Nat) (f : Elem → Elem) :
    (s.modElem e f).elem j = if j = e then f (s.elem e) else s.elem j := PMap.get_set _ _ _ _
@[simp] theorem State.elem_modElem_same (s : State) (e : Nat) (f : Elem → Elem) :
    (s.modElem e f).elem e = f (s.elem e) := PMap.get_set_same _ _ _
theorem State.elem_modElem_ne (s : State) {e j : Nat} (f : Elem → Elem) (h : j ≠ e) :
    (s.modElem e f).elem j = s.elem j := PMap.get_set_ne _ _ h
theorem State.region_modRegion (s : State) (e j : Nat) (f : Region → Region) :
    (s.modRegion e f).region j = if j = e then f (s.region e) else s.region j := PMap.get_set _ _ _ _
@[simp] theorem State.region_modRegion_same (s : State) (e : Nat) (f : Region → Region) :
    (s.modRegion e f).region e = f (s.region e) := PMap.get_set_same _ _ _
theorem State.region_modRegion_ne (s : State) {e j : Nat} (f : Region → Region) (h : j ≠ e) :
    (s.modRegion e f).region j = s.region j := PMap.get_set_ne _ _ h
theorem State.die_modDie (s : State) (e j : Nat) (f : Die → Die) :
    (s.modDie e f).die j = if j = e then f (s.die e) else s.die j := PMap.get_set _ _ _ _
@[simp] theorem State.die_modDie_same (s : State) (e : Nat) (f : Die → Die) :
    (s.modDie e f).die e = f (s.die e) := PMap.get_set_same _ _ _
theorem State.die_modDie_ne (s : State) {e j : Nat} (f : Die → Die) (h : j ≠ e) :
    (s.modDie e f).die j = s.die j := PMap.get_set_ne _ _ h
theorem State.part_modPart (s : State) (e j : Nat) (f : Part → Part) :
    (s.modPart e f).part j = if j = e then f (s.part e) else s.part j := PMap.get_set _ _ _ _
@[simp] theorem State.part_modPart_same (s : State) (e : Nat) (f : Part → Part) :
    (s.modPart e f).part e = f (s.part e) := PMap.get_set_same _ _ _
theorem State.part_modPart_ne (s : State) {e j : Nat} (f : Part → Part) (h : j ≠ e) :
    (s.modPart e f).part j = s.part j := PMap.get_set_ne _ _ h
theorem State.vf_modVf (s : State) (e j : Nat) (f : Vf → Vf) :
    (s.modVf e f).vf j = if j = e then f (s.vf e) else s.vf j := PMap.get_set _ _ _ _
@[simp] theorem State.vf_modVf_same (s : State) (e : Nat) (f : Vf → Vf) :
    (s.modVf e f).vf e = f (s.vf e) := PMap.get_set_same _ _ _
theorem State.vf_modVf_ne (s : State) {e j : Nat} (f : Vf → Vf) (h : j ≠ e) :
    (s.modVf e f).vf j = s.vf j := PMap.get_set_ne _ _ h
theorem State.ident_modIdent (s : State) (e j : Nat) (f : Identity → Identity) :
    (s.modIdent e f).ident j = if j = e then f (s.ident e) else s.ident j := PMap.get_set _ _ _ _
@[simp] theorem State.ident_modIdent_same (s : State) (e : Nat) (f : Identity → Identity) :
    (s.modIdent e f).ident e = f (s.ident e) := PMap.get_set_same _ _ _
theorem State.ident_modIdent_ne (s : State) {e j : Nat} (f : Identity → Identity) (h : j ≠ e) :
    (s.modIdent e f).ident j = s.ident j := PMap.get_set_ne _ _ h
theorem State.elem_setElem (s : State) (e j : Nat) (x : Elem) :
    (s.setElem e x).elem j = if j = e then x else s.elem j := PMap.get_set _ _ _ _
@[simp] theorem State.elem_setElem_same (s : State) (e : Nat) (x : Elem) : (s.setElem e x).elem e = x := PMap.get_set_same _ _ _
theorem State.elem_setElem_ne (s : State) {e j : Nat} (x : Elem) (h : j ≠ e) : (s.setElem e x).elem j = s.elem j :=
  PMap.get_set_ne _ _ h

end Sys2Proof.Machine
end

