-- ==== Sys2Proof/Laws/Memory.lean ====
section
/-! SUPPORT. Laws of memory: a read after a write, and that every memory operation keeps the canonical form. -/

namespace Sys2Proof.Machine

/-- A byte read after a write of bytes: the written byte within them, what stood there elsewhere. -/
theorem memByte_memPut (bs : List Byte) : ∀ (m : List Host.Cell) (a k : Nat),
    memByte (memPut m a bs) k = if a ≤ k ∧ k < a + bs.length then bs.getD (k - a) 0 else memByte m k := by
  induction bs with
  | nil =>
    intro m a k
    have : ¬ (a ≤ k ∧ k < a + ([] : List Byte).length) := by simp
    rw [if_neg this]; rfl
  | cons b bs ih =>
    intro m a k
    rw [memPut, ih]
    simp only [memByte, List.length_cons, PMap.get_set]
    by_cases h : k = a
    · subst h
      have h1 : ¬ (k + 1 ≤ k ∧ k < k + 1 + bs.length) := by omega
      have h2 : k ≤ k ∧ k < k + (bs.length + 1) := by omega
      rw [if_neg h1, if_pos h2, if_pos rfl]
      simp
    · rw [if_neg h]
      by_cases h1 : a + 1 ≤ k ∧ k < a + 1 + bs.length
      · have h2 : a ≤ k ∧ k < a + (bs.length + 1) := by omega
        rw [if_pos h1, if_pos h2]
        obtain ⟨j, rfl⟩ : ∃ j, k = a + 1 + j := ⟨k - (a + 1), by omega⟩
        have e1 : a + 1 + j - (a + 1) = j := by omega
        have e2 : a + 1 + j - a = j + 1 := by omega
        rw [e1, e2]; rfl
      · have h2 : ¬ (a ≤ k ∧ k < a + (bs.length + 1)) := by omega
        rw [if_neg h1, if_neg h2]

/-- A byte outside what a write covers keeps its value. -/
theorem memByte_memPut_outside (m : List Host.Cell) (a k : Nat) (bs : List Byte) (h : k < a ∨ a + bs.length ≤ k) :
    memByte (memPut m a bs) k = memByte m k := by
  rw [memByte_memPut, if_neg (by omega)]

/-- The bytes written are the bytes read back. -/
theorem memBytes_memPut (m : List Host.Cell) (a : Nat) (bs : List Byte) : memBytes (memPut m a bs) a bs.length = bs := by
  apply List.ext_getElem
  · simp [memBytes]
  · intro i h1 h2
    simp only [memBytes, List.getElem_map, List.getElem_range, memByte_memPut]
    rw [if_pos (by omega)]
    simp [h2]

/-- A write of bytes keeps the canonical form. -/
theorem memPut_wf (bs : List Byte) : ∀ (m : List Host.Cell) (a : Nat), Memory.wf m = true → Memory.wf (memPut m a bs) = true := by
  induction bs with
  | nil => intro m a h; exact h
  | cons b bs ih => intro m a h; exact ih _ _ (PMap.wf_set m a b h)

/-- Bytes taken out of memory keep the canonical form. -/
theorem Memory.wf_filter (m : List Host.Cell) (p : Host.Cell → Bool) (h : Memory.wf m = true) :
    Memory.wf (m.filter p) = true := PMap.wf_filter m p h

theorem State.write_inv (s : State) (a : Nat) (bs : List Byte) (h : s.Inv) : (s.write a bs).Inv := memPut_wf bs _ a h

/-- A write at a home, and into the frame that its page is being moved to, keeps the canonical form. -/
theorem State.putHome_inv (s : State) (a : Nat) (bs : List Byte) (h : s.Inv) : (s.putHome a bs).Inv := by
  unfold State.putHome
  split
  · exact State.write_inv _ _ _ (State.write_inv _ _ _ h)
  · exact State.write_inv _ _ _ h

/-- A scrub of a range keeps the canonical form. -/
theorem State.zeroRange_inv (s : State) (lo hi : Nat) (h : s.Inv) : (s.zeroRange lo hi).Inv := Memory.wf_filter _ _ h

/-- A state that has another's memory is as canonical as it. -/
theorem State.inv_of_mem {s t : State} (hm : t.mem = s.mem) (h : s.Inv) : t.Inv := by
  unfold State.Inv at *; rw [hm]; exact h

/-- A fold of steps that each keep the canonical form keeps it. -/
theorem State.foldl_inv {β : Type} (g : State → β → State) (hg : ∀ s x, s.Inv → (g s x).Inv) (l : List β) :
    ∀ s : State, s.Inv → (l.foldl g s).Inv := by
  induction l with
  | nil => intro s h; exact h
  | cons x l ih => intro s h; exact ih _ (hg s x h)

/-- A fold of steps that leave memory alone leaves it alone. -/
theorem State.foldl_mem {β : Type} (g : State → β → State) (hg : ∀ s x, (g s x).mem = s.mem) (l : List β) :
    ∀ s : State, (l.foldl g s).mem = s.mem := by
  induction l with
  | nil => intro s; rfl
  | cons x l ih => intro s; exact (ih _).trans (hg s x)

/-- Memory is in canonical form after reset. -/
theorem State.reset_mem_wf : Memory.wf State.reset.mem = true := rfl

end Sys2Proof.Machine
end

