-- ==== Sys2Proof/Laws/Frames.lean ====
section
/-! SUPPORT. Memory across the shared operations: each either leaves memory as it is (the law ends in `_mem`), or keeps its canonical
form (`_wf`). A meaning's step is a chain of these. -/

namespace Sys2Proof.Machine

@[simp] theorem State.write_wf (s : State) (a : Nat) (bs : List Byte) (h : Memory.wf s.mem = true) :
    Memory.wf (s.write a bs).mem = true := State.write_inv s a bs h
@[simp] theorem State.touch_mem (s : State) (r : Nat) : (s.touch r).mem = s.mem := by
  unfold State.touch
  repeat' split
  all_goals first | rfl | simp
@[simp] theorem State.freezePart_mem (s : State) (pid : Nat) (cause : Nat) (fcode : Nat) : (s.freezePart pid cause fcode).mem = s.mem := rfl
@[simp] theorem State.report_mem (s : State) (die : Nat) (x : Record) : (s.report die x).mem = s.mem := rfl
@[simp] theorem State.stormMark_mem (s : State) (die : Nat) (pid : Nat) : (s.stormMark die pid).mem = s.mem := by unfold State.stormMark; split <;> simp
@[simp] theorem State.policy_mem (s : State) (pid : Nat) (lnch : Nat) (c : FCode) : (s.policy pid lnch c).mem = s.mem := rfl
@[simp] theorem State.remirror_mem (s : State) : (s.remirror).mem = s.mem := rfl
@[simp] theorem State.alert_mem (s : State) (die vf code : Nat) : (s.alert die vf code).mem = s.mem := by
  unfold State.alert
  exact State.foldl_mem _ (fun s x => by rfl) _ _
@[simp] theorem State.clearElems_mem (s : State) (r : Nat) : (s.clearElems r).mem = s.mem := rfl
@[simp] theorem State.freeDescs_mem (s : State) : (s.freeDescs).mem = s.mem := rfl
@[simp] theorem State.clearEngines_mem (s : State) (r : Nat) : (s.clearEngines r).mem = s.mem := rfl
@[simp] theorem State.endSteward_mem (s : State) (d status fcode : Nat) (rec : Option Record) :
    (s.endSteward d status fcode rec).mem = s.mem := by
  unfold State.endSteward
  split
  · rfl
  · simp only [State.emit_mem, State.modDie_mem, State.freeDescs_mem, State.modRegion_mem, State.clearEngines_mem, State.clearElems_mem]
@[simp] theorem State.raiseAt_mem (s : State) (c : FCode) (r : Nat) (x : Record) : (s.raiseAt c r x).mem = s.mem := by
  unfold State.raiseAt
  repeat' split
  all_goals first | rfl | simp
@[simp] theorem State.raiseElem_mem (s : State) (c : FCode) (e : Nat) (x : Record) : (s.raiseElem c e x).mem = s.mem := by unfold State.raiseElem; split <;> simp
@[simp] theorem State.raiseSlot_mem (s : State) (c : FCode) (e : Nat) (n : Nat) : (s.raiseSlot c e n).mem = s.mem := by simp [State.raiseSlot]
@[simp] theorem State.raiseAccess_mem (s : State) (c : FCode) (e : Nat) (n : Nat) (va : Nat) : (s.raiseAccess c e n va).mem = s.mem := by simp [State.raiseAccess]
@[simp] theorem State.raiseTrap_mem (s : State) (e : Nat) (n : Nat) (detail : Nat) : (s.raiseTrap e n detail).mem = s.mem := by unfold State.raiseTrap; split <;> simp
@[simp] theorem State.thawPart_mem (s : State) (pid : Nat) : (s.thawPart pid).mem = s.mem := rfl
@[simp] theorem State.thawElem_mem (s : State) (e : Nat) : (s.thawElem e).mem = s.mem := rfl
@[simp] theorem State.sendEntry_mem (s : State) (e : Nat) (n : Nat) (frm : Nat) (t : Nat) (p : Packet) : (s.sendEntry e n frm t p).mem = s.mem := by
  unfold State.sendEntry
  dsimp only
  repeat' split
  all_goals first | rfl | simp
@[simp] theorem State.modOut_mem (s : State) (e : Nat) (c : Nat) (f : OutCh → OutCh) : (s.modOut e c f).mem = s.mem := rfl
@[simp] theorem State.toDt_mem (s : State) (e : Nat) (n : Nat) (frm : Nat) (dt : BitVec 4) (p : Packet) : (s.toDt e n frm dt p).mem = s.mem := by
  unfold State.toDt
  dsimp only
  repeat' split
  all_goals first | rfl | simp
@[simp] theorem State.toTt_mem (s : State) (e : Nat) (n : Nat) (frm : Nat) (tt : BitVec 4) (p : Packet) : (s.toTt e n frm tt p).mem = s.mem := by unfold State.toTt; split <;> simp
@[simp] theorem State.deliver_mem (s : State) (e : Nat) (n : Nat) (frm : Nat) (dt : BitVec 4) (tt : BitVec 4) (p : Packet) : (s.deliver e n frm dt tt p).mem = s.mem := by simp [State.deliver]
@[simp] theorem State.reserve_mem (s : State) (e : Nat) (dt : BitVec 4) (tt : BitVec 4) : (s.reserve e dt tt).mem = s.mem := rfl
@[simp] theorem State.freeEntries_mem (s : State) (t : Ret) : (s.freeEntries t).mem = s.mem := rfl
@[simp] theorem State.release_mem (s : State) (t : Ret) : (s.release t).mem = s.mem := by unfold State.release; split <;> simp
@[simp] theorem State.fulfil_mem (s : State) (t : Ret) (p : Packet) : (s.fulfil t p).mem = s.mem := by unfold State.fulfil; split <;> simp
@[simp] theorem State.answer_mem (s : State) (t : Ret) (p : Packet) : (s.answer t p).mem = s.mem := by simp [State.answer]
@[simp] theorem State.trigger_mem (s : State) (e : Nat) (n : Nat) (o : Slot) (chans : BitVec 4) : (s.trigger e n o chans).mem = s.mem := by
  unfold State.trigger
  dsimp only
  repeat' split
  all_goals first | rfl | simp
@[simp] theorem State.send_mem (s : State) (e n frm : Nat) (o : Slot) (a : Act) : (s.send e n frm o a).mem = s.mem := by
  have h (cov : List Nat) : (a.queue.foldl (fun s p => s.toDt e n frm o.dt { p with cov := cov }) s).mem = s.mem :=
    State.foldl_mem _ (fun s x => by simp) _ _
  unfold State.send
  dsimp only
  split
  · simp [h]
  · split <;> simp [h]
  · simp [h]
@[simp] theorem State.complete_mem (s : State) (e : Nat) (n : Nat) (o : Slot) (a : Act) : (s.complete e n o a).mem = s.mem := by simp [State.complete]
@[simp] theorem State.modBnd_mem (s : State) (r : Nat) (f : Nat) (b : Nat) (g : Binding → Binding) : (s.modBnd r f b g).mem = s.mem := rfl
@[simp] theorem State.setRing_mem (s : State) (r : Nat) (f : Nat) (b : Nat) (x : Ring) : (s.setRing r f b x).mem = s.mem := by unfold State.setRing; split <;> simp
@[simp] theorem State.moveReq_mem (s : State) (i : Nat) (q : Req) : (s.moveReq i q).mem = s.mem := rfl
@[simp] theorem State.setReq_mem (s : State) (i : Nat) (q : Req) : (s.setReq i q).mem = s.mem := rfl
@[simp] theorem State.dropReq_mem (s : State) (i : Nat) : (s.dropReq i).mem = s.mem := rfl
@[simp] theorem State.putLines_mem (s : State) (r : Nat) (a : Nat) (bs : List Byte) : (s.putLines r a bs).mem = s.mem := by unfold State.putLines; split <;> simp
@[simp] theorem State.dropLines_mem (s : State) (r : Nat) : (s.dropLines r).mem = s.mem := rfl
@[simp] theorem State.saw_mem (s : State) (e : Nat) (ids : List Nat) : (s.saw e ids).mem = s.mem := by unfold State.saw; split <;> simp
@[simp] theorem State.setCov_mem (s : State) (a : Nat) (n : Nat) (ids : List Nat) : (s.setCov a n ids).mem = s.mem := rfl
@[simp] theorem State.armBinding_mem (s : State) (r : Nat) (b : Binding) : (s.armBinding r b).mem = s.mem := by
  unfold State.armBinding
  repeat' split
  all_goals first | rfl | simp
@[simp] theorem State.armBlock_mem (s : State) (r frm soff : Nat) (h : Header) (ps : List Plan) (extra : List (Target × Packet)) :
    (s.armBlock r frm soff h ps extra).mem = s.mem := by
  unfold State.armBlock
  simp only [State.modRegion_mem]
  refine (State.foldl_mem _ (fun s x => by simp) _ _).trans ((State.foldl_mem _ (fun s x => by simp) _ _).trans
    (State.foldl_mem _ (fun s x => ?_) _ _))
  split <;> simp
@[simp] theorem State.seqFault_mem (s : State) (c : FCode) (r : Nat) (soff : Nat) (frm : Nat) (va : Option Nat) : (s.seqFault c r soff frm va).mem = s.mem := by simp [State.seqFault]
@[simp] theorem State.takeFrame_mem (s : State) (r : Nat) (frm : Nat) (soff : Nat) : (s.takeFrame r frm soff).mem = s.mem := rfl
@[simp] theorem State.dropFrame_mem (s : State) (r : Nat) (frm : Nat) : (s.dropFrame r frm).mem = s.mem := rfl
@[simp] theorem State.request_mem (s : State) (e : Nat) (n : Nat) (o : Slot) (hdr : Packet) (covers : Bool) (q : Req) : (s.request e n o hdr covers q).mem = s.mem := by unfold State.request; split <;> simp
@[simp] theorem State.noteSync_mem (s : State) (r : Nat) (va : Nat) : (s.noteSync r va).mem = s.mem := by unfold State.noteSync; split <;> simp
@[simp] theorem State.prefetch_mem (s : State) (e : Nat) (va : Nat) : (s.prefetch e va).mem = s.mem := by
  unfold State.prefetch
  dsimp only
  repeat' split
  all_goals first | rfl | simp
@[simp] theorem State.modStream_mem (s : State) (panel : Nat) (n : Nat) (f : Stream → Stream) : (s.modStream panel n f).mem = s.mem := rfl
@[simp] theorem State.trlsControl_mem (s : State) (panel : Nat) (n : Nat) (op : Nat) (psn : Nat) : (s.trlsControl panel n op psn).mem = s.mem := rfl
@[simp] theorem State.modStreams_mem (s : State) (panel : Nat) (f : Stream → Stream) : (s.modStreams panel f).mem = s.mem := by
  unfold State.modStreams
  exact State.foldl_mem _ (fun s x => by simp) _ _
@[simp] theorem State.nextTx_mem (s : State) (panel : Nat) : (s.nextTx panel).mem = s.mem := rfl
@[simp] theorem State.rollKeys_mem (s : State) (panel : Nat) : (s.rollKeys panel).mem = s.mem := by
  unfold State.rollKeys
  exact (State.modStreams_mem _ _ _).trans ((State.nextTx_mem _ _).trans (State.trlsControl_mem _ _ _ _ _))
@[simp] theorem State.trlsEmit_mem (s : State) (panel n : Nat) (bs : List Byte) : (s.trlsEmit panel n bs).mem = s.mem := by
  simp only [State.trlsEmit, State.emit_mem]
@[simp] theorem State.trlsSendOn_mem (s : State) (panel n op g : Nat) (payload : List Byte) :
    (s.trlsSendOn panel n op g payload).mem = s.mem := by
  unfold State.trlsSendOn
  simp only [State.trlsEmit_mem, State.modStream_mem]
  split
  · exact State.rollKeys_mem _ _
  · rfl
@[simp] theorem State.trlsSend_mem (s : State) (op : Nat) (g : Nat) (payload : List Byte) : (s.trlsSend op g payload).mem = s.mem := by simp [State.trlsSend]
@[simp] theorem State.sendRemote_mem (s : State) (q : Req) : (s.sendRemote q).mem = s.mem := by simp [State.sendRemote]
@[simp] theorem State.putHome_wf (s : State) (a : Nat) (bs : List Byte) (h : Memory.wf s.mem = true) :
    Memory.wf (s.putHome a bs).mem = true := State.putHome_inv s a bs h
@[simp] theorem State.putMark_mem (s : State) (a : Nat) (b : Bool) : (s.putMark a b).mem = s.mem := rfl
@[simp] theorem State.putAny_wf (s : State) (vf tag g a : Nat) (bs : List Byte) (h : Memory.wf s.mem = true) :
    Memory.wf (s.putAny vf tag g a bs).mem = true := by
  unfold State.putAny; split <;> simp [h]
@[simp] theorem State.storeAt_wf (s : State) (v : BView) (e n : Nat) (o : Slot) (k off : Nat) (ls : List Lane) (ring : Ring) (p : Packet)
    (h : Memory.wf s.mem = true) : Memory.wf (s.storeAt v e n o k off ls ring p).mem = true := by
  unfold State.storeAt
  dsimp only
  split
  · rw [State.complete_mem, State.setCov_mem]; exact State.write_wf _ _ _ (by simp [h])
  · simp [h]
@[simp] theorem State.postLines_mem (s : State) (q : Req) : (s.postLines q).mem = s.mem := by
  unfold State.postLines
  split
  · simp
  · split <;> simp
@[simp] theorem State.tileRequest_mem (s : State) (e : Nat) (n : Nat) (o : Slot) (hdr : Packet) (v : BView) (q : TileReq) : (s.tileRequest e n o hdr v q).mem = s.mem := rfl
@[simp] theorem State.tileFault_mem (s : State) (e : Nat) (n : Nat) (o : Slot) (c : FCode) : (s.tileFault e n o c).mem = s.mem := rfl
@[simp] theorem State.fillTlb_mem (s : State) (r : Nat) (t : Option TlbEnt) : (s.fillTlb r t).mem = s.mem := by unfold State.fillTlb; split <;> simp
@[simp] theorem State.leave_mem (s : State) (q : Req) : (s.leave q).mem = s.mem := by
  unfold State.leave
  dsimp only
  repeat' split
  all_goals first | rfl | simp
@[simp] theorem State.fillS2_mem (s : State) (r : Nat) (g : Nat) : (s.fillS2 r g).mem = s.mem := by unfold State.fillS2; split <;> simp
@[simp] theorem State.atomHome_wf (s : State) (q : Req) (a sub : Nat) (signed : Bool) (b p : Nat) (h : Memory.wf s.mem = true) :
    Memory.wf (s.atomHome q a sub signed b p).1.mem = true := by simp [State.atomHome, h]
@[simp] theorem State.serve_wf (s : State) (q : Req) (a : Nat) (h : Memory.wf s.mem = true) : Memory.wf (s.serve q a).mem = true := by
  unfold State.serve
  dsimp only
  repeat' split
  all_goals simp [h]
@[simp] theorem State.serveFar_mem (s : State) (q : Req) : (s.serveFar q).mem = s.mem := by
  unfold State.serveFar
  dsimp only
  repeat' split
  all_goals first | rfl | simp
@[simp] theorem State.applySya_wf (s : State) (a : Nat) (q : Req) (h : Memory.wf s.mem = true) : Memory.wf (s.applySya a q).mem = true := by
  unfold State.applySya
  repeat' split
  all_goals simp [h]
@[simp] theorem State.seqStep_mem (s : State) (r : Nat) (n : Nat) : (s.seqStep r n).mem = s.mem := rfl
@[simp] theorem State.seqAcquire_mem (s : State) (r : Nat) (word : Nat) : (s.seqAcquire r word).mem = s.mem := rfl
@[simp] theorem State.wakeSeqs_mem (s : State) (a : Nat) : (s.wakeSeqs a).mem = s.mem := by
  unfold State.wakeSeqs
  exact State.foldl_mem _ (fun s x => by (repeat' split) <;> first | rfl | simp) _ _
@[simp] theorem State.wake_mem (s : State) (a : Nat) : (s.wake a).mem = s.mem := by simp [State.wake]
@[simp] theorem State.endAdd_mem (s : State) (q : Req) : (s.endAdd q).mem = s.mem := by unfold State.endAdd; split <;> simp
@[simp] theorem State.raiseJobAdd_mem (s : State) (c : FCode) (q : Req) : (s.raiseJobAdd c q).mem = s.mem := by unfold State.raiseJobAdd; split <;> simp
@[simp] theorem State.syncOver_mem (s : State) (adds : List Req) : (s.syncOver adds).mem = s.mem := by
  unfold State.syncOver
  repeat' split
  all_goals first | rfl | simp
@[simp] theorem State.applyAdds_wf (s : State) (a : Nat) (adds : List Req) (h : Memory.wf s.mem = true) :
    Memory.wf (s.applyAdds a adds).mem = true := by
  have e (t : State) : (adds.foldl State.endAdd t).mem = t.mem := State.foldl_mem _ (fun s x => by simp) _ _
  unfold State.applyAdds
  dsimp only
  split
  · exact h
  split
  · exact State.foldl_inv _ (fun s x h => by unfold State.Inv at *; split <;> simp [h]) _ _ h
  · split <;> simp [e, h]
@[simp] theorem State.applyVersion_wf (s : State) (a : Nat) (q : Req) (h : Memory.wf s.mem = true) : Memory.wf (s.applyVersion a q).mem = true := by
  unfold State.applyVersion
  dsimp only
  repeat' split
  all_goals simp [h]
@[simp] theorem State.acquire_mem (s : State) (e : Nat) (ids : List Nat) : (s.acquire e ids).mem = s.mem := rfl
@[simp] theorem State.trlsAnswer_mem (s : State) (panel : Nat) (stream : Nat) (tag : Nat) (gpa : Nat) (code : Nat) (data : List Byte) : (s.trlsAnswer panel stream tag gpa code data).mem = s.mem := by simp [State.trlsAnswer]
@[simp] theorem State.hostEnd_mem (s : State) (qpn : Nat) (op : Nat) (m : HostMsg) : (s.hostEnd qpn op m).mem = s.mem := rfl
@[simp] theorem State.serveLane_wf (s : State) (tile : Nat) (q : TileReq) (l : Nat) (h : Memory.wf s.mem = true) :
    Memory.wf (s.serveLane tile q l).1.mem = true := by
  have w (a : Nat) (bs : List Byte) : Memory.wf (memPut s.mem a bs) = true := State.write_inv s a bs h
  unfold State.serveLane
  dsimp only
  repeat' split
  all_goals first | exact h | (simp [h, w]; done)
@[simp] theorem State.tileMark_mem (s : State) (tile : Nat) (q : TileReq) : (s.tileMark tile q).mem = s.mem := by
  unfold State.tileMark; split <;> simp
@[simp] theorem State.serveFirst_wf (s : State) (tile : Nat) (q : TileReq) (l : Nat) (h : Memory.wf s.mem = true) :
    Memory.wf (s.serveFirst tile q l).1.mem = true := by
  unfold State.serveFirst
  split
  · exact h
  · exact State.serveLane_wf _ _ _ _ (by simp [h])
@[simp] theorem State.serveBank_wf (s : State) (tile bank : Nat) (used : List Nat) (h : Memory.wf s.mem = true) :
    Memory.wf (s.serveBank tile bank used).1.mem = true := by
  unfold State.serveBank
  repeat' split
  all_goals first | exact h | exact State.serveFirst_wf _ _ _ _ h
@[simp] theorem State.tileDone_mem (s : State) (tile : Nat) : (s.tileDone tile).mem = s.mem := rfl
@[simp] theorem State.dripCount_mem (s : State) (f : Flit) (dst : Nat) : (s.dripCount f dst).mem = s.mem := by unfold State.dripCount; split <;> simp
@[simp] theorem State.dropFlit_mem (s : State) (i : Nat) : (s.dropFlit i).mem = s.mem := rfl
@[simp] theorem State.place_mem (s : State) (f : Flit) : (s.place f).mem = s.mem := by unfold State.place; split <;> simp
@[simp] theorem State.refuse_mem (s : State) (d : Dest) : (s.refuse d).mem = s.mem := by unfold State.refuse; split <;> simp
@[simp] theorem State.inject_mem (s : State) (r : Nat) (frm : Nat) (t : Target) (p : Packet) : (s.inject r frm t p).mem = s.mem := by
  unfold State.inject
  dsimp only
  repeat' split
  all_goals first | rfl | simp
@[simp] theorem State.unmark_mem (s : State) (cs : List Nat) : (s.unmark cs).mem = s.mem := by
  unfold State.unmark
  exact State.foldl_mem _ (fun s x => by simp) _ _
@[simp] theorem State.freeEngines_mem (s : State) (r : Nat) (frm : Nat) : (s.freeEngines r frm).mem = s.mem := by simp [State.freeEngines]
@[simp] theorem State.freeQueues_mem (s : State) (r : Nat) (frm : Nat) : (s.freeQueues r frm).mem = s.mem := by
  unfold State.freeQueues
  dsimp only
  split <;> simp
@[simp] theorem State.commitNow_mem (s : State) (r frm : Nat) : (s.commitNow r frm).mem = s.mem := by
  unfold State.commitNow
  dsimp only
  split <;> simp only [State.modDie_mem, State.modLaunch_mem, State.modRegion_mem] <;>
    exact (State.foldl_mem _ (fun s x => by split <;> simp) _ _).trans (by simp)
@[simp] theorem State.freeFrame_mem (s : State) (r frm : Nat) : (s.freeFrame r frm).mem = s.mem := by
  unfold State.freeFrame
  simp only [State.freeDescs_mem, State.modRegion_mem]
  exact (State.foldl_mem _ (fun s x => by split <;> simp) _ _).trans (by simp)
@[simp] theorem State.resolve_mem (s : State) (r : Nat) : (s.resolve r).mem = s.mem := by
  unfold State.resolve
  dsimp only
  repeat' split
  all_goals first | rfl | simp
@[simp] theorem State.seqJump_mem (s : State) (r : Nat) (off : Int) : (s.seqJump r off).mem = s.mem := rfl
@[simp] theorem State.watchFar_mem (s : State) (pid : Nat) (lnch : Nat) (d : Nat × Nat) : (s.watchFar pid lnch d).mem = s.mem := by unfold State.watchFar; split <;> simp
@[simp] theorem State.accept_mem (s : State) (pid : Nat) (l : Launch) : (s.accept pid l).mem = s.mem := by simp [State.accept, State.foldl_mem]
@[simp] theorem State.flushSq_mem (vf q n : Nat) : ∀ s : State, (s.flushSq vf q n).mem = s.mem := by
  induction n with
  | zero => intro s; rfl
  | succ n ih =>
    intro s
    unfold State.flushSq
    dsimp only
    split
    · rfl
    · split
      · rw [ih]; simp
      · rfl
@[simp] theorem State.flushQueue_mem (s : State) (vf q : Nat) : (s.flushQueue vf q).mem = s.mem := by simp [State.flushQueue]
@[simp] theorem State.completeHost_mem (s : State) (pid : Nat) (vf : Nat) (q : Nat) (hdr : List Dword) (status : Nat) (fcode : Nat) (lnch : Nat) (sseq : Nat) (pcmt : Nat) (pjob : Nat) : (s.completeHost pid vf q hdr status fcode lnch sseq pcmt pjob).mem = s.mem := by
  simp [State.completeHost]
@[simp] theorem State.writeStBit_mem (s : State) (e : Nat) (bit : Nat) (v : Bool) : (s.writeStBit e bit v).mem = s.mem := rfl
@[simp] theorem State.startRegion_mem (s : State) (r cfg entry item : Nat) : (s.startRegion r cfg entry item).mem = s.mem := by
  unfold State.startRegion
  split
  · simp
  · rw [State.modRegion_mem]; exact State.foldl_mem _ (fun s x => by simp) _ _
@[simp] theorem State.endChild_mem (s : State) (pid : Nat) (parent : Nat) (rk : Nat) (group : Nat) (cov : List Nat) : (s.endChild pid parent rk group cov).mem = s.mem := rfl
@[simp] theorem State.completionAdd_mem (s : State) (die pid a : Nat) (cov : List Nat) : (s.completionAdd die pid a cov).mem = s.mem := rfl
@[simp] theorem State.removeLaunch_mem (s : State) (pid : Nat) (l : Launch) : (s.removeLaunch pid l).mem = s.mem := by
  unfold State.removeLaunch
  rw [State.modPart_mem]; exact State.foldl_mem _ (fun s x => by simp) _ _
@[simp] theorem State.reportEnd_mem (s : State) (pid : Nat) (l : Launch) (status : Nat) (fcode : Nat) (cov : List Nat) : (s.reportEnd pid l status fcode cov).mem = s.mem := by unfold State.reportEnd; split <;> simp
/-- A doubleword of the grounds ring written keeps the canonical form. -/
theorem State.ringWrite_wf (s t : State) (pid g v : Nat) (h : Memory.wf s.mem = true) (e : s.ringWrite pid g v = .ok t) :
    Memory.wf t.mem = true := by
  unfold State.ringWrite at e
  rcases hk : s.ringKey pid g with c | a <;> rw [hk] at e <;> cases e
  simp [h]
/-- Doublewords of the grounds ring written keep the canonical form. -/
theorem State.ringPut_wf (pid : Nat) (vs : List Nat) : ∀ (s t : State) (g : Nat), Memory.wf s.mem = true → s.ringPut pid g vs = .ok t →
    Memory.wf t.mem = true := by
  induction vs with
  | nil => intro s t g h e; cases e; exact h
  | cons v vs ih =>
    intro s t g h e
    unfold State.ringPut at e
    rcases hw : s.ringWrite pid g v with c | u <;> rw [hw] at e
    · cases e
    · exact ih u t _ (State.ringWrite_wf s u pid g v h hw) e
@[simp] theorem State.ringAdvance_wf (n : Nat) : ∀ (s : State) (pid : Nat), Memory.wf s.mem = true →
    Memory.wf (s.ringAdvance pid n).mem = true := by
  induction n with
  | zero => intro s pid h; exact h
  | succ n ih =>
    intro s pid h
    unfold State.ringAdvance
    repeat' split
    all_goals first | exact h | skip
    dsimp only
    split
    · exact h
    split
    · exact h
    · exact ih _ _ (State.ringPut_wf _ _ _ _ _ h (by assumption))
@[simp] theorem State.ringAppend_wf (s : State) (pid kind : Nat) (hdr : List Nat) (body : List Lane) (h : Memory.wf s.mem = true) :
    Memory.wf (s.ringAppend pid kind hdr body).1.mem = true := by
  have put {t u : State} {g : Nat} {vs : List Nat} (ht : Memory.wf t.mem = true) (e : t.ringPut pid g vs = .ok u) :
      Memory.wf u.mem = true := State.ringPut_wf _ _ _ _ _ ht e
  have rest (t u : State) (cb next : RingCb) (off : Nat) (vs : List Nat) (w : Nat) (ht : Memory.wf t.mem = true)
      (e : ((t.ringPut pid (t.ringBlock pid) next.words).bind (fun t => (t.ringPut pid (cb.base + off) vs).bind
        (fun t => t.ringWrite pid (cb.base + off) w))) = .ok u) : Memory.wf u.mem = true := by
    rcases h1 : t.ringPut pid (t.ringBlock pid) next.words with c | v <;> rw [h1] at e
    · cases e
    rcases h2 : v.ringPut pid (cb.base + off) vs with c | x <;> simp only [Except.bind, h2] at e
    · cases e
    · exact State.ringWrite_wf _ _ _ _ _ (put (put ht h1) h2) e
  unfold State.ringAppend
  rcases s.ringCb pid with c | cb
  · exact h
  dsimp only
  generalize recordLen body.length = len
  generalize (if cb.size < cb.tail + len then cb.size - cb.tail else 0) = pad
  split
  · split
    · exact put h (by assumption)
    · exact h
  · split
    · rename_i u hu
      refine State.ringAdvance_wf _ _ _ ?_
      split at hu
      · exact rest s u cb _ _ _ _ h hu
      · rcases hw : s.ringPut pid (cb.base + cb.tail) (recordHead 2 2 pad :: List.replicate 7 0) with c | t <;> rw [hw] at hu
        · cases hu
        · exact rest t u cb _ _ _ _ (put h hw) hu
    · exact h
@[simp] theorem State.ringFree_wf (s : State) (pid off : Nat) (h : Memory.wf s.mem = true) : Memory.wf (s.ringFree pid off).mem = true := by
  unfold State.ringFree
  repeat' split
  all_goals first | exact h | exact State.ringAdvance_wf _ _ _ (State.ringWrite_wf _ _ _ _ _ h (by assumption))
@[simp] theorem State.ringFreeAll_wf (s : State) (pid : Nat) (offs : List Nat) (h : Memory.wf s.mem = true) : Memory.wf (s.ringFreeAll pid offs).mem = true := by
  unfold State.ringFreeAll
  exact State.foldl_inv _ (fun s x h => by exact State.ringFree_wf _ _ _ h) _ _ h
@[simp] theorem State.modIsland_mem (s : State) (d : Nat) (edge : Nat) (f : Island → Island) : (s.modIsland d edge f).mem = s.mem := rfl
@[simp] theorem State.islandAnswer_mem (s : State) (e : Nat) (n : Nat) (o : Slot) (a : Operand) (v : Nat) : (s.islandAnswer e n o a v).mem = s.mem := rfl
@[simp] theorem State.postAnswer_mem (s : State) (t : Ret) (p : Packet) : (s.postAnswer t p).mem = s.mem := rfl
@[simp] theorem State.closeTemplates_mem (s : State) (d edge : Nat) : (s.closeTemplates d edge).mem = s.mem := by
  unfold State.closeTemplates
  exact State.foldl_mem _ (fun s x => by (repeat' split) <;> simp) _ _
@[simp] theorem State.acceptJob_mem (s : State) (j : Job) : (s.acceptJob j).mem = s.mem := rfl
@[simp] theorem State.dropToken_mem (s : State) (d : Nat) (edge : Nat) (q : Nat) : (s.dropToken d edge q).mem = s.mem := rfl
@[simp] theorem State.tokenFault_mem (s : State) (c : FCode) (t : Template) (edge : Nat) (slot : Nat) (q : Nat) : (s.tokenFault c t edge slot q).mem = s.mem := by simp [State.tokenFault]
@[simp] theorem State.orphan_mem (s : State) (k : QTok) : (s.orphan k).mem = s.mem := by unfold State.orphan; split <;> simp
@[simp] theorem State.setJob_mem (s : State) (j : Job) : (s.setJob j).mem = s.mem := rfl
@[simp] theorem State.dropJob_mem (s : State) (j : Job) : (s.dropJob j).mem = s.mem := rfl
@[simp] theorem State.jobStop_mem (s : State) (j : Job) (c : FCode) (va : Option Nat) (detail : Nat) :
    (s.jobStop j c va detail).mem = s.mem := by unfold State.jobStop; dsimp only; split <;> simp
@[simp] theorem State.jobFault_mem (s : State) (j : Job) (c : FCode) (va : Option Nat) : (s.jobFault j c va).mem = s.mem := by simp [State.jobFault]
@[simp] theorem State.askFar_mem (s : State) (j : Job) (gs : List Nat) : (s.askFar j gs).mem = s.mem := by simp [State.askFar, State.foldl_mem]
@[simp] theorem State.writeBranch_wf (s : State) (j : Job) (bs : List Byte) (b : Branch) (h : Memory.wf s.mem = true) : Memory.wf (s.writeBranch j bs b).mem = true := by
  unfold State.writeBranch
  dsimp only
  repeat' split
  all_goals simp [h]
@[simp] theorem State.loadStep_wf (s : State) (j : Job) (h : Memory.wf s.mem = true) : Memory.wf (s.loadStep j).mem = true := by
  unfold State.loadStep
  dsimp only
  repeat' split
  all_goals first
    | (simp [h]; done)
    | (rw [State.setJob_mem]; exact State.foldl_inv _ (fun s x h => State.writeBranch_wf _ _ _ _ h) _ _ h)
/-- An element that a copy job stores keeps the canonical form. -/
theorem State.writeElement_wf (s t : State) (j : Job) (va : Nat) (bs : List Byte) (far : List (Nat × Nat)) (h : Memory.wf s.mem = true)
    (e : s.writeElement j va bs = .ok (some (t, far))) : Memory.wf t.mem = true := by
  unfold State.writeElement at e
  dsimp only at e
  split at e
  · cases e
  · rcases ha : s.access j.tpl.rk va j.tpl.esz needWrite with c | ⟨g, a⟩ <;> rw [ha] at e
    · cases e
    · simp only [bind, Except.bind] at e
      split at e
      · cases e
      · split at e
        · cases e
        · cases e; simp [h]
/-- A unit that a copy job stores keeps the canonical form. -/
theorem State.storeUnit_wf (s t : State) (j : Job) (bs : List Byte) (far : List (Nat × Nat)) (h : Memory.wf s.mem = true)
    (e : s.storeUnit j bs = .ok (some (t, far))) : Memory.wf t.mem = true := by
  unfold State.storeUnit at e
  dsimp only at e
  generalize List.range (j.tpl.unitBytes / j.tpl.esz) = ks at e
  have main : ∀ (ks : List Nat) (acc : Except (FCode × Nat) (Option (State × List (Nat × Nat)))),
      (∀ u f, acc = .ok (some (u, f)) → Memory.wf u.mem = true) → ∀ u f, ks.foldl (fun acc k =>
        match acc with
        | .ok (some (s, far)) =>
          if j.tpl.inside (j.tpl.coord j.origin (j.unit * (j.tpl.unitBytes / j.tpl.esz) + k)) then
            match s.writeElement j (j.tpl.addr (j.tpl.coord j.origin (j.unit * (j.tpl.unitBytes / j.tpl.esz) + k)))
              ((bs.drop (k * j.tpl.esz)).take j.tpl.esz) with
            | .error x => .error (x, j.tpl.addr (j.tpl.coord j.origin (j.unit * (j.tpl.unitBytes / j.tpl.esz) + k)))
            | .ok none => .ok none
            | .ok (some (s', f)) => .ok (some (s', far ++ f))
          else .ok (some (s, far))
        | x => x) acc = .ok (some (u, f)) → Memory.wf u.mem = true := by
    intro ks
    induction ks with
    | nil => intro acc ha u f e; exact ha u f e
    | cons k ks ih =>
      intro acc ha
      refine ih _ ?_
      intro u f hu
      rcases acc with c | _ | ⟨v, g⟩
      · cases hu
      · cases hu
      · have hv := ha v g rfl
        dsimp only at hu
        split at hu
        · split at hu
          · cases hu
          · cases hu
          · cases hu; exact State.writeElement_wf _ _ _ _ _ _ hv (by assumption)
        · cases hu; exact hv
  exact main ks _ (fun u f hu => by cases hu; exact h) _ _ e
@[simp] theorem State.storeStep_wf (s : State) (j : Job) (h : Memory.wf s.mem = true) : Memory.wf (s.storeStep j).mem = true := by
  unfold State.storeStep
  dsimp only
  repeat' split
  all_goals first | (simp [h]; done) | exact h | (rw [State.setJob_mem]; exact State.storeUnit_wf _ _ _ _ _ h (by assumption))
@[simp] theorem State.moveStep_wf (s : State) (j : Job) (src : Nat) (dst : Nat) (t : Ret) (h : Memory.wf s.mem = true) : Memory.wf (s.moveStep j src dst t).mem = true := by
  unfold State.moveStep
  dsimp only
  repeat' split
  all_goals simp [h]
@[simp] theorem State.tagToken_mem (s : State) (r : Nat) (frm : Nat) (t : TagUse) (fills : Nat) (cov : List Nat) : (s.tagToken r frm t fills cov).mem = s.mem := rfl
@[simp] theorem State.countWord_wf (s : State) (w : TagWord) (frm k : Nat) (t : TagUse) (cov : List Nat) (h : Memory.wf s.mem = true) :
    Memory.wf (s.countWord w frm k t cov).mem = true := by
  have p (a : Nat) (bs : List Byte) : Memory.wf (s.write a bs).mem = true := State.write_wf s a bs h
  unfold State.countWord
  dsimp only
  split
  · rw [State.tagToken_mem, State.modBnd_mem]; exact p _ _
  · rw [State.modBnd_mem]; exact p _ _
/-- A job's SYNC increment leaves memory. -/
theorem State.jobSync_mem (s t : State) (j : Job) (e : s.jobSync j = .ok (some t)) : t.mem = s.mem := by
  unfold State.jobSync at e
  dsimp only at e
  rcases ha : s.access j.tpl.rk j.tpl.sync 16 needSync with c | ⟨g, a⟩ <;> rw [ha] at e
  · cases e
  · simp only [bind, Except.bind] at e
    repeat' split at e
    all_goals first | (cases e; done) | (cases e; rfl) | (cases e; simp)
@[simp] theorem State.drainSource_mem (s : State) (j : Job) : (s.drainSource j).mem = s.mem := by unfold State.drainSource; split <;> simp
@[simp] theorem State.finishJob_mem (s : State) (j : Job) : (s.finishJob j).mem = s.mem := by
  unfold State.finishJob
  repeat' split
  all_goals first | rfl | simp
@[simp] theorem State.modXq_mem (s : State) (k : Nat) (f : XQueue → XQueue) : (s.modXq k f).mem = s.mem := rfl
@[simp] theorem State.putMessage_wf (s : State) (k : Nat) (h : Shape) (ls : List Lane) (hs : Memory.wf s.mem = true) :
    Memory.wf (s.putMessage k h ls).mem = true := State.putHome_wf s _ _ hs
@[simp] theorem State.jobSent_mem (s : State) (id : Nat) : (s.jobSent id).mem = s.mem := rfl
@[simp] theorem State.refill_wf (s : State) (k : Nat) (h : Shape) (x : XQueue) (hs : Memory.wf s.mem = true) :
    Memory.wf (s.refill k h x).mem = true := by
  have p (ls : List Lane) : Memory.wf (s.putMessage k h ls).mem = true := State.putMessage_wf s k h ls hs
  unfold State.refill
  repeat' split
  all_goals simp [hs, p]
@[simp] theorem State.refillAll_wf (k : Nat) (h : Shape) (n : Nat) : ∀ s : State, Memory.wf s.mem = true →
    Memory.wf (s.refillAll k h n).mem = true := by
  induction n with
  | zero => intro s hs; exact hs
  | succ n ih =>
    intro s hs
    unfold State.refillAll
    dsimp only
    split
    · exact hs
    · split
      · exact ih _ (State.refill_wf _ _ _ _ hs)
      · exact hs
@[simp] theorem State.closeQueues_mem (s : State) (r frm : Nat) : (s.closeQueues r frm).mem = s.mem := by
  unfold State.closeQueues
  exact State.foldl_mem _ (fun s x => by simp) _ _
@[simp] theorem State.raiseQueue_mem (s : State) (c : FCode) (x : XQueue) (len : Nat) : (s.raiseQueue c x len).mem = s.mem := by simp [State.raiseQueue]
@[simp] theorem State.addFlags_mem (s : State) (e : Nat) (fl : BitVec 32) : (s.addFlags e fl).mem = s.mem := rfl
@[simp] theorem State.modMerge_mem (s : State) (d : Nat) (q : Nat) (f : Merge → Merge) : (s.modMerge d q f).mem = s.mem := rfl
@[simp] theorem State.setMerge_mem (s : State) (d : Nat) (q : Nat) (m : Merge) : (s.setMerge d q m).mem = s.mem := rfl
@[simp] theorem State.endSession_wf (s : State) (d : Nat) (q : Nat) (h : Memory.wf s.mem = true) : Memory.wf (s.endSession d q).mem = true := by simp [State.endSession, h]
@[simp] theorem State.mergeFault_mem (s : State) (c : FCode) (q : Nat) (m : Merge) (leaf : Option Nat) (detail : Nat) : (s.mergeFault c q m leaf detail).mem = s.mem := by simp [State.mergeFault]
@[simp] theorem State.noSession_mem (s : State) (q : Nat) (l : Nat) (f : Flit) : (s.noSession q l f).mem = s.mem := by simp [State.noSession]
@[simp] theorem State.putSegment_wf (s : State) (d q : Nat) (m : Merge) (last : Bool) (es : List (Nat × Nat)) (h : Memory.wf s.mem = true) :
    Memory.wf (s.putSegment d q m last es).1.mem = true := by
  unfold State.putSegment
  (try dsimp only)
  repeat' split
  all_goals (first | exact h | simp [h])
@[simp] theorem State.closeRun_wf (s : State) (d q : Nat) (m : Merge) (h : Memory.wf s.mem = true) :
    Memory.wf (s.closeRun d q m).1.mem = true := by
  unfold State.closeRun
  (try dsimp only)
  repeat' split
  all_goals (first | exact h | simp [h])
@[simp] theorem State.openSegment_wf (s : State) (d q : Nat) (m : Merge) (h : Memory.wf s.mem = true) :
    Memory.wf (s.openSegment d q m).1.mem = true := by
  unfold State.openSegment
  (try dsimp only)
  repeat' split
  all_goals (first | exact h | simp [h])
@[simp] theorem State.putKey_wf (s : State) (d q : Nat) (m : Merge) (k v : Nat) (h : Memory.wf s.mem = true) :
    Memory.wf (s.putKey d q m k v).1.mem = true := by
  unfold State.putKey
  (try dsimp only)
  repeat' split
  all_goals (first | exact h | simp [h])
@[simp] theorem State.flush_wf (s : State) (d q : Nat) (m : Merge) (h : Memory.wf s.mem = true) :
    Memory.wf (s.flush d q m).1.mem = true := by
  unfold State.flush
  (try dsimp only)
  repeat' split
  all_goals (first | exact h | simp [h])
@[simp] theorem State.combine_wf (s : State) (d q : Nat) (m : Merge) (k v : Nat) (h : Memory.wf s.mem = true) :
    Memory.wf (s.combine d q m k v).1.mem = true := by
  unfold State.combine
  (try dsimp only)
  repeat' split
  all_goals (first | exact h | simp [h])
@[simp] theorem State.endRound_wf (s : State) (d q : Nat) (m : Merge) (h : Memory.wf s.mem = true) :
    Memory.wf (s.endRound d q m).1.mem = true := by
  unfold State.endRound
  (try dsimp only)
  repeat' split
  all_goals (first | exact h | simp [h])
@[simp] theorem State.mergeStep_wf (s : State) (d q : Nat) (m : Merge) (x : State × Except FCode Merge) (len : Nat)
    (h : Memory.wf s.mem = true) (hx : Memory.wf x.1.mem = true) : Memory.wf (s.mergeStep d q m x len).mem = true := by
  unfold State.mergeStep
  split <;> simp [h, hx]
@[simp] theorem State.mergePass_wf (s : State) (d q : Nat) (m : Merge) (h : Memory.wf s.mem = true) :
    Memory.wf (s.mergePass d q m).1.mem = true := by
  unfold State.mergePass
  split
  · exact h
  · dsimp only
    repeat' split
    all_goals simp [h]
@[simp] theorem State.closeMerge_wf (s : State) (d q : Nat) (h : Memory.wf s.mem = true) : Memory.wf (s.closeMerge d q).mem = true := by
  unfold State.closeMerge
  dsimp only
  split
  · exact h
  · rw [State.foldl_mem _ (fun s x => by simp)]; simp [h]
@[simp] theorem State.modNode_mem (s : State) (e : Nat) (f : Node → Node) : (s.modNode e f).mem = s.mem := rfl
@[simp] theorem State.setNodeAcc_mem (s : State) (e : Nat) (size : Nat) (a : Nat) (v : Acc) : (s.setNodeAcc e size a v).mem = s.mem := rfl
@[simp] theorem State.putAccs_mem (s : State) (e : Nat) (size : Nat) (vs : List (Nat × Acc)) : (s.putAccs e size vs).mem = s.mem := by unfold State.putAccs; exact State.foldl_mem _ (fun s x => by simp) _ _
@[simp] theorem State.nodeFault_mem (s : State) (c : FCode) (e : Nat) : (s.nodeFault c e).mem = s.mem := by simp [State.nodeFault]
@[simp] theorem State.dropCmd_mem (s : State) (e : Nat) : (s.dropCmd e).mem = s.mem := rfl
@[simp] theorem State.endCmd_mem (s : State) (e : Nat) (t : MTok) (fl : BitVec 32) : (s.endCmd e t fl).mem = s.mem := by unfold State.endCmd; split <;> simp
@[simp] theorem State.startDrain_mem (s : State) (e : Nat) (n : Node) (route : Nat) (mc : Nat) (nc : Nat) (abase : Nat) (fmt : Nat) (rnd : Nat) (zero : Bool) (ret : Ret) : (s.startDrain e n route mc nc abase fmt rnd zero ret).mem = s.mem := by
  unfold State.startDrain
  repeat' split
  all_goals simp
@[simp] theorem State.endDrain_mem (s : State) (e : Nat) (ret : Ret) (k : Nat) : (s.endDrain e ret k).mem = s.mem := by simp [State.endDrain]
@[simp] theorem State.nodeSend_mem (s : State) (e : Nat) (p : Packet) (w : Lane) (rest : List (Packet × Lane)) : (s.nodeSend e p w rest).mem = s.mem := by
  unfold State.nodeSend
  repeat' split
  all_goals first | rfl | simp
@[simp] theorem State.badToken_mem (s : State) (e : Nat) (c : FCode) : (s.badToken e c).mem = s.mem := by simp [State.badToken]
/-- A word saved keeps the canonical form. -/
theorem State.saveWord_wf (s t : State) (pid va : Nat) (w : Dword) (h : Memory.wf s.mem = true) (e : s.saveWord pid va w = .ok t) :
    Memory.wf t.mem = true := by
  unfold State.saveWord at e
  split at e
  · cases e
  · cases e; simp [h]
@[simp] theorem State.saveWords_wf (s : State) (pid : Nat) (ws : List (Nat × Dword)) (h : Memory.wf s.mem = true) :
    Memory.wf (s.saveWords pid ws).1.mem = true := by
  unfold State.saveWords
  generalize (none : Option (FCode × Nat)) = o
  induction ws generalizing s o with
  | nil => exact h
  | cons w ws ih =>
    rw [List.foldl_cons]
    rcases hw : s.saveWord pid w.1 w.2 with c | t
    · exact ih s h _
    · exact ih t (State.saveWord_wf _ _ _ _ _ h hw) _
@[simp] theorem State.saveAll_wf (s : State) (pid lnch : Nat) (ws : List (Nat × Dword)) (h : Memory.wf s.mem = true) :
    Memory.wf (s.saveAll pid lnch ws).mem = true := by
  unfold State.saveAll
  dsimp only
  split <;> simp [h]
@[simp] theorem State.progress_wf (s : State) (pid : Nat) (l : Launch) (h : Memory.wf s.mem = true) : Memory.wf (s.progress pid l).mem = true := by simp [State.progress, h]
theorem State.jobLate_mem (s t : State) (j : Job) (e : s.jobLate j = some t) : t.mem = s.mem := by
  unfold State.jobLate at e
  obtain ⟨x, -, rfl⟩ := Option.map_eq_some_iff.1 e
  simp
@[simp] theorem State.jobStep_wf (s : State) (j : Job) (h : Memory.wf s.mem = true) : Memory.wf (s.jobStep j).mem = true := by
  unfold State.jobStep
  split
  · rw [State.jobLate_mem _ _ _ (by assumption)]; exact h
  · split
    · simp [h]
    · split <;> simp [h]
@[simp] theorem State.jobUnit_wf (s : State) (i : Nat) (h : Memory.wf s.mem = true) : Memory.wf (s.jobUnit i).mem = true := by
  unfold State.jobUnit
  repeat' split
  all_goals simp [h]
@[simp] theorem State.stopJobs_wf (s : State) (pid : Nat) (l : Launch) (h : Memory.wf s.mem = true) : Memory.wf (s.stopJobs pid l).mem = true := by
  unfold State.stopJobs
  exact State.foldl_inv _ (fun s x h => State.foldl_inv _ (fun s y h => State.jobUnit_wf _ _ h) _ _ h) _ _ h
@[simp] theorem State.completeWrite_wf (s : State) (q : Req) (h : Memory.wf s.mem = true) : Memory.wf (s.completeWrite q).mem = true := by
  unfold State.completeWrite
  repeat' split
  all_goals simp [h]
@[simp] theorem State.stopReqs_wf (s : State) (pid : Nat) (l : Launch) (h : Memory.wf s.mem = true) : Memory.wf (s.stopReqs pid l).mem = true := by
  unfold State.stopReqs
  exact State.foldl_inv _ (fun s x h => by unfold State.Inv at *; simp [h]) _ _ h
@[simp] theorem State.dropQueues_wf (s : State) (r : Nat) (h : Memory.wf s.mem = true) : Memory.wf (s.dropQueues r).mem = true := by
  unfold State.dropQueues
  exact State.foldl_inv _ (fun s x h => by unfold State.Inv at *; (repeat' split) <;> simp [h]) _ _ h
@[simp] theorem State.dropFrames_wf (s : State) (r : Nat) (h : Memory.wf s.mem = true) : Memory.wf (s.dropFrames r).mem = true := by
  have a (x : List (Nat × Merge)) (t : State) (ht : Memory.wf t.mem = true) :
      Memory.wf (x.foldl (fun s m => s.endSession (rkDie r) m.1) t).mem = true :=
    State.foldl_inv _ (fun s x h => by unfold State.Inv at *; simp [h]) _ _ ht
  have b (x : List Nat) (t : State) : (x.foldl (fun s f => s.freeFrame r f) t).mem = t.mem := State.foldl_mem _ (fun s x => by simp) _ _
  unfold State.dropFrames
  simp only [State.modDie_mem, b]
  exact a _ _ (by simp [h])
@[simp] theorem State.endLaunch_wf (s : State) (pid : Nat) (l : Launch) (status fcode : Nat) (h : Memory.wf s.mem = true) :
    Memory.wf (s.endLaunch pid l status fcode).mem = true := by
  unfold State.endLaunch
  rw [State.reportEnd_mem, State.removeLaunch_mem]
  exact State.ringFreeAll_wf _ _ _ (State.foldl_inv _ (fun s x h => State.dropFrames_wf _ _ h) _ _
    (State.stopReqs_wf _ _ _ (State.stopJobs_wf _ _ _ (State.progress_wf _ _ _ h))))
@[simp] theorem State.zeroRange_wf (s : State) (lo hi : Nat) (h : Memory.wf s.mem = true) :
    Memory.wf (s.zeroRange lo hi).mem = true := State.zeroRange_inv s lo hi h
@[simp] theorem State.clearContext_wf (s : State) (pid : Nat) (h : Memory.wf s.mem = true) : Memory.wf (s.clearContext pid).mem = true := by
  unfold State.clearContext
  refine State.foldl_inv _ (fun s x h => by unfold State.Inv at *; simp [h]) _ _ ?_
  unfold State.Inv
  rw [State.foldl_mem _ (fun s x => by simp)]
  exact h
@[simp] theorem State.putContext_wf (s : State) (c : Saved) (h : Memory.wf s.mem = true) : Memory.wf (s.putContext c).mem = true := by
  unfold State.putContext
  refine State.foldl_inv _ (fun s x h => ?_) _ _ (State.foldl_inv (fun (s : State) (x : Host.Cell) => s.write x.1 [x.2])
    (fun s x h => State.write_wf s x.1 [x.2] h) c.tiles _ ?_)
  · split
    · exact State.write_wf _ _ _ h
    · exact h
  · unfold State.Inv
    rw [State.foldl_mem _ (fun s x => by simp), State.foldl_mem _ (fun s x => by simp), State.foldl_mem _ (fun s x => by simp)]
    exact h
@[simp] theorem State.putGpa_wf (s : State) (vf g : Nat) (bs : List Byte) (h : Memory.wf s.mem = true) :
    Memory.wf (s.putGpa vf g bs).mem = true := by
  unfold State.putGpa
  exact State.foldl_inv _ (fun s x h => by unfold State.Inv at *; (repeat' split) <;> simp [h]) _ _ h
@[simp] theorem State.doSave_wf (s : State) (pid : Nat) (h : Memory.wf s.mem = true) : Memory.wf (s.doSave pid).mem = true := by
  unfold State.doSave
  simp only [State.drawn_mem, State.modPart_mem]
  exact State.clearContext_wf _ _ (State.foldl_inv _ (fun s x h => State.putGpa_wf _ _ _ _ h) _ _ h)
@[simp] theorem State.ringReset_wf (s : State) (pid : Nat) (h : Memory.wf s.mem = true) : Memory.wf (s.ringReset pid).mem = true := by
  unfold State.ringReset
  repeat' split
  all_goals first | exact h | exact State.ringPut_wf _ _ _ _ _ h (by assumption)
@[simp] theorem State.zeroDescs_wf (s : State) (pid : Nat) (h : Memory.wf s.mem = true) : Memory.wf (s.zeroDescs pid).mem = true := by
  unfold State.zeroDescs
  exact State.foldl_inv _ (fun s x h => by unfold State.Inv at *; split <;> simp [h]) _ _ h
@[simp] theorem State.completeSaved_wf (s : State) (pid : Nat) (h : Memory.wf s.mem = true) : Memory.wf (s.completeSaved pid).mem = true := by
  unfold State.completeSaved
  split
  · exact h
  · exact State.foldl_inv _ (fun s x h => State.putGpa_wf _ _ _ _ h) _ _ h
@[simp] theorem State.doRelease_wf (s : State) (pid : Nat) (h : Memory.wf s.mem = true) : Memory.wf (s.doRelease pid).mem = true := by
  unfold State.doRelease
  rw [State.modPart_mem, State.foldl_mem _ (fun s x => by simp)]
  exact State.clearContext_wf _ _ (State.ringReset_wf _ _ (State.zeroDescs_wf _ _
    (State.foldl_inv _ (fun s x h => State.endLaunch_wf _ _ _ _ _ h) _ _ (State.completeSaved_wf _ _ h))))
@[simp] theorem State.setRoutes_mem (s : State) (pid : Nat) (on : Bool) : (s.setRoutes pid on).mem = s.mem := rfl
@[simp] theorem State.doRestore_wf (s : State) (pid : Nat) (h : Memory.wf s.mem = true) : Memory.wf (s.doRestore pid).1.mem = true := by
  unfold State.doRestore
  dsimp only
  repeat' split
  all_goals simp [h]
@[simp] theorem State.modRing_mem (s : State) (vf : Nat) (k : Nat) (f : VRing → VRing) : (s.modRing vf k f).mem = s.mem := rfl
@[simp] theorem State.mirrorRing_mem (s : State) (vf k : Nat) : (s.mirrorRing vf k).mem = s.mem := by
  unfold State.mirrorRing
  dsimp only
  split
  · rfl
  split
  · rfl
  · rw [State.modRing_mem]; exact State.foldl_mem _ (fun s x => by simp) _ _
@[simp] theorem State.pushRing_mem (s : State) (vf : Nat) (k : Nat) (x : Record) : (s.pushRing vf k x).mem = s.mem := by simp [State.pushRing]
@[simp] theorem State.countSeq_mem (s : State) (d : Nat) (vf : Nat) : (s.countSeq d vf).mem = s.mem := rfl
@[simp] theorem State.abandonAll_wf (s : State) (pid : Nat) (h : Memory.wf s.mem = true) : Memory.wf (s.abandonAll pid).mem = true := by
  have a (x : List Launch) (t : State) (ht : Memory.wf t.mem = true) : Memory.wf (x.foldl (fun s l => s.endLaunch pid l 0x06 0) t).mem = true :=
    State.foldl_inv _ (fun s x h => State.endLaunch_wf _ _ _ _ _ h) _ _ ht
  unfold State.abandonAll
  dsimp only
  split
  · exact h
  split
  · exact h
  split <;> simp [h, a]
@[simp] theorem State.stormCount_mem (s : State) (d : Nat) (x : Record) : (s.stormCount d x).mem = s.mem := by
  unfold State.stormCount
  dsimp only
  repeat' split
  all_goals first | rfl | simp
@[simp] theorem State.holdRecord_mem (s : State) (d : Nat) (x : Record) : (s.holdRecord d x).mem = s.mem := by
  unfold State.holdRecord
  dsimp only
  repeat' split
  all_goals first | rfl | simp
/-- A record taken from a steward's store leaves memory. -/
theorem State.storeItem_mem (s t : State) (d vf : Nat) (r : Record) (e : s.storeItem d vf = some (r, t)) : t.mem = s.mem := by
  unfold State.storeItem at e
  dsimp only at e
  repeat' split at e
  all_goals first | (cases e; simp; done) | cases e
@[simp] theorem State.stormEnd_mem (s : State) (d : Nat) : (s.stormEnd d).mem = s.mem := by
  unfold State.stormEnd
  dsimp only
  repeat' split
  all_goals first | rfl | simp
@[simp] theorem State.abandonWaiting_wf (s : State) (h : Memory.wf s.mem = true) : Memory.wf (s.abandonWaiting).mem = true := by
  unfold State.abandonWaiting
  exact State.foldl_inv _ (fun s x h => by exact State.abandonAll_wf _ _ h) _ _ h
@[simp] theorem State.takeItem_wf (s : State) (d vf : Nat) (h : Memory.wf s.mem = true) : Memory.wf (s.takeItem d vf).mem = true := by
  unfold State.takeItem
  split
  · rename_i x t ht
    simp [State.storeItem_mem _ _ _ _ _ ht, h]
  · exact h
@[simp] theorem State.pumpDie_mem (vf d n : Nat) : ∀ s : State, (s.pumpDie vf d n).mem = s.mem := by
  induction n with
  | zero => intro s; rfl
  | succ n ih =>
    intro s
    unfold State.pumpDie
    split
    · rfl
    split
    · rename_i x t ht
      rw [ih]; simp [State.storeItem_mem _ _ _ _ _ ht]
    · rfl
@[simp] theorem State.pump_wf (s : State) (vf : Nat) (h : Memory.wf s.mem = true) : Memory.wf (s.pump vf).mem = true := by
  unfold State.pump
  refine State.abandonWaiting_wf _ ?_
  rw [State.foldl_mem _ (fun s x => State.pumpDie_mem _ _ _ _)]
  exact h
@[simp] theorem State.reopened_wf (s : State) (h : Memory.wf s.mem = true) : Memory.wf s.reopened.mem = true := by
  unfold State.reopened
  refine State.foldl_inv _ (fun s x h => ?_) _ _ h
  unfold State.Inv at *
  dsimp only
  rw [State.foldl_mem _ (fun s y => State.flushQueue_mem _ _ _)]
  exact State.pump_wf _ _ h
@[simp] theorem State.stewardPath_mem (s : State) (d : Nat) (x : Record) : (s.stewardPath d x).mem = s.mem := by
  unfold State.stewardPath
  repeat' split
  all_goals first | rfl | simp
@[simp] theorem State.numberTrap_mem (s : State) (id : Nat) (seq : Nat) : (s.numberTrap id seq).mem = s.mem := rfl
@[simp] theorem State.zeroFrames_wf (s : State) (vf : Nat) (h : Memory.wf s.mem = true) : Memory.wf (s.zeroFrames vf).mem = true := by
  unfold State.zeroFrames
  exact State.foldl_inv _ (fun s x h => by unfold State.Inv at *; simp [h]) _ _ h
@[simp] theorem State.lastRecord_mem (s : State) (vf : Nat) (x : Record) : (s.lastRecord vf x).mem = s.mem := by
  unfold State.lastRecord
  dsimp only
  split <;> simp
@[simp] theorem State.endPairs_mem (s : State) (vf : Nat) : (s.endPairs vf).mem = s.mem := rfl
@[simp] theorem State.finishVf_wf (s : State) (vf : Nat) (h : Memory.wf s.mem = true) : Memory.wf (s.finishVf vf).mem = true := by unfold State.finishVf; split <;> simp [h]
@[simp] theorem State.putEn_mem (s : State) (vf : Nat) (on : Bool) : (s.putEn vf on).mem = s.mem := rfl
/-- What is done for a VF, keeping the canonical form, keeps it. -/
theorem State.onBehalf_wf (s : State) (vf : Nat) (f : State → State) (hf : ∀ t, Memory.wf t.mem = true → Memory.wf (f t).mem = true)
    (h : Memory.wf s.mem = true) : Memory.wf (s.onBehalf vf f).mem = true := by
  unfold State.onBehalf
  split
  · rw [State.putEn_mem]; exact hf _ (by rw [State.putEn_mem]; exact h)
  · exact hf _ h
@[simp] theorem State.disablePart_wf (s : State) (vf pid : Nat) (h : Memory.wf s.mem = true) : Memory.wf (s.disablePart vf pid).mem = true := by
  unfold State.disablePart
  dsimp only
  split
  · rw [State.modVf_mem]; exact State.onBehalf_wf _ _ _ (fun t ht => State.doRelease_wf _ _ ht) h
  · exact h
@[simp] theorem State.stepVf_wf (s : State) (vf : Nat) (h : Memory.wf s.mem = true) : Memory.wf (s.stepVf vf).mem = true := by
  unfold State.stepVf
  split
  · exact h
  · exact State.finishVf_wf _ _ (State.foldl_inv _ (fun s x h => State.disablePart_wf _ _ _ h) _ _ h)
@[simp] theorem State.endWindow_mem (s : State) (key : Nat) : (s.endWindow key).mem = s.mem := by
  unfold State.endWindow
  repeat' split
  all_goals rfl
@[simp] theorem State.endWindows_mem (s : State) : s.endWindows.mem = s.mem := by
  unfold State.endWindows
  exact State.foldl_mem _ (fun s x => by simp) _ _
@[simp] theorem State.closePairs_mem (s : State) (vf : Nat) : (s.closePairs vf).mem = s.mem := by
  unfold State.closePairs
  dsimp only
  rw [State.endWindows_mem]
  exact State.foldl_mem _ (fun s x => State.foldl_mem _ (fun s y => by simp) _ _) _ _
@[simp] theorem State.disableVf_wf (s : State) (vf : Nat) (h : Memory.wf s.mem = true) : Memory.wf (s.disableVf vf).mem = true := by
  unfold State.disableVf
  refine State.stepVf_wf _ _ ?_
  rw [State.foldl_mem _ (fun s x => State.freezePart_mem _ _ _ _), State.modVf_mem, State.closePairs_mem]
  exact h
@[simp] theorem State.resumeSlice_wf (s : State) (pid : Nat) (h : Memory.wf s.mem = true) : Memory.wf (s.resumeSlice pid).mem = true := by
  unfold State.resumeSlice
  dsimp only
  split <;> simp [h]
@[simp] theorem State.switchSlice_wf (s : State) (pid : Nat) (h : Memory.wf s.mem = true) : Memory.wf (s.switchSlice pid).mem = true := by
  have hd : Memory.wf (s.doSave pid).mem = true := State.doSave_wf _ _ h
  unfold State.switchSlice
  split
  · simp [h]
  · dsimp only
    split
    · exact hd
    · split <;> simp [hd]
@[simp] theorem State.frozenNow_wf (s : State) (pid : Nat) (h : Memory.wf s.mem = true) : Memory.wf (s.frozenNow pid).mem = true := by
  have b (f : State → State) (hf : ∀ t, Memory.wf t.mem = true → Memory.wf (f t).mem = true) :=
    State.onBehalf_wf s (pVf (s.part pid)) f hf h
  unfold State.frozenNow
  dsimp only
  split
  · refine State.stepVf_wf _ _ (b _ (fun t ht => ?_))
    split <;> simp [ht]
  · split
    · exact h
    · exact b _ (fun t ht => State.doRelease_wf _ _ ht)
  · split
    · exact State.abandonAll_wf _ _ (State.stepVf_wf _ _ (by simp [h]))
    · exact State.switchSlice_wf _ _ h
  · exact State.abandonAll_wf _ _ (State.stepVf_wf _ _ h)
@[simp] theorem State.modUnit_mem (s : State) (u : UnitId) (f : Identity → Identity) : (s.modUnit u f).mem = s.mem := rfl
@[simp] theorem State.modChan_mem (s : State) (u : UnitId) (n : Nat) (f : Chan → Chan) : (s.modChan u n f).mem = s.mem := rfl
@[simp] theorem State.refreshKeyed_mem (s : State) (u : UnitId) (n : Nat) : (s.refreshKeyed u n).mem = s.mem := by unfold State.refreshKeyed; split <;> simp
@[simp] theorem State.unkey_mem (s : State) (u : UnitId) (n : Nat) : (s.unkey u n).mem = s.mem := by unfold State.unkey; split <;> simp
@[simp] theorem State.setLinkGen_mem (s : State) (u : UnitId) (n : Nat) (g : BitVec 16) : (s.setLinkGen u n g).mem = s.mem := rfl
@[simp] theorem State.unkeyAll_mem (s : State) (u : UnitId) : (s.unkeyAll u).mem = s.mem := by
  unfold State.unkeyAll
  exact State.foldl_mem _ (fun s x => by split <;> simp) _ _
@[simp] theorem State.freezeDie_mem (s : State) (pid : Nat) : (s.freezeDie pid).mem = s.mem := by unfold State.freezeDie; split <;> simp
@[simp] theorem State.loseHome_wf (s : State) (q : Nat) (h : Memory.wf s.mem = true) : Memory.wf (s.loseHome q).mem = true := by
  unfold State.loseHome
  exact State.reopened_wf _ (by rw [State.endWindows_mem, State.remirror_mem]; exact h)
@[simp] theorem State.leaveActive_wf (s : State) (u : UnitId) (h : Memory.wf s.mem = true) : Memory.wf (s.leaveActive u).mem = true := by
  unfold State.leaveActive
  dsimp only
  split
  · exact State.loseHome_wf _ _ (by simp [h])
  · rw [State.foldl_mem _ (fun s x => by simp)]; simp [h]
@[simp] theorem State.refreshAll_mem (s : State) (u : UnitId) : (s.refreshAll u).mem = s.mem := by
  unfold State.refreshAll
  exact State.foldl_mem _ (fun s x => by simp) _ _
@[simp] theorem State.dieTo_wf (s : State) (u : UnitId) (st cause : Nat) (h : Memory.wf s.mem = true) : Memory.wf (s.dieTo u st cause).mem = true := by
  unfold State.dieTo
  generalize hs : s.modUnit u _ = t
  have ht : Memory.wf t.mem = true := by rw [← hs, State.modUnit_mem]; exact h
  dsimp only
  split
  · exact State.leaveActive_wf _ _ (by rw [State.refreshAll_mem]; exact ht)
  · rw [State.refreshAll_mem]; exact ht
@[simp] theorem State.quarantine_wf (s : State) (u : UnitId) (cause : Nat) (h : Memory.wf s.mem = true) :
    Memory.wf (s.quarantine u cause).mem = true := by
  unfold State.quarantine
  dsimp only
  split <;> simp [h]
@[simp] theorem State.startReset_wf (s : State) (u : UnitId) (h : Memory.wf s.mem = true) : Memory.wf (s.startReset u).mem = true := by
  unfold State.startReset
  dsimp only
  split
  · exact h
  · rw [State.modUnit_mem]; simp [h]
@[simp] theorem State.scrubDie_wf (s : State) (p : Nat) (h : Memory.wf s.mem = true) : Memory.wf (s.scrubDie p).mem = true := by
  unfold State.scrubDie
  exact State.foldl_inv _ (fun s x h => State.zeroRange_wf _ _ _ h) _ _ (State.zeroRange_wf _ _ _ h)
@[simp] theorem State.clearRegions_mem (s : State) (v : Nat) : (s.clearRegions v).mem = s.mem := by
  unfold State.clearRegions
  exact State.foldl_mem _ (fun s x => by rw [State.modRegion_mem, State.clearElems_mem]) _ _
@[simp] theorem State.clearIslands_mem (s : State) (v : Nat) : (s.clearIslands v).mem = s.mem := by
  unfold State.clearIslands
  exact (State.modDie_mem _ _ _).trans (State.foldl_mem _ (fun s x => State.clearEngines_mem _ _) _ _)
@[simp] theorem State.endReset_wf (s : State) (u : UnitId) (h : Memory.wf s.mem = true) : Memory.wf (s.endReset u).mem = true := by
  unfold State.endReset
  generalize hs : s.modUnit u _ = t
  have ht : Memory.wf t.mem = true := by rw [← hs, State.modUnit_mem]; exact h
  cases u with
  | fabric p => exact State.abandonWaiting_wf _ (by dsimp only; rw [State.clearIslands_mem, State.clearRegions_mem]; exact State.scrubDie_wf _ _ ht)
  | bridge p => exact ht
  | port q => exact ht
@[simp] theorem State.bootDie_mem (s : State) (u : UnitId) : (s.bootDie u).mem = s.mem := by
  unfold State.bootDie; exact State.modUnit_mem _ _ _
@[simp] theorem State.maybeActive_wf (s : State) (u : UnitId) (h : Memory.wf s.mem = true) : Memory.wf (s.maybeActive u).mem = true := by
  have hd : Memory.wf (s.dieTo u 3 0).mem = true := State.dieTo_wf _ _ _ _ h
  unfold State.maybeActive
  dsimp only
  split
  · split
    · exact State.reopened_wf _ (by rw [State.remirror_mem]; exact hd)
    · exact State.reopened_wf _ hd
  · exact State.reopened_wf _ h
@[simp] theorem State.raisePart_mem (s : State) (c : FCode) (pid : Nat) (die : Nat) (detail : Nat) : (s.raisePart c pid die detail).mem = s.mem := by simp [State.raisePart]
@[simp] theorem State.linkDown_mem (s : State) (u : UnitId) (n : Nat) : (s.linkDown u n).mem = s.mem := by
  unfold State.linkDown
  dsimp only
  rw [State.foldl_mem _ (fun s x => by simp)]
  split <;> simp
@[simp] theorem State.reportLaunch_wf (s : State) (pid : Nat) (l : Launch) (h : Memory.wf s.mem = true) : Memory.wf (s.reportLaunch pid l).mem = true := by simp [State.reportLaunch, h]
@[simp] theorem State.stewAnswer_mem (s : State) (e : Nat) (n : Nat) (o : Slot) (a : Operand) (vs : List Nat) : (s.stewAnswer e n o a vs).mem = s.mem := rfl
@[simp] theorem State.stewLater_mem (s : State) (e : Nat) (n : Nat) (o : Slot) (a : Operand) (p : Pending) : (s.stewLater e n o a p).mem = s.mem := rfl
@[simp] theorem State.tick_mem (s : State) (die : Nat) : (s.tick die).mem = s.mem := rfl
@[simp] theorem State.putVft_mem (s : State) (site : Nat) (vf : Nat) (d : Nat) (v : Dword) : (s.putVft site vf d v).mem = s.mem := by unfold State.putVft; split <;> simp
@[simp] theorem State.doDefine_mem (s : State) (pid : Nat) : (s.doDefine pid).mem = s.mem := by
  unfold State.doDefine
  refine (State.foldl_mem _ (fun s x => State.modRegion_mem _ _ _) _ _).trans ?_
  exact (State.setRoutes_mem _ _ _).trans (State.modPart_mem _ _ _)
@[simp] theorem State.ptctAnswer_mem (s : State) (e : Nat) (n : Nat) (o : Slot) (a : Operand) (pid : Nat) (status : Nat) : (s.ptctAnswer e n o a pid status).mem = s.mem := rfl
@[simp] theorem State.dropTlb_mem (s : State) (pid : Nat) (p : TlbEnt → Bool) : (s.dropTlb pid p).mem = s.mem := rfl
@[simp] theorem State.enableVf_mem (s : State) (vf : Nat) : (s.enableVf vf).mem = s.mem := rfl
@[simp] theorem State.applyFuses_mem (s : State) (v : Nat) : (s.applyFuses v).mem = s.mem := by
  unfold State.applyFuses
  exact State.foldl_mem _ (fun s x => by simp) _ _
@[simp] theorem State.swapVdn_mem (s : State) (v w : Nat) : (s.swapVdn v w).mem = s.mem := by
  unfold State.swapVdn
  simp only [State.applyFuses_mem, State.modDie_mem]
@[simp] theorem State.swapVsn_mem (s : State) (v : Nat) (w : Nat) : (s.swapVsn v w).mem = s.mem := rfl
@[simp] theorem State.atstAnswer_mem (s : State) (e : Nat) (n : Nat) (o : Slot) (a : Operand) (u : UnitId) (status : Nat) : (s.atstAnswer e n o a u status).mem = s.mem := rfl
@[simp] theorem State.fltak_mem (s : State) (e : Nat) (n : Nat) (o : Slot) (a : Operand) (x : Option Record) : (s.fltak e n o a x).mem = s.mem := by simp [State.fltak]
@[simp] theorem State.mgmtAnswer_mem (s : State) (op : Nat) (status : Nat) (tag : BitVec 32) (body : List Byte) : (s.mgmtAnswer op status tag body).mem = s.mem := rfl
/-- A management command that leaves memory. -/
theorem State.mgmtServe_mem (s : State) (op : Nat) (tag : BitVec 32) (ok : Bool) (f : State → State × List Byte)
    (hf : (f s).1.mem = s.mem) : (s.mgmtServe op tag ok f).mem = s.mem := by
  unfold State.mgmtServe
  split
  · simp
  · split <;> simp [hf]
@[simp] theorem State.startSteward_mem (s : State) (d : Nat) : (s.startSteward d).mem = s.mem := by
  unfold State.startSteward
  repeat' split
  all_goals first | rfl | simp
@[simp] theorem State.finishSteward_mem (s : State) (d : Nat) : (s.finishSteward d).mem = s.mem := by
  unfold State.finishSteward
  dsimp only
  repeat' split
  all_goals first | rfl | simp
@[simp] theorem State.mapSaved_mem (s : State) (f : Saved → Saved) : (s.mapSaved f).mem = s.mem := rfl
@[simp] theorem State.endTrls_mem (s : State) (panel : Nat) : (s.endTrls panel).mem = s.mem := rfl
@[simp] theorem State.ringHead_wf (s : State) (vf : Nat) (k : Nat) (v : Nat) (h : Memory.wf s.mem = true) : Memory.wf (s.ringHead vf k v).mem = true := by
  unfold State.ringHead
  dsimp only
  repeat' split
  all_goals simp [h]
@[simp] theorem State.completionHead_mem (s : State) (vf : Nat) (q : Nat) (v : Nat) : (s.completionHead vf q v).mem = s.mem := by
  unfold State.completionHead
  dsimp only
  repeat' split
  all_goals first | rfl | simp
@[simp] theorem State.doorbell_wf (s : State) (qpn : Nat) (vf : Nat) (off : Nat) (data : List Byte) (h : Memory.wf s.mem = true) : Memory.wf (s.doorbell qpn vf off data).mem = true := by
  unfold State.doorbell
  repeat' split
  all_goals simp [h]
@[simp] theorem State.hostStore_mem (s : State) (qpn op key g : Nat) (bs : List Byte) : (s.hostStore qpn op key g bs).mem = s.mem := rfl
@[simp] theorem State.hostFar_mem (qpn op key f : Nat) : ∀ (s : State) (g : Nat) (bs : List Byte), (s.hostFar qpn op key g bs f).mem = s.mem := by
  induction f with
  | zero => intro s g bs; rfl
  | succ f ih =>
    intro s g bs
    unfold State.hostFar
    split
    · rfl
    · rw [ih, State.hostStore_mem]
@[simp] theorem State.hostPut_wf (s : State) (qpn op key : Nat) (data : List Byte) (ps : List HostPiece) (h : Memory.wf s.mem = true) :
    Memory.wf (s.hostPut qpn op key data ps).mem = true := by
  unfold State.hostPut
  exact State.foldl_inv _ (fun s x h => by unfold State.Inv at *; dsimp only; split <;> simp [h]) _ _ h
@[simp] theorem State.trySwitch_mem (s : State) (u : UnitId) (n : Nat) (v : UnitId) (m : Nat) : (s.trySwitch u n v m).mem = s.mem := by unfold State.trySwitch; split <;> simp
@[simp] theorem State.deliverTo_wf (s : State) (u : UnitId) (n : Nat) (v : UnitId) (m : Nat) (rx : Bool) (g : BitVec 16)
    (h : Memory.wf s.mem = true) : Memory.wf (s.deliverTo u n v m rx g).mem = true := by
  unfold State.deliverTo
  generalize (if rx then (s.chan u n).rx else (s.chan u n).tx) = w
  generalize (if rx then s.linkGen v m else s.linkGen u n) = due
  dsimp only
  split
  · exact h
  split
  · split <;> simp [h]
  · refine State.maybeActive_wf _ _ (State.maybeActive_wf _ _ ?_)
    rw [State.refreshKeyed_mem]
    (repeat' split) <;> simp [h]
@[simp] theorem State.recheck_wf (s : State) (u : UnitId) (sigOk : Bool) (h : Memory.wf s.mem = true) : Memory.wf (s.recheck u sigOk).mem = true := by
  unfold State.recheck
  repeat' split
  all_goals simp [h]
@[simp] theorem State.tagFailed_wf (s : State) (u : UnitId) (n : Nat) (v : UnitId) (m : Nat) (chkOk peerOk : Bool)
    (h : Memory.wf s.mem = true) : Memory.wf (s.tagFailed u n v m chkOk peerOk).mem = true := by
  unfold State.tagFailed
  dsimp only
  split
  · exact State.quarantine_wf _ _ _ (State.quarantine_wf _ _ _ (by simp [h]))
  · exact State.recheck_wf _ _ _ (State.recheck_wf _ _ _ (by simp [h]))
@[simp] theorem State.configure_mem (s : State) (b : Boot) : (s.configure b).mem = s.mem := by unfold State.configure; split <;> simp
@[simp] theorem State.calibrate_mem (s : State)  : (s.calibrate).mem = s.mem := by
  unfold State.calibrate
  exact State.foldl_mem _ (fun s x => by split <;> rfl) _ _
@[simp] theorem State.spdmReply_mem (s : State) (u : UnitId) (code : Nat) (body : List Byte) : (s.spdmReply u code body).mem = s.mem := rfl
@[simp] theorem State.spdmError_mem (s : State) (u : UnitId) (code : Nat) : (s.spdmError u code).mem = s.mem := rfl
@[simp] theorem State.modSpdm_mem (s : State) (u : UnitId) (f : Spdm → Spdm) : (s.modSpdm u f).mem = s.mem := rfl
/-- A request that leaves memory. -/
theorem State.spdmAsk_mem (s : State) (u : UnitId) (req : List Byte) (ready : Spdm → Bool) (f : State → State) (hf : ∀ t, (f t).mem = t.mem) :
    (s.spdmAsk u req ready f).mem = s.mem := by
  unfold State.spdmAsk
  dsimp only
  repeat' split
  all_goals first | rfl | (simp [hf]; done)
@[simp] theorem State.sealed_mem (s : State) (u : UnitId) (code : Nat) (body : List Byte) : (s.sealed u code body).mem = s.mem := rfl
@[simp] theorem State.attest_wf (s : State) (u : UnitId) (h : Memory.wf s.mem = true) : Memory.wf (s.attest u).mem = true := by
  unfold State.attest
  dsimp only
  split <;> simp [h]
@[simp] theorem State.depReached_mem (s : State) (pid : Nat) (lnch : Nat) (q : Req) : (s.depReached pid lnch q).mem = s.mem := by unfold State.depReached; split <;> simp
@[simp] theorem State.farAtomic_mem (s : State) (q : Req) (data : List Byte) : (s.farAtomic q data).mem = s.mem := by unfold State.farAtomic; split <;> simp
@[simp] theorem State.farAnswer_mem (s : State) (tag : Nat) (g : Nat) (code : Nat) (data : List Byte) : (s.farAnswer tag g code data).mem = s.mem := by
  unfold State.farAnswer
  repeat' split
  all_goals first | rfl | simp
@[simp] theorem State.ackStore_mem (s : State) (bs : List Byte) : (s.ackStore bs).mem = s.mem := by unfold State.ackStore; split <;> simp
@[simp] theorem State.trlsAcked_mem (s : State) (panel : Nat) (n : Nat) (apsn : Nat) : (s.trlsAcked panel n apsn).mem = s.mem := by
  unfold State.trlsAcked
  dsimp only
  split
  · rfl
  · rw [State.foldl_mem _ (fun s x => by simp)]; rfl
@[simp] theorem State.streamFailed_mem (s : State) (panel n : Nat) : (s.streamFailed panel n).mem = s.mem := by
  unfold State.streamFailed
  dsimp only
  rw [State.foldl_mem _ (fun s x => by split <;> simp)]
  rfl
@[simp] theorem State.resend_mem (s : State) (panel n psn : Nat) : (s.resend panel n psn).mem = s.mem := by
  unfold State.resend
  dsimp only
  split
  · rfl
  split
  · simp
  · rw [State.foldl_mem _ (fun s x => by simp)]; simp
/-- A packet of another panel, what it does keeping the canonical form, keeps it. -/
theorem State.trlsTake_wf (s : State) (h : TrlsHdr) (f : State → State) (hf : ∀ t, Memory.wf t.mem = true → Memory.wf (f t).mem = true)
    (hs : Memory.wf s.mem = true) : Memory.wf (s.trlsTake h f).mem = true := by
  unfold State.trlsTake
  dsimp only
  split
  · exact hs
  split
  · rw [State.trlsControl_mem]; exact hf _ (by simp [hs])
  split <;> simp [hs]
/-- A request of another panel, what it does keeping the canonical form, keeps it. -/
theorem State.serveIn_wf (s : State) (h : TrlsHdr) (need : Rights) (f : State → Nat → State)
    (hf : ∀ t a, Memory.wf t.mem = true → Memory.wf (f t a).mem = true) (hs : Memory.wf s.mem = true) :
    Memory.wf (s.serveIn h need f).mem = true := by
  unfold State.serveIn
  split
  · simp [hs]
  · exact hf _ _ hs
@[simp] theorem State.answerIn_mem (s : State) (h : TrlsHdr) (code : Nat) (data : List Byte) : (s.answerIn h code data).mem = s.mem := by simp [State.answerIn]
@[simp] theorem State.waitIn_mem (s : State) (h : TrlsHdr) (op : ReqOp) (a : Nat) : (s.waitIn h op a).mem = s.mem := rfl
@[simp] theorem State.settleAges_mem (s : State) (e : Nat) : (s.settleAges e).mem = s.mem := by
  unfold State.settleAges
  exact State.foldl_mem _ (fun s x => by split <;> simp) _ _
@[simp] theorem State.park_mem (s : State) (e : Nat) (n : Nat) (o : Slot) : (s.park e n o).mem = s.mem := by simp [State.park]
@[simp] theorem State.unpark_mem (s : State) (e : Nat) (x : Parked) : (s.unpark e x).mem = s.mem := by
  unfold State.unpark
  rw [State.modElem_mem]
  split <;> simp
@[simp] theorem State.assumed_mem (s : State) (e : Nat) : (s.assumed e).mem = s.mem := rfl
@[simp] theorem State.squash_mem (s : State) (e : Nat) (x : Parked) : (s.squash e x).mem = s.mem := by
  unfold State.squash
  rw [State.modElem_mem, State.release_mem]
@[simp] theorem State.landed_mem (s : State) (e : Nat) : (s.landed e).mem = s.mem := by
  unfold State.landed
  rw [State.foldl_mem _ (fun s x => by simp)]; rfl
end Sys2Proof.Machine
end

