-- ==== Sys2Proof/Laws/Firing.lean ====
section
/-! SUPPORT. What a firing can do, said once: it completes with what its sources give, or raises one fault and has no other effect; it
always answers a next state; and what its trigger stage and its completion leave alone. -/

namespace Sys2Proof.Machine

/-! The answer of a firing. -/

/-- A firing whose sources pass: its trigger effects, then its own. -/
theorem fireWith_ok {o : Slot} {f : Fn} {g : State → Nat → Nat → Env → Except FCode (State → State)} {s : State} {k : State → State}
    (h : g s s.cur.1 s.cur.2 (s.envOf s.cur.1 s.cur.2 o f) = .ok k) :
    fireWith o f g s = .next (k (s.trigger s.cur.1 s.cur.2 o o.icn)) := by unfold fireWith; rw [h]

/-- A firing that a check turns away: its fault and nothing else. -/
theorem fireWith_error {o : Slot} {f : Fn} {g : State → Nat → Nat → Env → Except FCode (State → State)} {s : State} {c : FCode}
    (h : g s s.cur.1 s.cur.2 (s.envOf s.cur.1 s.cur.2 o f) = .error c) :
    fireWith o f g s = .next (s.raiseSlot c s.cur.1 s.cur.2) := by unfold fireWith; rw [h]

/-- Everything a firing can do. -/
theorem fireWith_next {o : Slot} {f : Fn} {g : State → Nat → Nat → Env → Except FCode (State → State)} {s t : State}
    (h : fireWith o f g s = .next t) :
    (∃ c, g s s.cur.1 s.cur.2 (s.envOf s.cur.1 s.cur.2 o f) = .error c ∧ t = s.raiseSlot c s.cur.1 s.cur.2)
    ∨ (∃ k, g s s.cur.1 s.cur.2 (s.envOf s.cur.1 s.cur.2 o f) = .ok k ∧ t = k (s.trigger s.cur.1 s.cur.2 o o.icn)) := by
  unfold fireWith at h
  split at h <;> cases h
  · exact .inl ⟨_, by assumption, rfl⟩
  · exact .inr ⟨_, by assumption, rfl⟩

/-- A firing always answers a next state. -/
theorem fireWith_answers (o : Slot) (f : Fn) (g : State → Nat → Nat → Env → Except FCode (State → State)) (s : State) :
    ∃ t, fireWith o f g s = .next t := by unfold fireWith; split <;> exact ⟨_, rfl⟩

/-- What may leave an element, its way open. -/
theorem State.leaving_ok {s : State} {e : Nat} {ts : List Nat} {k : State → State} (h : s.outStop e ts = none) :
    s.leaving e ts k = .ok k := by unfold State.leaving; rw [h]

/-- What may not, its way stopped. -/
theorem State.leaving_error {s : State} {e : Nat} {ts : List Nat} {k : State → State} {c : FCode} (h : s.outStop e ts = some c) :
    s.leaving e ts k = .error c := by unfold State.leaving; rw [h]

/-- A firing in its element whose sources pass, and whose packets' way is open, completes with what its instruction gives. -/
theorem fire_ok {o : Slot} {f : Fn} {act : Fn → Env → Except FCode Act} {s : State} {a : Act}
    (h : act f (s.envOf s.cur.1 s.cur.2 o f) = .ok a) (hs : s.outStop s.cur.1 (a.entries o) = none) :
    fire o f act s = .next ((s.trigger s.cur.1 s.cur.2 o o.icn).complete s.cur.1 s.cur.2 o a) := by
  unfold fire fireWith
  simp only [h, bind, Except.bind, State.leaving_ok hs]

/-- A firing in its element whose packet's way is stopped (R58, R95). -/
theorem fire_stopped {o : Slot} {f : Fn} {act : Fn → Env → Except FCode Act} {s : State} {a : Act} {c : FCode}
    (h : act f (s.envOf s.cur.1 s.cur.2 o f) = .ok a) (hs : s.outStop s.cur.1 (a.entries o) = some c) :
    fire o f act s = .next (s.raiseSlot c s.cur.1 s.cur.2) := by
  unfold fire fireWith
  simp only [h, bind, Except.bind, State.leaving_error hs]

/-- A firing in its element that a check turns away. -/
theorem fire_error {o : Slot} {f : Fn} {act : Fn → Env → Except FCode Act} {s : State} {c : FCode}
    (h : act f (s.envOf s.cur.1 s.cur.2 o f) = .error c) : fire o f act s = .next (s.raiseSlot c s.cur.1 s.cur.2) := by
  unfold fire fireWith; simp only [h]; rfl

/-- Everything a firing in its element can do. -/
theorem fire_next {o : Slot} {f : Fn} {act : Fn → Env → Except FCode Act} {s t : State} (h : fire o f act s = .next t) :
    (∃ c, act f (s.envOf s.cur.1 s.cur.2 o f) = .error c ∧ t = s.raiseSlot c s.cur.1 s.cur.2)
    ∨ (∃ a c, act f (s.envOf s.cur.1 s.cur.2 o f) = .ok a ∧ s.outStop s.cur.1 (a.entries o) = some c
      ∧ t = s.raiseSlot c s.cur.1 s.cur.2)
    ∨ (∃ a, act f (s.envOf s.cur.1 s.cur.2 o f) = .ok a ∧ s.outStop s.cur.1 (a.entries o) = none
      ∧ t = (s.trigger s.cur.1 s.cur.2 o o.icn).complete s.cur.1 s.cur.2 o a) := by
  rcases ha : act f (s.envOf s.cur.1 s.cur.2 o f) with c | a
  · rw [fire_error ha] at h; cases h; exact .inl ⟨c, rfl, rfl⟩
  · rcases hs : s.outStop s.cur.1 (a.entries o) with _ | c
    · rw [fire_ok ha hs] at h; cases h; exact .inr (.inr ⟨a, rfl, hs, rfl⟩)
    · rw [fire_stopped ha hs] at h; cases h; exact .inr (.inl ⟨a, c, rfl, hs, rfl⟩)

theorem fire_answers (o : Slot) (f : Fn) (act : Fn → Env → Except FCode Act) (s : State) : ∃ t, fire o f act s = .next t :=
  fireWith_answers o f _ s

/-- Everything a firing that leaves a memory request can do (R152, R314). -/
theorem fireAt_next {o : Slot} {f : Fn} {g : State → Nat → Nat → Env → Except AccessFault (State → State)} {s t : State}
    (h : fireAt o f g s = .next t) :
    (∃ c, g s s.cur.1 s.cur.2 (s.envOf s.cur.1 s.cur.2 o f) = .error (c, none) ∧ t = s.raiseSlot c s.cur.1 s.cur.2)
    ∨ (∃ c va, g s s.cur.1 s.cur.2 (s.envOf s.cur.1 s.cur.2 o f) = .error (c, some va) ∧ t = s.raiseAccess c s.cur.1 s.cur.2 va)
    ∨ (∃ k, g s s.cur.1 s.cur.2 (s.envOf s.cur.1 s.cur.2 o f) = .ok k ∧ t = k (s.trigger s.cur.1 s.cur.2 o o.icn)) := by
  unfold fireAt at h
  split at h <;> cases h
  · exact .inl ⟨_, by assumption, rfl⟩
  · exact .inr (.inl ⟨_, _, by assumption, rfl⟩)
  · exact .inr (.inr ⟨_, by assumption, rfl⟩)

theorem fireAt_answers (o : Slot) (f : Fn) (g : State → Nat → Nat → Env → Except AccessFault (State → State)) (s : State) :
    ∃ t, fireAt o f g s = .next t := by unfold fireAt; split <;> exact ⟨_, rfl⟩

/-! Memory across a firing. -/

/-- A firing whose own effects keep the canonical form keeps it. -/
theorem fireWith_wf (o : Slot) (f : Fn) (g : State → Nat → Nat → Env → Except FCode (State → State)) (s t : State)
    (h : Memory.wf s.mem = true)
    (hg : ∀ k, g s s.cur.1 s.cur.2 (s.envOf s.cur.1 s.cur.2 o f) = .ok k → ∀ u, Memory.wf u.mem = true → Memory.wf (k u).mem = true)
    (e : fireWith o f g s = .next t) : Memory.wf t.mem = true := by
  obtain ⟨c, _, rfl⟩ | ⟨k, hk, rfl⟩ := fireWith_next e
  · simp [h]
  · exact hg k hk _ (by simp [h])

theorem fireAt_wf (o : Slot) (f : Fn) (g : State → Nat → Nat → Env → Except AccessFault (State → State)) (s t : State)
    (h : Memory.wf s.mem = true)
    (hg : ∀ k, g s s.cur.1 s.cur.2 (s.envOf s.cur.1 s.cur.2 o f) = .ok k → ∀ u, Memory.wf u.mem = true → Memory.wf (k u).mem = true)
    (e : fireAt o f g s = .next t) : Memory.wf t.mem = true := by
  obtain ⟨c, _, rfl⟩ | ⟨c, va, _, rfl⟩ | ⟨k, hk, rfl⟩ := fireAt_next e
  · simp [h]
  · simp [h]
  · exact hg k hk _ (by simp [h])

/-- A firing that completes in its element leaves memory. -/
theorem fire_mem {o : Slot} {f : Fn} {act : Fn → Env → Except FCode Act} {s t : State} (e : fire o f act s = .next t) : t.mem = s.mem := by
  obtain ⟨c, _, rfl⟩ | ⟨a, c, _, _, rfl⟩ | ⟨a, _, _, rfl⟩ := fire_next e <;> simp

end Sys2Proof.Machine
end

