-- ==== Sys2Proof/Tests/Slice0.lean ====
section
/-! SUPPORT. Tests: words of the spec's own programs and worked examples decode to their instructions; ill-formed instructions are
refused; worked examples of the spec computed by one instruction; and states that meet the hypotheses of the statements. -/

namespace Sys2Proof.Tests

open Sys2Proof Sys2Proof.Machine Sys2Proof.Claims

/-! The tests run one after another, so that their memory is not all in use at once. -/
set_option Elab.async false


/-! Decoding. The words are those of the spec's programs (R409, R413, chapters 16 to 18) and of its reference entries; most have the
trigger half 0xC008_0000: V, AWT, NSM 10. -/

/-- The slot of a line "(aw) OP a, b -> dt, tt" (R306). -/
def line (sa sb dt tt : BitVec 4) : Slot := { awt := true, nsm := 2, sa := sa, sb := sb, dt := dt, tt := tt }

/-- The word of such a line, from its operation half. -/
def word (half : Nat) : Dword := BitVec.ofNat 64 (0xC0080000 * 2 ^ 32 + half)

theorem test_decode_integer :
    (decodeSlot (word 0x0489_8F08)).toOption = some (.mul (line 8 9 8 15) (.ty .s32 0))
    ∧ (decodeSlot (word 0x0289_8F08)).toOption = some (.sub (line 8 9 8 15) (.ty .s32 0))
    ∧ (decodeSlot (word 0x008B_8F06)).toOption = some (.add (line 8 11 8 15) (.sh 0 6))
    ∧ (decodeSlot (word 0x0E8B_8101)).toOption = some (.and (line 8 11 8 1) (.sh 0 1))
    ∧ (decodeSlot (word 0x148B_8106)).toOption = some (.shr (line 8 11 8 1) (.sh 0 6))
    ∧ (decodeSlot (word 0x1D8F_8F08)).toOption = some (.cmp (line 8 15 8 15) (.ty .s32 0))
    ∧ (decodeSlot (word 0x1F89_8108)).toOption = some (.qdiv (line 8 9 8 1) (.ty .s32 0)) := by decide +kernel

theorem test_decode_float :
    (decodeSlot (word 0x2289_8F40)).toOption = some (.fmul (line 8 9 8 15) (.tr .f32 .rne))
    ∧ (decodeSlot (word 0x2389_8F40)).toOption = some (.fma (line 8 9 8 15) (.tr .f32 .rne))
    ∧ (decodeSlot (word 0x2C8F_8F50)).toOption = some (.fcvt (line 8 15 8 15) (.tr .bf16 .rne))
    ∧ (decodeSlot (word 0x388F_8F40)).toOption = some (.ficv (line 8 15 8 15) (.tr .f32 .rne))
    ∧ (decodeSlot (word 0x378F_8140)).toOption = some (.fsncs (line 8 15 8 1) (.ty .f32 0)) := by decide +kernel

theorem test_decode_lanes_and_scales :
    (decodeSlot (word 0x468F_8130)).toOption = some (.lext (line 8 15 8 1) (.ty .n64 0))
    ∧ (decodeSlot (word 0x438F_8F06)).toOption = some (.lswap (line 8 15 8 15) (.im 6))
    ∧ (decodeSlot (word 0x5089_8F51)).toOption = some (.dot (line 8 9 8 15) (.ty .bf16 1))
    ∧ (decodeSlot 0xC008_0000_528F_8F98).toOption = some (.sclx (line 8 15 8 15) (.ty (.b8 3) 0)) := by decide +kernel

theorem test_decode_flow :
    (decodeSlot (word 0x608F_8100)).toOption = some (.fwd (line 8 15 8 1) (.im 0))
    ∧ (decodeSlot (word 0x6189_8F01)).toOption = some (.steer (line 8 9 8 15) (.im 1))
    ∧ (decodeSlot 0x8005_8FDE_672F_0F20).toOption = some (.stset { nsm := 1, ns := 0x18, gm := 0x3F, gv := 0x1E, sa := 2, sb := 15, tt := 15 } (.im 0x20))
    ∧ (decodeSlot 0xC008_0000_698F_0F02).toOption = some (.exit (line 8 15 0 15) (.im 2))
    ∧ (decodeSlot (word 0x6A8F_0F00)).toOption = some (.nop (line 8 15 0 15) (.im 0))
    ∧ (decodeSlot 0x8008_0000_6BFF_0F00).toOption = some (.trap { nsm := 2, sa := 15, sb := 15, tt := 15 } (.im 0))
    ∧ (decodeSlot 0x8008_0000_6CFF_0F00).toOption = some (.brk { nsm := 2, sa := 15, sb := 15, tt := 15 } (.im 0)) := by decide +kernel

theorem test_decode_memory :
    (decodeSlot (word 0x718F_8F01)).toOption = some (.stb (line 8 15 8 15) (.im 1))
    ∧ (decodeSlot (word 0x7689_8F01)).toOption = some (.scat (line 8 9 8 15) (.im 1))
    ∧ (decodeSlot 0xC008_0000_7912_8F72).toOption = some (.atb (line 1 2 8 15) (.im 0x72))
    ∧ (decodeSlot (word 0x808F_8F43)).toOption = some (.ldg (line 8 15 8 15) (.ty .f32 3))
    ∧ (decodeSlot (word 0x8189_8F52)).toOption = some (.stg (line 8 9 8 15) (.ty .bf16 2))
    ∧ (decodeSlot 0xC104_30C2_800F_4F02).toOption
        = some (.ldg { awt := true, ocs := 1, nsm := 1, ns := 3, gm := 3, gv := 2, sa := 0, sb := 15, dt := 4, tt := 15 } (.ty .n32 2)) := by
  decide +kernel

theorem test_decode_engines :
    (decodeSlot (word 0x968F_8F01)).toOption = some (.mgopen (line 8 15 8 15) (.im 1))
    ∧ (decodeSlot 0x8118_0000_A04F_4F50).toOption = some (.mxtok { ocs := 1, icn := 1, nsm := 2, sa := 4, sb := 15, dt := 4, tt := 15 } (.im 0x50))
    ∧ (decodeSlot 0x8104_31C2_A0FF_4F40).toOption
        = some (.mxtok { ocs := 1, nsm := 1, ns := 3, gm := 7, gv := 2, sa := 15, sb := 15, dt := 4, tt := 15 } (.im 0x40)) := by
  decide +kernel

theorem test_decode_steward :
    (decodeSlot (word 0xE389_8F00)).toOption = some (.scwrVft (line 8 9 8 15) (.im 0))
    ∧ (decodeSlot (word 0xE589_8F01)).toOption = some (.ptctWrite (line 8 9 8 15) (.im 1))
    ∧ (decodeSlot (word 0xE589_8F21)).toOption = some (.ptctWrite (line 8 9 8 15) (.im 0x21))
    ∧ (decodeSlot (word 0xE58F_8F02)).toOption = some (.ptctDefine (line 8 15 8 15) (.im 2))
    ∧ (decodeSlot (word 0xE98F_8F01)).toOption = some (.vfenSet (line 8 15 8 15) (.im 1)) := by decide +kernel

theorem test_decode_sequencer :
    (decodeSeq 0xC200_0001_3FFF_FFE0 0).toOption = some (.sqloop 0 4 0x3FFF_FFE0)
    ∧ (decodeSeq 0xC402_8000_0000_0000 0x1000).toOption = some (.sqlaunch 0 0 5 0 0x1000)
    ∧ (decodeSeq 0xC600_0000_0000_0000 0).toOption = some .sqend := by decide +kernel

theorem test_decode_tokens :
    (decodeTok 0x0E80_20C6_8000_8000).toOption = some (.mmsc { mc := 2, nc := 2, kb := 8, fa := 6, fb := 6, acc := true, ntf := true })
    ∧ (decodeTok 0x0A80_20C6_9000_8000).toOption = some (.mmas { mc := 2, nc := 2, kb := 8, fa := 6, fb := 6, acc := true, nms := 1, ntf := true })
    ∧ (decodeTok 0x1680_0000_0000_0000).toOption = some (.mzero { mc := 2, nc := 2 }) := by decide +kernel

/-- QP_CLOSE of queue pair 2 under tag 7, laid out by R268; and the same with a reserved byte set. -/
theorem test_decode_management :
    decodeMgmt [6, 0, 4, 0, 7, 0, 0, 0, 0, 0, 0, 0, 0, 0, 0, 0, 2, 0, 0, 0] = .qpClose 7 2
    ∧ decodeMgmt [6, 0, 4, 0, 7, 0, 0, 0, 1, 0, 0, 0, 0, 0, 0, 0, 2, 0, 0, 0]
        = .mgmtMalformedCommand [6, 0, 4, 0, 7, 0, 0, 0, 1, 0, 0, 0, 0, 0, 0, 0, 2, 0, 0, 0] := by decide +kernel

/-- An ACK from panel 2 to panel 1 on stream 3 that acknowledges 9, laid out by R264; and a packet of another version. -/
theorem test_decode_trls :
    (decodeTrls [0x15, 0, 2, 0, 1, 0, 0, 0, 3, 0, 0, 0, 0, 0, 0, 0, 9, 0, 0, 0, 0, 0, 0, 0, 0, 0, 0, 0, 0, 0, 0, 0]).toOption
        = some (.trlsAck { spanel := 2, dpanel := 1, stream := 3, apsn := 9 })
    ∧ (decodeTrls [0x25, 0, 2, 0, 1, 0, 0, 0, 3, 0, 0, 0, 0, 0, 0, 0, 9, 0, 0, 0, 0, 0, 0, 0, 0, 0, 0, 0, 0, 0, 0, 0]).toOption = none := by
  decide +kernel

/-! Well-formedness: one ill-formed term for each check, refused, beside a well-formed one. -/

/-- ADD.n32 d0, d1 -> d2, which every check accepts. -/
def plain : Slot := { sa := 0, sb := 1, dt := 2, tt := 15 }

theorem test_wellFormed_accepts :
    Instr.wellFormed (.add plain (.ty .n32 0)) = true ∧ Instr.wellFormed (.sqloop 0 1 0x3FFF_FFFF) = true
    ∧ Instr.wellFormed (.sqlaunch 0 0 5 0 0) = true ∧ Instr.wellFormed (.peerSet 0 1 [0, 0, 0, 0]) = true
    ∧ Instr.wellFormed (.trlsUndefinedOp 8 {}) = true := by decide +kernel

/-- NSM 11 (R75). -/
theorem test_wellFormed_nextState : Instr.wellFormed (.add { plain with nsm := 3 } (.ty .n32 0)) = false := by decide +kernel

/-- A type, a sub-code, a rounding or an immediate that the entry does not define (R284). -/
theorem test_wellFormed_function :
    Instr.wellFormed (.add plain (.ty .f32 0)) = false ∧ Instr.wellFormed (.add plain (.ty .n32 1)) = false
    ∧ Instr.wellFormed (.fadd plain (.tr .f32 .sr)) = false
    ∧ Instr.wellFormed (.nop { sa := 15, sb := 15, tt := 15 } (.im 1)) = false := by decide +kernel

/-- Selectors 11 and 13 together, and a WID field 6 (R74). -/
theorem test_wellFormed_short :
    Instr.wellFormed (.add { plain with sa := 11, sb := 13 } (.sh 0 0)) = false
    ∧ Instr.wellFormed (.add { plain with sb := 13 } (.sh 6 0)) = false := by decide +kernel

/-- A second source where the entry takes one (R74). -/
theorem test_wellFormed_sources : Instr.wellFormed (.not plain (.ty .n32 0)) = false := by decide +kernel

/-- A channel named but not read, and one read but not named (R74). -/
theorem test_wellFormed_channels :
    Instr.wellFormed (.add { plain with icn := 1 } (.ty .n32 0)) = false
    ∧ Instr.wellFormed (.add { plain with sa := 4 } (.ty .n32 0)) = false := by decide +kernel

/-- TT 8 to 14, DT and TT naming one entry, an output channel outside OCS, and no second destination for two results (R76). -/
theorem test_wellFormed_destinations :
    Instr.wellFormed (.add { plain with tt := 8 } (.ty .n32 0)) = false
    ∧ Instr.wellFormed (.add { plain with dt := 8, tt := 0 } (.ty .n32 0)) = false
    ∧ Instr.wellFormed (.add { plain with dt := 4 } (.ty .n32 0)) = false
    ∧ Instr.wellFormed (.fsncs { plain with sb := 15 } (.ty .f32 0)) = false := by decide +kernel

/-- SQLOOP with COUNT 0 or OFF not negative, and SQLAUNCH with BIT 6 (R299). -/
theorem test_wellFormed_sequencer :
    Instr.wellFormed (.sqloop 0 0 0x3FFF_FFFF) = false ∧ Instr.wellFormed (.sqloop 0 1 4) = false
    ∧ Instr.wellFormed (.sqlaunch 0 0 6 0 0) = false := by decide +kernel

/-- A header of 15 doublewords, five addresses, a payload over 4,096 bytes, and a defined TRLS OP given as undefined (R264, R268). -/
theorem test_wellFormed_messages :
    Instr.wellFormed (.stwLaunch 0 0 (List.replicate 15 0)) = false ∧ Instr.wellFormed (.peerSet 0 1 (List.replicate 5 0)) = false
    ∧ Instr.wellFormed (.trlsAck { payload := List.replicate 4097 0 }) = false
    ∧ Instr.wellFormed (.trlsUndefinedOp 7 {}) = false := by decide +kernel

/-! Worked examples of the spec, each by one instruction on a small state. -/

/-- A packet of lanes with a format. -/
def pk (t : Ty) (ls : List Lane) : Packet := { fmt := tyFmt t, fpx := tyFpx t, lanes := ls }

/-- Element 0 of region 0 of die 0, in a RUNNING partition, with D0, D1 and field P filled and slot 0 about to fire. -/
def seat (a b : Packet) (p : Option Packet := none) : State :=
  let el : Elem := { d := [(0, some a), (1, some b)], slots := [(0, { frm := 1, p := p.map (fun x => { pkt := x }) })] }
  { regions := [(0, Region.placed {} false)], elems := [(0, el)], parts := [(0, { pstat := putBits 0 61 3 2 })] }

/-- The lanes left in a data register, the flags, and the codes of the faults raised. -/
def lanesIn (r : Host.Outcome State Fault Refusal) (n : Nat) : Option (List Lane) :=
  match r with | .next s => ((s.elem 0).d.get n).map (fun p => p.lanes) | _ => none
def flagsIn (r : Host.Outcome State Fault Refusal) : BitVec 32 := match r with | .next s => (s.elem 0).es | _ => 0
def codesIn (r : Host.Outcome State Fault Refusal) : List Nat := match r with | .next s => s.recs.map (fun m => m.record.code) | _ => []

/-- QDIV.s32: (1,071, 462) gives 2 and 147, (−7, 2) gives −3 and −1; a divisor of zero faults (R379). -/
theorem test_qdiv :
    (match exec (.qdiv { plain with tt := 0 } (.ty .s32 0)) (seat (pk .s32 [1071, -7]) (pk .s32 [462, 2])) with
     | .next s => (((s.elem 0).d.get 2).map (fun p => p.lanes), s.net.map (fun x => x.pkt.lanes)) | _ => (none, []))
        = (some [2, -3], [[147, -1]])
    ∧ codesIn (exec (.qdiv { plain with tt := 0 } (.ty .s32 0)) (seat (pk .s32 [1]) (pk .s32 [0]))) = [0x23] := by decide +kernel

/-- ADD wraps and ADDS holds at the limit, with SAT (R312, R316, R318). -/
theorem test_add_wraps :
    lanesIn (exec (.add plain (.ty .s32 0)) (seat (pk .s32 [0x7FFFFFFF]) (pk .s32 [1]))) 2 = some [0x80000000]
    ∧ lanesIn (exec (.adds plain (.ty .s32 0)) (seat (pk .s32 [0x7FFFFFFF]) (pk .s32 [1]))) 2 = some [0x7FFFFFFF]
    ∧ flagsIn (exec (.adds plain (.ty .s32 0)) (seat (pk .s32 [0x7FFFFFFF]) (pk .s32 [1]))) = esSAT := by decide +kernel

/-- PHLX with counter and key zero (R125), and RNGF of 0x8000_0000 (R126). -/
theorem test_random_words :
    lanesIn (exec (.phlx { plain with sb := 15 } (.im 0)) (seat (pk .n32 [0, 0, 0, 0]) {})) 2
        = some [0x6627_E8D5, 0xE169_C58D, 0xBC57_AC4C, 0x9B00_DBD8]
    ∧ lanesIn (exec (.rngf { plain with sb := 15 } (.ty .f32 0)) (seat (pk .n32 [0x8000_0000]) {})) 2 = some [0x3F00_0000] := by
  decide +kernel

/-- SCLX.b8p4 of 272, 2^−130, 0 and +∞ (R388). -/
theorem test_sclx :
    let run (x : Lane) : Host.Outcome State Fault Refusal := exec (.sclx { plain with sb := 15 } (.ty (.b8 3) 0)) (seat (pk .f32 [x]) {})
    (lanesIn (run 0x4388_0000) 2, flagsIn (run 0x4388_0000)) = (some [0x80], 0)
    ∧ (lanesIn (run 0x0008_0000) 2, flagsIn (run 0x0008_0000)) = (some [0], esSCUND)
    ∧ (lanesIn (run 0) 2, flagsIn (run 0)) = (some [0], 0)
    ∧ (lanesIn (run 0x7F80_0000) 2, flagsIn (run 0x7F80_0000)) = (some [0xFE], esNV) := by decide +kernel

/-- FADD: 1.0 + 2^−24 is halfway and rounds to even, with NX; 2^−24 + 2^−24 is exact (the folds of chapter 8's example). -/
theorem test_fadd :
    lanesIn (exec (.fadd plain (.tr .f32 .rne)) (seat (pk .f32 [0x3F80_0000, 0x3380_0000]) (pk .f32 [0x3380_0000]))) 2
        = some [0x3F80_0000, 0x3400_0000]
    ∧ flagsIn (exec (.fadd plain (.tr .f32 .rne)) (seat (pk .f32 [0x3F80_0000]) (pk .f32 [0x3380_0000]))) = esNX := by decide +kernel

/-- A 6-product DOT.f32: the table of chapter 4 ends at −2^−94 in one operation. -/
theorem test_dot_one_operation :
    (match exec (.dot plain (.ty .f32 0))
        (let s := seat (pk .f32 [0x4E80_0000, 0xCE80_0000, 0, 0xA680_0000, 0, 0])
            (pk .f32 [0x4E80_0000, 0x4E80_0000, 0, 0x2680_0000, 0, 0]) (some (pk .n32 [0]))
         s.modElem 0 (fun e => { e with fcw := 0 })) with
     | .next s => some ((s.elem 0).acc.get 0) | _ => none) = some 0xBFA1_8000_0000_0000_0000_0000 := by decide +kernel

/-- A length that does not match is F_PKLEN, a type that does not is F_FMT, a scaled packet is F_SCALETAG (R87). -/
theorem test_source_checks :
    codesIn (exec (.add plain (.ty .n32 0)) (seat (pk .n32 [1, 2, 3]) (pk .s32 [1, 2]))) = [0x20]
    ∧ codesIn (exec (.add plain (.ty .n32 0)) (seat (pk .n32 [1]) (pk .s32 [1]))) = [0x21]
    ∧ codesIn (exec (.add plain (.ty .n32 0)) (seat { pk .n32 [1] with sc := true } (pk .n32 [1]))) = [0x22] := by decide +kernel

/-- TRAP holds its element and leaves the partition running; BRK freezes it (R331, R405). -/
theorem test_trap_and_brk :
    (match exec (.trap { sa := 0, sb := 15, tt := 15 } (.im 0)) (seat (pk .n32 [7, 1]) {}) with
     | .next s => (s.recs.map (fun m => (m.record.code, m.record.detail)), pState (s.part 0)) | _ => ([], 0)) = ([(0x60, 7 + 2 ^ 32)], 2)
    ∧ (match exec (.brk { sa := 15, sb := 15, tt := 15 } (.im 0)) (seat {} {}) with
       | .next s => (s.recs.map (fun m => m.record.code), pState (s.part 0), pCause (s.part 0)) | _ => ([], 0, 0)) = ([0x61], 3, 2) := by
  decide +kernel

/-- A misaligned and a non-canonical address fault (R143). -/
theorem test_address_faults :
    codesIn (exec (.ldg { plain with sb := 15 } (.ty .n32 1)) (seat (pk .n64 [4, 0]) {})) = [0x32]
    ∧ codesIn (exec (.ldg { plain with sb := 15 } (.ty .n32 0)) (seat (pk .n64 [0, 0x0200_0000]) {})) = [0x33] := by decide +kernel


/-! States that meet the hypotheses of the statements. -/

/-- From element 0 of `seat` every way is open (R58, R222). -/
theorem seat_way (a b : Packet) (p : Option Packet) (ts : List Nat) : (seat a b p).outStop 0 ts = none := by
  have h0 : (seat a b p).hop 0 (tDx 0) (tDy 0) = some 0 := by
    have : (seat a b p).hop 0 (tDx 0) (tDy 0) = (seat {} {}).hop 0 (tDx 0) (tDy 0) := rfl
    rw [this]; decide +kernel
  have hd : (seat a b p).destOf 0 0 = some (.field 0 0 0) := by
    simp only [State.destOf, h0]; rfl
  have hs : (seat a b p).sendStop 0 (.field 0 0 0) = none := rfl
  have h : ∀ t, (((seat a b p).destOf 0 (((seat a b p).elem 0).t.get t)).bind ((seat a b p).sendStop 0)) = none := fun t => by
    have : ((seat a b p).elem 0).t.get t = 0 := rfl
    rw [this, hd]; exact hs
  exact List.findSome?_eq_none_iff.mpr fun t _ => h t

theorem seat_open (a b : Packet) (p : Option Packet) (o : Slot) (x : Act) : wayOpen (seat a b p) o x := seat_way a b p _

/-- What Sources asks, as a test. -/
def sourcesOk (set : TySet) (f : Fn) (e : Env) (srcs : List Operand) (t : Ty) (n : Nat) : Bool :=
  srcTy f e.a e.b == some t && t != .any && tySetHas set t
    && srcs.all (fun x => ownLenOk (srcFor f t x) && hasTy t (srcFor f t x) && !(srcFor f t x).sc)
    && lengthRule (unitOf t) (srcs.map (fun x => (srcFor f t x).lanes.length)) == some n

theorem sources_of_ok {set : TySet} {f : Fn} {e : Env} {srcs : List Operand} {t : Ty} {n : Nat} (h : sourcesOk set f e srcs t n = true) :
    Sources set f e srcs t n := by
  simp only [sourcesOk, Bool.and_eq_true, beq_iff_eq, bne_iff_ne, List.all_eq_true, Bool.not_eq_true'] at h
  obtain ⟨⟨⟨⟨h1, h2⟩, h3⟩, h4⟩, h5⟩ := h
  exact ⟨h1, ⟨h2, h3⟩, fun x hx => ⟨(h4 x hx).1.1, (h4 x hx).1.2, (h4 x hx).2⟩, h5⟩

/-- One lane in each of D0, D1 and P; and the most lanes of a type. -/
def ints : State := seat (pk .s32 [-5]) (pk .s32 [3, 2, 1, 7, 7, 7, 7, 0]) (some (pk .s32 [2]))
def floats : State := seat (pk .f32 [0x3F80_0000]) (pk .f32 [0x4000_0000]) (some (pk .f32 [0x4040_0000]))

theorem test_integer_sources :
    ∀ r ∈ integerRules, sourcesOk r.set (.ty .s32 0) (seen ints plain (.ty .s32 0)) (r.srcs (seen ints plain (.ty .s32 0))) .s32
      (r.srcs (seen ints plain (.ty .s32 0))).length.pred.succ = true ∨ sourcesOk r.set (.ty .s32 0) (seen ints plain (.ty .s32 0))
      (r.srcs (seen ints plain (.ty .s32 0))) .s32 8 = true := by decide +kernel

theorem test_witness_IntegerInstructionsCompute :
    ∀ r ∈ integerRules, ∃ s o f t n, (∀ x, wayOpen s o x) ∧ Sources r.set f (seen s o f) (r.srcs (seen s o f)) t n
      ∧ (r.multiplies = true → fused f (seen s o f) t false) := by
  intro r hr
  rcases test_integer_sources r hr with h | h
  · exact ⟨ints, plain, .ty .s32 0, .s32, _, fun x => seat_open _ _ _ _ x, sources_of_ok h, fun _ h => absurd h (by decide)⟩
  · exact ⟨ints, plain, .ty .s32 0, .s32, 8, fun x => seat_open _ _ _ _ x, sources_of_ok h, fun _ h => absurd h (by decide)⟩

theorem test_float_sources :
    ∀ r ∈ floatRules, sourcesOk r.set (.tr .f32 .rne) (seen floats plain (.tr .f32 .rne)) (r.srcs (seen floats plain (.tr .f32 .rne)))
      .f32 1 = true := by decide +kernel

theorem test_witness_FloatInstructionsCompute :
    ∀ r ∈ floatRules, ∃ s o f t n, (∀ x, wayOpen s o x) ∧ Sources r.set f (seen s o f) (r.srcs (seen s o f)) t n
      ∧ (r.multiplies = true → fused f (seen s o f) t false) :=
  fun r hr => ⟨floats, plain, .tr .f32 .rne, .f32, 1, fun x => seat_open _ _ _ _ x, sources_of_ok (test_float_sources r hr), fun _ h => absurd h (by decide)⟩

/-- An unscaled .n32 word in D0, D1 or P. -/
def n32 (v : Lane) : Packet := pk .n32 [v]

theorem test_witness_IntegerPairsAndFieldsCompute : ∀ r ∈ integerActs, ∃ s o f t n, (∀ x, wayOpen s o x) ∧ r.when f (seen s o f) t n := by
  intro r hr
  simp only [integerActs, List.mem_cons, List.not_mem_nil, or_false] at hr
  rcases hr with rfl | rfl | rfl | rfl | rfl | rfl
  · exact ⟨seat (pk .s32 [1, 2, 3, 4]) (pk .s32 [5]), plain, .ty .s32 0, .s32, 4, fun x => seat_open _ _ _ _ x, sources_of_ok (by decide +kernel),
      fun h => absurd h (by decide), by decide⟩
  · exact ⟨seat (pk .n16 [1, 2]) (pk .n16 [5, 6]) (some (pk .n32 [0, 1, 2, 3])), plain, .ty .n16 0, .n16, 2, fun x => seat_open _ _ _ _ x,
      sources_of_ok (by decide +kernel), fun h => absurd h (by decide), by decide, .inl (by decide +kernel), by decide +kernel,
      by decide +kernel⟩
  · exact ⟨seat (pk .n32 [1]) (n32 (32 * 64)), plain, .ty .n32 0, .n32, 1, fun x => seat_open _ _ _ _ x, sources_of_ok (by decide +kernel),
      by unfold Control; decide +kernel, by decide +kernel, by decide +kernel⟩
  · exact ⟨seat (pk .n32 [1]) (n32 0) (some (n32 (64 + 31))), plain, .ty .n32 0, .n32, 1, fun x => seat_open _ _ _ _ x, sources_of_ok (by decide +kernel),
      by unfold Control; decide +kernel, by decide +kernel, by decide +kernel⟩
  · exact ⟨seat (pk .s32 [-2147483648]) (pk .s32 [-1]), plain, .ty .s32 0, .s32, 1, fun x => seat_open _ _ _ _ x, sources_of_ok (by decide +kernel), by decide +kernel⟩
  · exact ⟨seat (n32 1) (n32 0) (some (n32 1)), plain, .ty .n32 0, .n32, 1, fun x => seat_open _ _ _ _ x, by decide +kernel, by decide, by decide, by decide +kernel,
      by decide +kernel, by decide +kernel, by decide +kernel, ⟨.n32, by decide +kernel, by decide⟩, by decide +kernel, by decide +kernel⟩

/-- A word of every bit pattern in an .f32 lane. -/
def f32 (v : Lane) : Packet := pk .f32 [v]

theorem test_witness_FloatInspectionsAndConversionsCompute : ∀ r ∈ floatActs, ∃ s o f t n, (∀ x, wayOpen s o x) ∧ r.when f (seen s o f) t n := by
  intro r hr
  simp only [floatActs, List.mem_cons, List.not_mem_nil, or_false] at hr
  rcases hr with rfl | rfl | rfl | rfl | rfl | rfl | rfl
  · exact ⟨seat (f32 0x7F80_0001) (f32 0), plain, .ty .f32 5, .f32, 1, fun x => seat_open _ _ _ _ x, sources_of_ok (by decide +kernel)⟩
  · exact ⟨seat (f32 1) (f32 0), { plain with sb := 15 }, .ty .f32 0, .f32, 1, fun x => seat_open _ _ _ _ x, sources_of_ok (by decide +kernel)⟩
  · exact ⟨seat (f32 0) (f32 0), { plain with sb := 15 }, .ty .f32 0, .f32, 1, fun x => seat_open _ _ _ _ x, sources_of_ok (by decide +kernel)⟩
  · exact ⟨seat (f32 0x3F80_0001) (f32 0) (some (n32 0xFFFF_FFFF)), { plain with sb := 15 }, .tr .h16 .sr, .f32, 1, fun x => seat_open _ _ _ _ x,
      by unfold OwnHeader; decide +kernel, fun _ => by decide +kernel, by decide +kernel⟩
  · exact ⟨seat (f32 0xBF80_0000) (f32 0), { plain with sb := 15 }, .tr .n32 .rtz, .f32, 1, fun x => seat_open _ _ _ _ x,
      by unfold OwnHeader; decide +kernel, fun h => absurd h (by decide), by decide +kernel⟩
  · exact ⟨seat (f32 1) (pk .s32 [-1]), plain, .tr .f32 .rne, .f32, 1, fun x => seat_open _ _ _ _ x, sources_of_ok (by decide +kernel), by decide +kernel,
      by decide +kernel, by decide +kernel⟩
  · exact ⟨seat (f32 0) (f32 0), { plain with sb := 15 }, .ty .f32 0, .f32, 1, fun x => seat_open _ _ _ _ x, sources_of_ok (by decide +kernel)⟩

/-- A full packet of 8 words. -/
def eight : Packet := pk .n32 [1, 2, 3, 4, 5, 6, 7, 8]

theorem test_witness_LaneInstructionsCompute : ∀ r ∈ laneActs, ∃ s o f t n, (∀ x, wayOpen s o x) ∧ r.when f (seen s o f) t n := by
  intro r hr
  simp only [laneActs, List.mem_cons, List.not_mem_nil, or_false] at hr
  rcases hr with rfl | rfl | rfl | rfl | rfl | rfl | rfl | rfl | rfl | rfl | rfl | rfl
  all_goals first
    | exact ⟨seat eight {}, plain, .im 7, .n32, 8, fun x => seat_open _ _ _ _ x, by decide +kernel⟩
    | exact ⟨seat eight (n32 0), plain, .im 7, .n32, 8, fun x => seat_open _ _ _ _ x, by unfold Control; decide +kernel⟩
    | exact ⟨seat eight (n32 0), plain, .ty .n32 7, .n32, 8, fun x => seat_open _ _ _ _ x, by decide +kernel⟩
    | exact ⟨seat eight (n32 0), { plain with sb := 15 }, .ty .n32 5, .n32, 8, fun x => seat_open _ _ _ _ x, sources_of_ok (by decide +kernel),
        fun h => absurd h (by decide), by decide +kernel⟩
    | exact ⟨seat eight (n32 0), plain, .im 11, .n32, 8, fun x => seat_open _ _ _ _ x, by decide +kernel⟩


/-- A packet under a shared scale. -/
def scaled (t : Ty) (sce : Byte) (ls : List Lane) : Packet := { pk t ls with sc := true, sce := sce }

theorem test_witness_ScaleAndAccumulatorInstructionsCompute : ∀ r ∈ quantActs, ∃ s o f t n, (∀ x, wayOpen s o x) ∧ r.when f (seen s o f) t n := by
  intro r hr
  simp only [quantActs, List.mem_cons, List.not_mem_nil, or_false] at hr
  rcases hr with rfl | rfl | rfl | rfl | rfl | rfl | rfl | rfl | rfl | rfl | rfl
  · exact ⟨seat (pk .n8 [1, 2]) (pk .n8 [3, 4]) (some (n32 63)), plain, .ty .n8 1, .n8, 8, fun x => seat_open _ _ _ _ x, by decide +kernel, by decide, by decide +kernel,
      by decide +kernel, by decide +kernel, by decide +kernel, by decide +kernel, by decide +kernel, by decide +kernel,
      by unfold Control; decide +kernel, fun h => absurd h (by decide), by decide +kernel⟩
  · exact ⟨seat (f32 0xFF7F_FFFF) (f32 0x7F80_0000), plain, .ty .f32 1, .f32, 1, fun x => seat_open _ _ _ _ x, by decide, by decide +kernel, by decide +kernel,
      by decide +kernel, by decide +kernel, fun _ => by decide +kernel⟩
  · exact ⟨seat (f32 0x8000_0000) {}, { plain with sb := 15 }, .ty (.b8 3) 0, .f32, 1, fun x => seat_open _ _ _ _ x, by decide +kernel⟩
  · exact ⟨seat (f32 0x3F80_0000) (n32 0xFE), plain, .tr (.b8 3) .rne, .f32, 1, fun x => seat_open _ _ _ _ x, by unfold OwnHeader; decide +kernel, fun h => absurd h (by decide),
      by unfold Control; decide +kernel, by decide +kernel, fun h => absurd h (by decide)⟩
  · exact ⟨seat (scaled (.b8 3) 255 [1]) (n32 3), plain, .tr .f32 .rne, .b8 3, 4, fun x => seat_open _ _ _ _ x, by decide +kernel, by decide +kernel, by decide +kernel,
      by decide +kernel, by unfold Control; decide +kernel, by decide +kernel⟩
  · exact ⟨seat (scaled (.b8 3) 255 [1]) (n32 0xFF), plain, .ty (.b8 3) 1, .b8 3, 4, fun x => seat_open _ _ _ _ x, by decide +kernel, by decide +kernel, by decide +kernel,
      by decide +kernel, by decide +kernel, by unfold Control; decide +kernel, .inl (by decide +kernel)⟩
  · exact ⟨seat (pk .mx6e2 [1, 2, 3]) {}, { plain with sb := 15 }, .ty .mx6e2 0, .mx6e2, 16, fun x => seat_open _ _ _ _ x, by decide +kernel⟩
  · exact ⟨seat (pk .n8 [63, 0, 0x3F3F3F3F, 1]) {}, { plain with sb := 15 }, .ty .mx6e2 0, .n8, 16, fun x => seat_open _ _ _ _ x, by decide +kernel⟩
  · exact ⟨seat (pk .h16 [0x8000_0001]) {}, { plain with sb := 15 }, .ty .h16 1, .h16, 2, fun x => seat_open _ _ _ _ x, by decide +kernel, by decide, by decide +kernel,
      by decide +kernel⟩
  · exact ⟨seat (n32 (7 * 64 + 56)) {}, { plain with sb := 15 }, .tr .f32 .rne, .f32, 8, fun x => seat_open _ _ _ _ x, by unfold Control; decide +kernel,
      fun h => absurd h (by decide), by decide +kernel, by decide +kernel⟩
  · exact ⟨seat (n32 63) (f32 1), plain, .ty .f32 1, .f32, 1, fun x => seat_open _ _ _ _ x, by decide, by decide +kernel, by decide +kernel, by decide +kernel,
      by decide +kernel, by unfold Control; decide +kernel, by decide +kernel, by decide +kernel⟩

theorem test_witness_FlowInstructionsCompute : ∀ r ∈ flowActs, ∃ s o f t n, (∀ x, wayOpen s o x) ∧ r.when f (seen s o f) t n := by
  intro r hr
  simp only [flowActs, List.mem_cons, List.not_mem_nil, or_false] at hr
  rcases hr with rfl | rfl | rfl | rfl | rfl | rfl | rfl | rfl | rfl | rfl | rfl | rfl | rfl | rfl
  all_goals first
    | exact ⟨seat (n32 0) (n32 3), plain, .im 3, .n32, 1, fun x => seat_open _ _ _ _ x, trivial⟩
    | exact ⟨seat (n32 0) (n32 0xFFFF), plain, .im 0, .n32, 1, fun x => seat_open _ _ _ _ x, by unfold Control; decide +kernel⟩
    | exact ⟨seat (n32 0x3F) (n32 0), plain, .im 0, .n32, 1, fun x => seat_open _ _ _ _ x, by unfold Control; decide +kernel⟩
    | exact ⟨seat (n32 1) (n32 0), plain, .im 0, .n32, 1, fun x => seat_open _ _ _ _ x, sources_of_ok (by decide +kernel)⟩
    | exact ⟨seat (n32 1) (n32 0), plain, .im 0xF8, .n32, 1, fun x => seat_open _ _ _ _ x, by decide +kernel⟩
    | exact ⟨seat eight (n32 0), plain, .im 0, .n32, 1, fun x => seat_open _ _ _ _ x, by decide +kernel⟩

/-! Firings in an element. -/

/-- A firing that its instruction turns away. -/
theorem test_witness_FaultingFiringOnlyRaisesItsFault :
    ∃ x ∈ firings, ∃ s o f c, x.2 f (seen s o f) = .error c :=
  ⟨(.add, addAct), by simp [firings], seat (n32 1) (pk .s32 [1]), plain, .ty .n32 0, .fmt, rfl⟩

/-- A firing that completes, in a partition's region. -/
theorem test_witness_FiringFrames :
    ∃ x ∈ firings, ∃ s t o f, exec (x.1 o f) s = .next t ∧ isStw (ekRegion s.cur.1) = false :=
  ⟨(.add, addAct), by simp [firings], seat (n32 1) (n32 1), _, plain, .ty .n32 0, rfl, by decide⟩

/-- Three lanes against two; then a type that differs; then a scale tag. -/
theorem test_witness_SourceChecksRunInOrder :
    let ok (s : State) : Bool :=
      let e := seen s plain (.ty .n32 0)
      let ps := [e.a, e.b].map (srcPk .n32)
      ps.all ownLenOk && (lengthRule 1 (ps.map (fun p => p.lanes.length))).isSome
    ok (seat eight (pk .n32 [1, 2])) = false
    ∧ ok (seat (n32 1) (pk .s32 [1])) = true ∧ hasTy .n32 (pk .s32 [1]) = false
    ∧ ok (seat (n32 1) (scaled .n32 1 [1])) = true ∧ hasTy .n32 (scaled .n32 1 [1]) = true ∧ (scaled .n32 1 [1]).sc = true := by
  decide +kernel

theorem test_witness_ControlOperandFaultsInOrder :
    (∃ p : Packet, p.lanes.length ≠ 1) ∧ (∃ p : Packet, p.lanes.length = 1 ∧ ¬ (p.fmt = 0 ∧ p.fpx = 0))
    ∧ (∃ p : Packet, p.lanes.length = 1 ∧ (p.fmt = 0 ∧ p.fpx = 0) ∧ p.sc = true)
    ∧ (∃ p : Packet, p.lanes.length = 1 ∧ (p.fmt = 0 ∧ p.fpx = 0) ∧ p.sc = false
        ∧ (p.lanes.headD 0).toNat &&& 0xFF ≠ (p.lanes.headD 0).toNat)
    ∧ (∃ p : Packet, p.lanes.length = 1 ∧ (p.fmt = 0 ∧ p.fpx = 0) ∧ p.sc = false
        ∧ (p.lanes.headD 0).toNat &&& 0xFF = (p.lanes.headD 0).toNat) :=
  ⟨⟨eight, by decide⟩, ⟨f32 0, by decide⟩, ⟨scaled .n32 0 [0], by decide⟩, ⟨n32 0x100, by decide⟩, ⟨n32 0xFF, by decide⟩⟩

/-- A channel with a packet for MRG. -/
def fed (c : Nat) (p : Packet) : State := (seat (n32 0) {}).modElem 0 (fun e => { e with ins := e.ins.set c { q := [{ pkt := p }] } })

/-- A frame that expects two exits. -/
def exiting (n : Nat) : State := (seat (n32 0x3F) {}).modFrame 0 0 (fun x => { x with exits := n, flags := { x.flags with exitc := 2 } })

theorem test_witness_SequencingFiringsComplete :
    (∃ c h, mrgChannel ((fed 3 (n32 1)).elem 0) 0 (.im 0x0F) = some c ∧ (((fed 3 (n32 1)).elem 0).ins.get c).q.head? = some h)
    ∧ Control .n32 0x3F (seen (exiting 0) plain (.im 0)).a
    ∧ ((exiting 1).frame 0 0).exits ≠ ((exiting 1).frame 0 0).flags.exitc
    ∧ ((exiting 2).frame 0 0).exits = ((exiting 2).frame 0 0).flags.exitc :=
  ⟨⟨3, { pkt := n32 1 }, by decide +kernel, by decide +kernel⟩, by unfold Control; decide +kernel, by decide +kernel, by decide +kernel⟩

theorem test_witness_BreakAndTrapRaise : isStw (ekRegion 0) = false := by decide

theorem test_witness_FaultFreezesItsPartition :
    ∃ s : State, ∃ e pid, isStw (ekRegion e) = false ∧ s.pidOf (ekRegion e) = some pid ∧ pState (s.part pid) = 2 :=
  ⟨seat {} {}, 0, 0, by decide +kernel⟩

theorem test_witness_NopOnlyTriggers :
    slotOk .nop { sa := 15, sb := 15, tt := 15 } (.im 0) = true
    ∧ (0x8008_0000_6AFF_0F01 : Dword).getLsbD 63 = true ∧ (0x8008_0000_6AFF_0F01 : Dword).extractLsb' 24 8 = 0x6A
    ∧ (0x8008_0000_6AFF_0F01 : Dword).extractLsb' 0 8 ≠ 0
    ∧ ∃ (sl : SlotSt) (h : Held) (k : Nat × Nat), sl.aw.getLsbD 0 = true ∧ sl.l = some h ∧ h.src = some k :=
  ⟨by decide +kernel, by decide, by decide, by decide, { aw := 1, l := some { src := some (0, 0) } }, { src := some (0, 0) }, (0, 0),
    by decide⟩

/-- Element 0 with T0 and T7 naming field L of itself, and field FLD 3 of entry T1. -/
def entries : State := (seat (n32 1) {}).modElem 0 (fun e => { e with t := [(0, 0x8000_0000), (7, 0x8000_0000), (1, 0x8001_8000)] })

theorem test_witness_ResultGoesToItsDestination :
    ((entries.elem 0).outs.get 0).tix = []
    ∧ ((entries.modElem 0 (fun x => { x with outs := [(3, { tix := [0], rsv := 1, no := 1 })] })).elem 0).outs.get 3 ≠ {}
    ∧ (∃ d, entries.destOf 0 ((entries.elem 0).t.get 0) = some d ∧ entries.sendStop 0 d = none)
    ∧ (∃ d, entries.destOf 0 ((entries.elem 0).t.get 7) = some d ∧ entries.sendStop 0 d = none
        ∧ tFld ((entries.elem 0).t.get 7) < 3) :=
  ⟨by decide +kernel, by decide +kernel, ⟨.field 0 0 0, by decide +kernel⟩, ⟨.field 0 0 0, by decide +kernel⟩⟩

/-- Two NOP slots of element 0, ready. -/
def twoReady : State :=
  (seat {} {}).modElem 0 (fun e => { e with slots := [(0, { word := 0x8008_0000_6AFF_0F00, frm := 1 }), (31, { word := 0xB008_0000_6AFF_0F00, frm := 1 })] })

theorem test_witness_ReadySlotsAreSelectedByPriority :
    (∃ op o f, decodeSlotParts ((twoReady.elem 0).slots.get 31).word = .ok (op, o, f)) ∧ twoReady.ready 0 31 = true
    ∧ (twoReady.elem 0).lastSel < 32 ∧ twoReady.select 0 = some 31 ∧ (State.reset.select 0 = none) :=
  ⟨⟨.nop, { pri := 3, nsm := 2, sa := 15, sb := 15, tt := 15 }, .im 0, rfl⟩, by decide +kernel, by decide +kernel, by decide +kernel, rfl⟩


/-- A virtual address operand. -/
def va (lo hi : Lane) : Packet := pk .n64 [lo, hi]

theorem test_witness_GlobalAccessesIssueRequests :
    Address (seen (seat (va 0xFFFFFFE0 0x01FFFFFF) {}) plain (.ty .n32 3)).a 32
    ∧ (srcPk .n32 (seen (seat (va 32 0) eight) plain (.ty .n32 3)).b).lanes.length = 2 ^ 3
    ∧ hasTy .n32 (srcPk .n32 (seen (seat (va 32 0) eight) plain (.ty .n32 3)).b) = true
    ∧ AtomOperand 7 true (seen (seat (va 8 0) (va 1 0) (some (va 2 0))) plain (.im 0xF0))
    ∧ AtomOperand 8 false (seen (seat (va 8 0) (f32 1)) plain (.im 8))
    ∧ Exact 2 .n32 (seen (seat (va 16 0) (pk .n32 [5, 0])) plain (.im 0)).b ∧ Exact 1 .n32 (seen (seat (va 16 0) (n32 1)) plain (.im 0)).b
    ∧ Control .n32 0xFFFF (seen (seat (va 16 0) (n32 0xFFFF)) plain (.im 0)).b := by
  unfold Address AtomOperand Exact Control
  refine ⟨by decide +kernel, by decide +kernel, by decide +kernel, ⟨by decide +kernel, by decide +kernel, by decide +kernel, ?_⟩,
    ⟨by decide +kernel, by decide +kernel, by decide +kernel, fun _ _ h => absurd h (by decide)⟩, by decide +kernel, by decide +kernel,
    by decide +kernel⟩
  intro p hp _
  have : some p = some (va 2 0) := hp.symm.trans rfl
  cases this
  decide +kernel

theorem test_witness_AddressFaultsCarryTheAddress :
    Exact 2 .n64 (seen (seat (va 0 0x0200_0000) {}) plain (.ty .n32 0)).a ∧ 2 ^ 57 ≤ lanesNat [0, 0x0200_0000]
    ∧ Exact 2 .n64 (seen (seat (va 2 0) {}) plain (.ty .n32 0)).a ∧ lanesNat [2, 0] < 2 ^ 57 ∧ lanesNat [2, 0] % 4 ≠ 0 := by
  unfold Exact; decide +kernel

theorem test_witness_RequestAwaitsItsAnswer :
    (8 ≤ (15 : BitVec 4).toNat ∧ tFld ((State.reset.elem 0).t.get 7) < 3) ∧ (4 ≤ (7 : BitVec 4).toNat ∧ (7 : BitVec 4).toNat < 8) := by
  decide +kernel

/-- Binding 0 of frame 0 of region 0, of 64 bytes in one sub-buffer in a state with a fill mark. -/
def buffer (mode : Nat) (st : BufSt) (mark ccur : Nat) (a b : Packet) (p : Option Packet := none) : State :=
  (seat a b p).modBnd 0 0 0 (fun x => { x with
    shape := { mode := mode, size := 64, depth := (if mode = 0 then 1 else 0) }, ring := { subs := [(0, { st := st, mark := mark })], ccur := ccur } })

/-- The same with an ATB of element 0 at byte 60 still in the tile's queue. -/
def behind (s : State) : State := { s with tileQ := [(0, [{ kind := 2, offs := [60], left := [0] }])] }

theorem test_witness_BufferReadsComplete :
    let s := buffer 1 .full 64 0 (n32 32) {}
    let v := bound s (.im 56)
    let z := buffer 0 .draining 64 60 {} {}
    let w := bound z (.im 0)
    (v.b.shape.mode ≠ 0 ∧ v.ring.atCons.st = .full ∧ controlNumber .n32 (seen s plain (.im 56)).a % 4 = 0
      ∧ controlNumber .n32 (seen s plain (.im 56)).a + 32 ≤ v.ring.atCons.mark ∧ s.hitsMark v (v.consAt 32) 32 = false
      ∧ s.eccBad (v.consAt 32) 32 = false ∧ s.tileBehind 0 (v.consAt 32) 32 = false ∧ (behind s).tileBehind 0 (v.consAt 32) 32 = true)
    ∧ (w.b.shape.mode = 0 ∧ w.ring.atCons.st = .draining ∧ w.ring.ccur + 4 ≤ w.ring.atCons.mark ∧ z.hitsMark w (w.consAt 60) 4 = false
      ∧ z.eccBad (w.consAt 60) 4 = false ∧ z.tileBehind 0 (w.consAt 60) 4 = false ∧ (behind z).tileBehind 0 (w.consAt 60) 4 = true)
    ∧ (bound (buffer 1 .filling 8 0 {} {}) (.im 0)).ring.atProd.st = .filling
    ∧ (bound (buffer 1 .empty 0 0 {} {}) (.im 0)).ring.atProd.st ≠ .filling
    ∧ ¬ ((bound (buffer 1 .empty 0 0 {} {}) (.im 0)).ring.atCons.st = .full ∨ (bound (buffer 1 .empty 0 0 {} {}) (.im 0)).ring.atCons.st = .draining) := by
  decide +kernel

theorem test_witness_BufferReadsComplete_control : Control .n32 0x3FFFFFF (seen (buffer 1 .full 64 0 (n32 32) {}) plain (.im 56)).a := by
  unfold Control; decide +kernel

theorem test_witness_BufferWriteStoresItsLanes :
    let s := buffer 1 .filling 32 0 eight (n32 32)
    let v := bound s (.im 0)
    let z := buffer 0 .empty 0 0 eight {}
    let w := bound z (.im 0)
    (v.hasFmt eight = true ∧ ownLenOk eight = true ∧ v.ring.atProd.st = .filling ∧ v.b.shape.mode ≠ 0 ∧ 32 + 4 * 8 ≤ v.sub
      ∧ s.hitsMark v (v.prodAt 32) 32 = false ∧ controlNumber .n32 (seen s plain (.im 0)).b = 32
      ∧ s.tileBehind 0 (v.prodAt 32) 32 = false ∧ v.tile = true ∧ (behind s).tileBehind 0 (v.prodAt 32) 32 = true)
    ∧ (w.hasFmt eight = true ∧ w.ring.atProd.st = .empty ∧ w.b.shape.mode = 0 ∧ w.ring.pcur + 4 * 8 ≤ w.sub
      ∧ z.hitsMark w (w.prodAt 0) 32 = false ∧ z.tileBehind 0 (w.prodAt 0) 32 = false) := by decide +kernel

/-- STB of the program of R409: a word at the start of a random binding is stored at the tile's byte 0, and its mark becomes 4. -/
theorem test_stb_stores :
    (match exec (.stb { plain with dt := 2 } (.im 0)) (buffer 1 .empty 0 0 (n32 0x15) (n32 0)) with
     | .next s => (memBytes s.mem (tileKey 0 0 0) 4, (s.ringOf 0 0 0).atProd, ((s.elem 0).d.get 2).map (fun p => p.lanes))
     | _ => ([], {}, none)) = ([0x15, 0, 0, 0], { st := .filling, mark := 4 }, some [4]) := by decide +kernel

theorem test_witness_VersionedAndTileAccessesIssueRequests :
    (Control .n32 0x3FFFFFF (seen (buffer 2 .empty 0 0 (n32 56) (n32 0xFF) (some (pk .n32 [1, 2]))) plain (.im 0)).a
      ∧ Control .n32 0xFF (seen (buffer 2 .empty 0 0 (n32 56) (n32 0xFF)) plain (.im 0)).b ∧ 56 % 8 = 0
      ∧ 56 + 8 ≤ (bound (buffer 2 .empty 0 0 (n32 56) (n32 0xFF)) (.im 0)).b.shape.size
      ∧ (rawPk (thirdOp (seen (buffer 2 .empty 0 0 (n32 56) (n32 0xFF) (some (pk .n32 [1, 2]))) plain (.im 0)))).lanes.length = 2)
    ∧ ((bound (buffer 1 .full 64 0 (pk .n32 [0, 60]) {}) (.im 0)).ring.atCons.st = .full
      ∧ ∀ x ∈ [0, 60], x % 4 = 0 ∧ x + 4 ≤ (bound (buffer 1 .full 64 0 (pk .n32 [0, 60]) {}) (.im 0)).ring.atCons.mark)
    ∧ ((bound (buffer 1 .empty 0 0 (pk .n32 [0, 60]) (pk .n32 [1, 2])) (.im 0)).ring.atProd.st = .empty
      ∧ ∀ x ∈ [0, 60], x % 4 = 0 ∧ x + 4 ≤ (bound (buffer 1 .empty 0 0 (pk .n32 [0, 60]) (pk .n32 [1, 2])) (.im 0)).sub)
    ∧ (Exact 1 .n32 (seen (buffer 1 .filling 4 0 (n32 60) (n32 3)) plain (.im 0)).a
      ∧ (bound (buffer 1 .filling 4 0 (n32 60) (n32 3)) (.im 0)).ring.atProd.st = .filling ∧ 60 + 4 ≤ (bound (buffer 1 .filling 4 0 (n32 60) (n32 3)) (.im 0)).sub) := by
  unfold Control Exact; decide +kernel


/-- A computation that succeeds with a value that passes a test. -/
theorem ok_of_any {ε α : Type} {x : Except ε α} {p : α → Bool} (h : x.toOption.any p = true) : ∃ a, x = .ok a ∧ p a = true := by
  cases x with
  | error e => simp [Except.toOption] at h
  | ok a => exact ⟨a, rfl, by simpa [Except.toOption] using h⟩

theorem pair_of_any {ε α β : Type} {x : Except ε (α × β)} {p : α × β → Bool} (h : x.toOption.any p = true) :
    ∃ a b, x = .ok (a, b) ∧ p (a, b) = true := by
  obtain ⟨⟨a, b⟩, h1, h2⟩ := ok_of_any h
  exact ⟨a, b, h1, h2⟩

/-! Islands and nodes. -/

/-- A template record: a load of one .f32 element in one dimension, into word 0 of binding 0 (R301). -/
def record : List Dword := [0x1800_0000_0000_0000, 0x1000, 0, 0, 0x0000_0001_0000_0000, 0, 0, 0, 0, 0, 0, 0, 0, 0]

/-- Element 0 in a frame that carries the record, with an operand. -/
def copier (a : Packet) : State :=
  (seat a {}).modFrame 0 0 (fun x => { x with data := [(64, record)] })

/-- The same once the record is armed in slot 0 of island 0, with a credit. -/
def armed (a : Packet) : State :=
  let t : Template := { id := 1, rk := 0, frm := 0, words := 0x1800_0200_0000_0000 :: record.drop 1, credits := 1 }
  (copier a).modIsland 0 0 (fun i => { i with tpls := i.tpls.set 0 (some t) })

theorem test_witness_CopyFiringsComplete :
    (Control .n32 63 (seen (copier (n32 63)) plain (.im 0)).a
      ∧ ((copyIsland (copier (n32 63)) (.im 0)).tpls.get 63).isNone = true
      ∧ (copier (n32 63)).templateOk 0 0 (armedTemplate (copier (n32 63)) (.im 0)) = true)
    ∧ ¬ ((copyIsland (armed (n32 0)) (.im 0)).tpls.get 0).isNone = true
    ∧ (∃ v, heldTemplate (armed (n32 0)) (.im 0) 0 = some v ∧ v.cred ≠ 0 ∧ v.dims = 1)
    ∧ (lanesOf (seen (armed (n32 0)) plain (.im 0)).a).length = 1 ∧ (copyIsland (armed (n32 0)) (.im 32)).queues.get 0 = {}
    ∧ heldTemplate (copier (n32 0)) (.im 0) 0 = none := by
  refine ⟨by unfold Control; decide +kernel, by decide +kernel, ⟨_, rfl, by decide +kernel, by decide +kernel⟩, by decide +kernel,
    by decide +kernel, by decide +kernel⟩

/-- A node of side 1 at element 0 that reads A and its scales from binding 0 and B from binding 1, which holds 16 blocks of one mark
in each row and column; the FCW is the worked example of R98, in a mode. -/
def noded (mode : Nat) (ntf : Bool) : State :=
  let weights : List Byte := (List.replicate 16 [0x21, 0x84, 0, 0, 0, 0]).flatten
  let s := (seat {} {}).modElem 0 (fun e => { e with fcw := BitVec.ofNat 32 (mode * 2 ^ 26 + 0x0281_2198) })
  let full (x : Binding) : Binding := { x with shape := { mode := 1, size := 2048 }, ring := { subs := [(0, { st := .full, mark := 2048 })] } }
  let s := (s.modBnd 0 0 0 full).modBnd 0 0 1 (fun x => { full x with idx := 1 })
  let k : List Lane := [BitVec.ofNat 32 (8 + (if mode = 2 then 64 else 0) + (if ntf then 2 ^ 13 else 0)), 0, 0, 0, 0, 0]
  { s with nodes := [(0, { size := 1, k := k })] }.write (tileKey 0 1 0) weights

/-- A command whose formats are a code, of 8 rows, 8 columns and one K-block. -/
def command (fmt : BitVec 5) (ntf : Bool) : MTok := { kb := 1, fa := fmt, fb := fmt, ntf := ntf }

theorem test_witness_MatrixTokensComplete :
    let good (opc mode : Nat) (fmt : BitVec 5) (ntf : Bool) : Bool :=
      let s := noded mode ntf
      let t := command fmt ntf
      s.nodeFree 0 && (nodeCheck (s.node 0) (s.elem 0).fcw opc t).toOption.isSome
        && (mulFmts opc (s.elem 0).fcw t).any (fun f =>
          (s.readOperands (s.node 0) opc t (s.elem 0).fcw f.1 f.2).toOption.any (fun x =>
            opc != 2 || weightsOk t.nms.toNat f.2.bits 16 x.2.vb))
    good 1 1 2 false = true ∧ good 2 1 6 false = true ∧ good 2 2 6 true = true ∧ good 3 2 6 true = true ∧ good 4 0 0x16 false = true := by
  decide +kernel

theorem test_witness_MatrixTokensComplete_clear_and_load :
    (nodeCheck ((noded 1 true).node 0) ((noded 1 true).elem 0).fcw 5 { ntf := true }).toOption.isSome = true
    ∧ (nodeCheck ((noded 1 true).node 0) ((noded 1 true).elem 0).fcw 6 { acc := true }).toOption.isSome = true
    ∧ (mfmtOf 0).isSome = true
    ∧ ((noded 1 true).nodeRead ((noded 1 true).node 0) 0 (4 * 64)).toOption.isSome = true := by decide +kernel

theorem test_witness_MatrixFiringsComplete :
    ((seat {} {}).node 0).k = []
    ∧ (∀ c ∈ ((seat {} {}).nodeChannels 0 { size := 1, k := [] }).eraseDups, (seat {} {}).markedChannel c = false)
    ∧ ((noded 1 false).node 0).k ≠ [] ∧ ((noded 1 false).node 0).cmds.length < 4
    ∧ Exact 2 .n32 (seen (seat (pk .n32 [3, 0]) {}) plain (.im 0)).a ∧ (drainTy 0).isSome = true
    ∧ 0 + tileDim 0 * tileDim 0 ≤ ((noded 1 false).node 0).accs
    ∧ 4 ≤ (((noded 1 false).modNode 0 (fun n => { n with cmds := List.replicate 4 (.tok {}) })).node 0).cmds.length := by
  unfold Exact; decide +kernel

/-- The four regions of quad 0 of die 0, with an operand, and the example configuration of chapter 8. -/
def quad (a : Packet) : State :=
  { seat a {} with regions := [0, 1, 4, 5].map (fun r => (r, Region.placed {} false)) }

def merging : List Lane := [0x4281_8000, 3, 0x8001_8002]

/-- The same with the session open. -/
def opened (a : Packet) : State := (quad a).setMerge 0 0 { newSession (quad a) merging with leaves := [(0, {}), (1, {})] }

/-- A stream descriptor of QB 0, and an exchange queue on it. -/
def queued (x : Option XQueue) : State :=
  let d : Desc := { shape := some { mode := 0, size := 64, depth := 1 }, xq := x }
  { quad (pk .n32 [1, 8]) with descs := [(bufferKey 0 1 1, d)] }

theorem test_witness_MergeFiringsComplete_sessions :
    let s := quad (pk .n32 merging)
    let done := (opened {}).modMerge 0 0 (fun m => { m with leaves := [(0, { sent3 := true }), (1, { sent3 := true })] })
    let closing := (opened {}).modMerge 0 0 (fun m => { m with closing := [{}] })
    Exact 3 .n32 (seen s plain (.im 0)).a ∧ (s.mergeChannel (newSession s merging)).any (fun c => !(s.markedChannel c)) = true
    ∧ mergeCfgOk (newSession s merging) = true ∧ s.holdsQuad 0 0 = true ∧ (mergeOf s 0).opened = false
    ∧ (opened {}).mergeHeld 0 0 0 = true ∧ ¬ ((mergeOf (opened {}) 0).ended = true ∧ (mergeOf (opened {}) 0).sentEnd = false)
    ∧ done.mergeHeld 0 0 0 = true ∧ (mergeOf done 0).ended = true ∧ (mergeOf done 0).sentEnd = false
    ∧ closing.mergeHeld 0 0 0 = true ∧ (quad {}).mergeHeld 0 0 0 = false ∧ (quad {}).mergeHeld 0 0 3 = false := by
  unfold Exact; decide +kernel

theorem test_witness_MergeFiringsComplete_queues :
    let d := (queued none).descs.get (bufferKey 0 1 1)
    (Exact 2 .n32 (seen (queued none) plain (.im 0)).a ∧ d.xq = none ∧ d.pid = ((queued none).pidOf 0).getD 255
      ∧ d.shape.any (fun h => h.mode == 0) = true)
    ∧ (queued (some {})).queuesOf 0 0 = [{}]
    ∧ (queued (some {})).descs.any (fun x => x.2.xq.any (fun y => y.ofFrame 0 ((queued (some {})).slotFrame 0 0))) = true := by
  unfold Exact; decide +kernel


/-! Steward regions. -/

/-- Element 0 of the steward region of die 0 with two operands, and partition 1, of 4 × 4 regions of die 0, in a state. -/
def chief (a b : Packet) (st : Nat) (f : Part → Part := id) : State :=
  let p : Part := { pdef := BitVec.ofNat 64 (2 ^ 63 + 4 * 2 ^ 28 + 4 * 2 ^ 34), pstat := putBits 0 61 3 st }
  { regions := [(16, Region.placed {} true), (0, { pid := 2 })], parts := [(1, f p)], cur := (1024, 0)
    elems := [(0, { hold := .trap 0 (some 5) }), (1024, { d := [(0, some a), (1, some b)], slots := [(0, { frm := 1 })] })] }

/-- Every fabric die of the part ACTIVE. -/
def awake (s : State) : State :=
  (List.range 80).foldl (fun s d => s.modIdent (idFabric d) (fun x => { x with das := putBits x.das 61 3 3 })) s

theorem test_witness_HoldingAndThawingComplete :
    let x (w q : Lane) : Operand := (seen (chief (pk .n32 [w, q]) {} 2) plain (.im 0)).a
    (Exact 2 .n32 (x 1 0) ∧ laneNo (x 1 0) 0 / 256 % 2 = 0 ∧ laneNo (x 1 0) 1 = 0)
    ∧ Exact 2 .n32 (x 0x101 5) ∧ laneNo (x 0x101 5) 0 / 256 % 2 = 1
    ∧ (chief {} {} 2).trapped 1 0 5 = some 0 ∧ (chief {} {} 2).trapped 1 0 6 = none
    ∧ (awake (chief {} {} 3)).mayThaw 1 = true ∧ (chief {} {} 3).mayThaw 1 = false := by
  unfold Exact; decide +kernel

theorem test_witness_HoldingAndThawingComplete_control :
    Control .n32 255 (seen (chief (n32 1) {} 2) plain (.im 0)).a ∧ pState ((chief {} {} 2).part 1) = 2 := by
  unfold Control; decide +kernel

theorem test_witness_StewardItemsComplete :
    let x (w q : Lane) : Operand := (seen (chief (pk .n32 [w, q]) (pk .n32 [1, 2]) 3) plain (.im 0)).a
    let s := chief {} {} 3
    Exact 2 .n32 (x 0 0) ∧ Exact 2 .n32 (seen (chief {} (pk .n32 [1, 2]) 3) plain (.im 0)).b
    ∧ s.itemOk 0 0 = true ∧ s.itemOk (4 * 2 ^ 28) 0 = true ∧ s.itemOk (5 * 2 ^ 28) 0x3FF = true ∧ s.itemOk (3 * 2 ^ 28) 2 = true
    ∧ s.vftOk 0 1 0 0 = true ∧ s.vftOk 0 1 1 (BitVec.ofNat 64 (24577 * 2 ^ 49)) = false
    ∧ (s.pidOf (ekRegion (itemElem 0 0)) = some 1 ∧ pState (s.part 1) = 3) ∧ s.pidOf (ekRegion (itemElem 0 0x3FF)) = none
    ∧ s.portOk 0 = true ∧ (chief {} {} 4).portUsed 0 = false ∧ s.portUsed 0 = true := by
  unfold Exact; decide +kernel

theorem test_witness_StewardItemsComplete_control :
    Control .n32 0x7FFF (seen (chief (n32 0) {} 3) plain (.im 0)).a
    ∧ Exact 1 .n32 (seen (chief (n32 0) (n32 1) 3) plain (.im 0)).a ∧ Exact 1 .n32 (seen (chief (n32 0) (n32 1) 3) plain (.im 0)).b := by
  unfold Control Exact; decide +kernel

/-- The save area of a partition of one region takes 0x119000 bytes: the header, and a region's registers and tiles. -/
theorem areaSize_one (s : State) (pid : Nat) (h1 : s.partRegions pid = [0]) (h2 : (s.contextOf pid).descs = [])
    (h3 : s.crossed (pRect (s.part pid)) = []) : s.areaSize pid = 0x119000 := by
  simp [State.areaSize, State.areaBytes, State.areaDescs, areaLinks, bufPlaces, h1, h2, h3, memBytes]

/-- A save area at GPA 0 of one region is mapped where page 0 is. -/
theorem areaMapped_one (s : State) (pid : Nat) (h : s.areaSize pid = 0x119000) (h0 : (s.part pid).area = 0) (hr : s.isRemote 0 = false) :
    s.areaMapped pid = (s.stage2 (pVf (s.part pid)) 0 needWrite).toOption.isSome := by
  rcases hq : s.stage2 (pVf (s.part pid)) 0 needWrite with x | x <;>
    simp [State.areaMapped, h, h0, hr, hq, Except.toOption, List.range, List.range.loop]

/-- Partition 1 of one region, and the same with granule 0 of stack 0 mapped to its frame 0 with every right. -/
def single (f : Part → Part := id) : State :=
  chief {} {} 3 (fun p => f { p with pdef := BitVec.ofNat 64 (2 ^ 63 + 2 ^ 28 + 2 ^ 34) })
def mapped : State :=
  let s := single
  ({ s with panel := { s.panel with vft := [(0, (BitVec.ofNat 64 (2 ^ 63 + 4096), BitVec.ofNat 64 (2 ^ 49)))] } } : State).write (stackKey 0 4096)
    [0, 0, 0, 0xF0]

theorem test_witness_PartitionCommandsComplete_area : mapped.areaMapped 1 = true ∧ (single id).areaMapped 1 = false := by
  rw [areaMapped_one _ _ (areaSize_one _ _ (by decide +kernel) (by decide +kernel) (by decide +kernel)) (by decide +kernel) (by decide +kernel),
    areaMapped_one _ _ (areaSize_one _ _ (by decide +kernel) (by decide +kernel) (by decide +kernel)) (by decide +kernel) (by decide +kernel)]
  decide +kernel

theorem test_witness_PartitionCommandsComplete :
    let all (p : Part) : Part := { p with frozen := [0] }
    Control .n32 255 (seen (chief (n32 1) {} 3) plain (.im 0)).a
    ∧ (awake (chief {} {} 0 (fun p => { p with pdef := p.pdef &&& BitVec.ofNat 64 (2 ^ 63 - 1) }))).defineStatus 1 = 0
    ∧ (chief {} {} 3).defineStatus 1 ≠ 0
    ∧ (chief {} {} 3 all).allFrozen 1 = true ∧ (chief {} {} 3).allFrozen 1 = false ∧ ((chief {} {} 3 all).part 1).ending = 0
    ∧ Exact 1 .n32 (seen (chief (n32 255) (pk .n64 [1, 2]) 3) plain (.im 0)).a
    ∧ Exact 2 .n64 (seen (chief (n32 255) (pk .n64 [1, 2]) 3) plain (.im 0)).b := by
  unfold Control Exact; decide +kernel

/-- A page-forwarding entry of frame 7 of stack 1. -/
def forwarding (x : Pgfw) : State :=
  let s := chief {} {} 2
  { s with panel := { s.panel with pgfw := [(s.frameKey 0 1 7, x)] } }

theorem test_witness_TranslationCommandsComplete :
    let x (a b c : Lane) : Operand := (seen (chief (pk .n32 [a, b, c]) {} 2) plain (.im 0)).a
    TlbiOperand 0xFF 0xFFFFF000 0x1FFFFFF (x 255 0xFFFFF000 0x1FFFFFF) ∧ TlbiOperand 0xFF 0 0 (x 255 0 0)
    ∧ TlbiOperand 0x3F 0xFF 0xFFFFFFFF (x 63 255 0xFFFFFFFF) ∧ TlbiOperand 0x3F 0 0 (x 63 0 0) := by
  unfold TlbiOperand Exact; decide +kernel

theorem test_witness_TranslationCommandsComplete_forwarding :
    let w : Lane := BitVec.ofNat 32 (2 ^ 24 + 7)
    ForwardingOperand (forwarding .res) true (seen (chief (pk .n32 [w, BitVec.ofNat 32 (2 * 2 ^ 18 + 9)]) {} 2) plain (.im 0)).a
    ∧ Forwarding .pgfwStart ((forwarding .res).panel.pgfw.get ((forwarding .res).frameKey 0 1 7)) 2 9 (.copy 2 9)
    ∧ ¬ ∃ next, Forwarding .pgfwStart ((forwarding (.moved 2 9)).panel.pgfw.get ((forwarding (.moved 2 9)).frameKey 0 1 7)) 2 9 next := by
  refine ⟨by unfold ForwardingOperand Exact; decide +kernel, ?_, ?_⟩
  · rw [show (forwarding .res).panel.pgfw.get ((forwarding .res).frameKey 0 1 7) = .res by decide +kernel]; exact .start 2 9
  · rw [show (forwarding (.moved 2 9)).panel.pgfw.get ((forwarding (.moved 2 9)).frameKey 0 1 7) = .moved 2 9 by decide +kernel]
    rintro ⟨_, h⟩; cases h

theorem test_witness_StewardServicesComplete :
    let s (a : Packet) : State := awake (chief a {} 4)
    let x (a : Packet) : Operand := (seen (chief a {} 4) plain (.im 0)).a
    Exact 2 .n32 (x (pk .n32 [0x80000001, 1])) ∧ (s {}).panel.root.takeover = false
    ∧ ((s {}).modRoot (fun r => { r with takeover := true })).panel.root.takeover = true
    ∧ (laneNo (x (pk .n32 [1, 16])) 1 < 256 ∧ laneNo (x (pk .n32 [1, 16])) 1 % 16 < 2 * (s {}).cols
        ∧ laneNo (x (pk .n32 [1, 16])) 1 / 16 < gridRows (s {}).panel.form)
    ∧ (chief {} {} 3).onDie 1 0 = true ∧ (chief {} {} 0).onDie 1 0 = false := by
  unfold Exact; decide +kernel

theorem test_witness_StewardServicesComplete_dies :
    let s := awake (chief {} {} 4)
    (s.vdnUsed 0 || s.vdnUsed (s.vdnOf (s.numberAt 2 0)) || !(s.isActive (idFabric (s.numberAt 2 0)))) = false
    ∧ (s.siteMapped (s.physSite 0) || s.siteMapped (s.numberAt 1 0)) = false
    ∧ (chief {} {} 2).vdnUsed 0 = true ∧ (mapped.siteMapped (mapped.physSite 0)) = true := by decide +kernel

theorem test_witness_StewardServicesComplete_control :
    let x (n : Lane) : Operand := (seen (chief (n32 n) {} 4) plain (.im 0)).a
    Control .n32 63 (x 63) ∧ Control .n32 255 (x 1) ∧ Control .n32 0x800000FF (x 0x800000B4)
    ∧ (2 ^ 31 ≤ controlNumber .n32 (x 0x800000B4) ∧ 60 ≤ controlNumber .n32 (x 0x800000B4) % 256 ∧ controlNumber .n32 (x 0x800000B4) % 256 ≤ 180)
    ∧ (2 ^ 31 ≤ controlNumber .n32 (x 0x8000003B) ∧ controlNumber .n32 (x 0x8000003B) % 256 < 60)
    ∧ controlNumber .n32 (x 5) < 2 ^ 31 := by
  unfold Control; decide +kernel

/-- Channel 0 of fabric die 1 and its far end with CURRENT keys and NEXT ones, both dies ACTIVE. -/
def twoKeys : State :=
  let c : Chan := { tx := putKey (putKey 0 0 2 0) 1 1 1, rx := putKey (putKey 0 0 2 0) 1 1 1 }
  let s := awake (chief {} {} 4)
  match s.peer (.fabric 1) 0 with
  | some (v, m) => (s.modChan (.fabric 1) 0 (fun _ => c)).modChan v m (fun _ => c)
  | none => s

/-- Fabric die 1 in a state. -/
def dieAt (st : Nat) : State := (chief {} {} 4).modIdent (idFabric 1) (fun x => { x with das := putBits x.das 61 3 st })

theorem test_witness_KeyAndAttestationCommandsComplete :
    let x (n : Lane) : Operand := (seen (chief (n32 n) {} 4) plain (.im 0)).a
    Control .n32 0x1F7F (x 1) ∧ controlNumber .n32 (x 1) / 256 % 4 < 2 ∧ (chief {} {} 4).namedDie 0 1 = some (.fabric 1)
    ∧ twoKeys.maySwitch (.fabric 1) 0 = true ∧ (chief {} {} 4).maySwitch (.fabric 1) 0 = false
    ∧ Control .n32 0x37F (x 1) ∧ namedBy (chief {} {} 4) (x 1) = some (.fabric 1)
    ∧ (∀ n < 6, dasState ((dieAt n).unit (.fabric 1)) = n)
    ∧ (dieAt 3).dieBusy (.fabric 1) = false ∧ (dieAt 4).dieBusy (.fabric 1) = false
    ∧ UnitId.fabric 1 ≠ .fabric ((dieAt 3).physDie (ekDie (dieAt 3).cur.1)) ∧ UnitId.fabric 1 ≠ .port (dieAt 3).panel.root.port := by
  unfold Control; decide +kernel


/-! Sequencers, frames and launches. -/

/-- A launch header of one region, one region wide and high, without dependences. -/
def header : List Dword :=
  BitVec.ofNat 64 (0xC35A * 2 ^ 48 + 2 ^ 44 + 2 ^ 27 + 2 ^ 21 + 2 ^ 15 + 2 ^ 9) :: List.replicate 15 0

/-- A block of one element with one slot, a NOP. -/
def block : List Dword :=
  let ws : List Dword := [BitVec.ofNat 64 (0x5A3C * 2 ^ 48 + 6 * 2 ^ 36 + 2 ^ 28 + 2 ^ 20), 1, 0, 0, 0xC200_0000_0000_0000]
  ws ++ [BitVec.ofNat 64 (15 * 2 ^ 60 + crc16 (dwordBytes ws)), 0x8008_0000_6AFF_0F00]

/-- Region 0 in RUNNING partition 1 with launch 1, its stream at 0x8000 holding words; a page of 1 GB maps VA 0 to granule 0 of
stack 0, which maps frame 0; a package of one fabric die, its every die ACTIVE and its
channels keyed. -/
def world (ws : List Dword) : State :=
  let bytes (l : List Dword) : List Byte := l.flatMap (fun w => valBytes 8 w.toNat)
  let p : Part := { pdef := BitVec.ofNat 64 (2 ^ 63 + 2 ^ 28 + 2 ^ 34), pstat := putBits 0 61 3 2, ps1r := 0x2001, next := 1
                    launches := [{ lnch := 1, hdr := header, rect := some { gx := 0, gy := 0, w := 1, h := 1 } }] }
  let r : Region := { Region.placed {} false with pid := 2, lnch := 1, seq := .run, base := 0x8000 }
  let s : State := { regions := [(0, r)], parts := [(1, p)], panel := { form := .ikbD 1 1 [[0]] } }
  let s := s.units.foldl (fun s u => s.modUnit u (fun x => { x with das := putBits (putBits x.das 61 3 3) 8 8 0xFF })) s
  let v := (BitVec.ofNat 64 (2 ^ 63 + 4096), BitVec.ofNat 64 (2 ^ 49))
  let s : State := { s with panel := { s.panel with vft := [(0, v), (64 * 200, (BitVec.ofNat 64 (2 ^ 63), BitVec.ofNat 64 (16 * 2 ^ 8)))] } }
  let s := s.write (stackKey 0 4096) [0, 0, 0, 0xF0]
  let s := s.write (stackKey 0 0x2000) (bytes [0x3001])
  let s := s.write (stackKey 0 0x3000) (bytes [0x4001])
  let s := s.write (stackKey 0 0x4000) (bytes [0x91F])
  s.write (stackKey 0 0x8000) (bytes ws)

/-- The same with the word at 0x8000 a sync word of a generation. -/
def synced (gen : Nat) : State :=
  { (world []).write (stackKey 0 0x8000) (valBytes 16 (syncBits 1 0 gen 0 0 4)) with marks := [(stackKey 0 0x8000 / 16, true)] }

theorem test_witness_SequencerWordsComplete :
    ((world block).readWords 0 0x8000 1).toOption = some [block.headD 0] ∧ bitsOf (block.headD 0) 48 16 = 0x5A3C
    ∧ ((world [1]).readWords 0 0x8000 1).toOption = some [1] ∧ (0xFFFF_FFFF : BitVec 32).msb = true
    ∧ ((synced 1).access 0 0x8000 16 needRead).toOption = some (0x8000, stackKey 0 0x8000)
    ∧ (synced 1).marked (stackKey 0 0x8000) 16 = true
    ∧ (synced 1).genReached 0x8000 (stackKey 0 0x8000) 1 = true ∧ (synced 1).genReached 0x8000 (stackKey 0 0x8000) 2 = false
    ∧ ((world []).region 0).joins.get 3 = 0 ∧ ((world []).modRegion 0 (fun x => { x with joins := [(3, 1)] }) |>.region 0).joins.get 3 ≠ 0 := by
  decide +kernel

theorem test_witness_SequencerWordsComplete_order :
    allCommitted (world []) 0 ∧ ¬ allCommitted ((world []).modRegion 0 (fun x => { x with order := [7] })) 0 := by
  unfold allCommitted; decide +kernel

theorem test_witness_ChildLaunchIsAcceptedOrRefused :
    (6 ≤ (6 : BitVec 3).toNat ∧ (5 : BitVec 3).toNat < 6) ∧ (world header).performed 4 ((world header).region 0).cov = true
    ∧ (127 : Dword).toNat % 128 ≠ 0 ∧ ((world header).readWords 0 0x8000 16).toOption = some header
    ∧ (world header).pidOf 0 = some 1 ∧ ((world header).launchOf 0).map (fun l => l.lnch) = some 1
    ∧ ((world []).judge 1 header 2 (.child 1 0 3)).toOption.isSome = true
    ∧ ((world []).judge 1 header 25 (.child 1 0 3)).toOption.isSome = false := by
  decide +kernel

theorem test_witness_BlockEventsComplete :
    (((world block).region 0).seq = .run ∧ (world block).moving 0 = true ∧ ((world block).region 0).armFrame = some 1)
    ∧ (match (world block).armBlockAt 0 0 1 with | .ok (some _) => true | _ => false) = true
    ∧ (match (world [1]).armBlockAt 0 0 1 with | .error (c, none) => c == .blkAlign | _ => false) = true
    ∧ (match ((world block).modElem 0 (fun e => { e with slots := [(0, { frm := 1 })] })).armBlockAt 0 0 1 with
        | .ok none => true | _ => false) = true := by
  decide +kernel

/-- Frame 0 in a state. -/
def framed (st : FrameSt) (f : Frame → Frame := id) : State :=
  ((world []).modFrame 0 0 (fun x => f { x with st := st })).modRegion 0 (fun x => { x with order := [0] })

theorem test_witness_BlockEventsComplete_frames :
    (((framed .armed).frame 0 0).st = .armed ∧ ((framed .armed).region 0).mayFire 0 = true
      ∧ (framed .armed).fieldsFree 0 (((framed .armed).frame 0 0).inits.map (fun i => i.1)) = true)
    ∧ ((framed .firing (fun f => { f with loops := { f.loops with done := false } })).frame 0 0).loops.done = false
    ∧ ((framed .draining (fun f => { f with loops := { f.loops with done := true } })).frame 0 0).loops.done = true
    ∧ (framed .draining).tokensLeft 0 0 = false ∧ ((framed .committed).frame 0 0).st = .committed
    ∧ ((framed .committed).region 0).order.head? = some 0 ∧ (framed .draining).moving 0 = true := by
  decide +kernel

theorem test_witness_BlockEventsComplete_active : activeFrame (framed .firing) 0 0 ∧ activeFrame (framed .draining) 0 0 := by
  unfold activeFrame; decide +kernel

/-- The world with its launch changed, the region free. -/
def launched (st : Nat) (f : Launch → Launch) : State :=
  let s := world []
  let s := s.modPart 1 (fun p => { p with pstat := putBits 0 61 3 st, launches := p.launches.map f })
  s.modRegion 0 (fun x => { x with lnch := 0 })

/-- A bound submission queue of partition 1 with entries held. -/
def bound64 (n : Nat) : State :=
  (world []).modVf 0 (fun v => { v with sqs := [(0, { bound := true, pid := 1, held := List.replicate n [] })] })

theorem test_witness_LaunchEventsComplete :
    ((((bound64 63).vf 0).sqs.get 0).bound = true ∧ (bound64 63).vfOn 0 = true ∧ ((bound64 63).vf 0).disabling = false
      ∧ (((bound64 63).vf 0).sqs.get 0).held.length < 64 ∧ 64 ≤ (((bound64 64).vf 0).sqs.get 0).held.length)
    ∧ ((bound64 63).judge 1 header 1 (.host 0 0 0)).toOption.isSome = true
    ∧ ((bound64 63).judge 1 [] 1 (.host 0 0 0)).toOption.isSome = false := by
  decide +kernel

theorem test_witness_LaunchEventsComplete_placing :
    let q : Rect := { gx := 0, gy := 0, w := 1, h := 1 }
    let s (st : Nat) := launched st (fun l => { l with rect := none })
    let ok (st : Nat) : Bool := (launchNo (s st) 1 1).any (fun l => l.waiting && (s st).placeable 1 l.hdr q && (s st).isNext 1 l)
    ok 1 = true ∧ ok 2 = true ∧ pState ((s 1).part 1) = 1 ∧ pState ((s 2).part 1) = 2 := by
  decide +kernel

theorem test_witness_LaunchEventsComplete_running :
    (launchNo (world []) 1 1).any (fun l => l.fault == none && (world []).nextItem l 0 == some 0) = true
    ∧ pState ((world []).part 1) = 2
    ∧ (let s := ((world []).modPart 1 (fun p => { p with launches := p.launches.map (fun l =>
          { l with slots := [(0, { item := l.items, running := true })] }) })).modRegion 0 (fun x => { x with seq := .ended })
       (launchNo s 1 1).any (fun l => s.allDone l && s.performed 4 (s.launchCov l)) = true) := by
  decide +kernel


/-! The networks and the memory system. -/

/-- Partition 1 of the first two dies of the part, in a state. -/
def pair (st : Nat) (f : Part → Part := id) : State :=
  chief {} {} st (fun p => f { p with pdef := BitVec.ofNat 64 (2 ^ 63 + 8 * 2 ^ 28 + 4 * 2 ^ 34) })

/-- One packet in the network, with an empty slot and channel of frame 0 in element 0. -/
def sent (d : Dest) (src : Option (Nat × Nat)) : State :=
  { (seat {} {}).modElem 0 (fun e => { e with slots := [(0, { frm := 1 })], ins := [(3, { frm := 1 })] }) with
    net := [{ pkt := n32 1, src := src, dst := d }] }

theorem test_witness_NetworkEventsComplete :
    let go (s : State) : Bool := (s.flitAt 0).any (fun f => s.wayOpen f && s.moving (flitRegion f)
      && s.performed (if destIsland f.dst then 3 else 1) f.pkt.cov && !(s.flitFault f) && s.destOpen f.dst
      && (destIsland f.dst || s.dripAdmits f (flitRegion f)))
    let q (s : State) : State := s.modIsland 0 0 (fun x => { x with queues := [(15, { tpl := 1 })] })
    go (sent (.field 0 0 2) (some (0, 0))) = true ∧ go (sent (.chan 0 3) none) = true ∧ go (q (sent (.queue 0 0 15) (some (0, 0)))) = true
    ∧ ((sent (.queue 0 0 15) (some (0, 0))).flitAt 0).any (fun f => (sent (.queue 0 0 15) (some (0, 0))).flitFault f) = true
    ∧ State.reset.wayOpen { dst := .field 0 0 2, rk := rkOf 1 0 } = false := by
  decide +kernel

theorem test_witness_NetworkEventsComplete_channels :
    let s := entries.modElem 0 (fun e => { e with outs := [(3, { q := [(n32 1, 0)], bound := 1, frm := 1 })] })
    (∃ p slot rest, ((s.elem 0).outs.get 3).q = (p, slot) :: rest ∧ s.consumerFree (.field 0 0 0) p = true)
    ∧ ((s.elem 0).outs.get 3).bound ≠ 0 ∧ s.moving (ekRegion 0) = true
    ∧ s.destOf 0 ((s.elem 0).t.get (((s.elem 0).outs.get 3).bound - 1)) = some (.field 0 0 0) ∧ s.sendStop 0 (.field 0 0 0) = none := by
  refine ⟨⟨n32 1, 0, [], ?_⟩, ?_⟩ <;> decide +kernel

theorem test_witness_NetworkEventsComplete_waiting :
    let t : Ret := {}
    let s : State := { seat {} {} with creds := [(0, 7)], bnds := [(3, [], t)] }
    s.creds[0]? = some (0, 7) ∧ entries.creditWay 0 7 = true
    ∧ (let z := (pair 2).modElem (ekOf 3 7) (fun e => { e with t := [(7, 0x8000_0001)] })
       (z.destOf (ekOf 3 7) 0x8000_0001).any (fun d => destDie d == 1) = true ∧ z.creditWay (ekOf 3 7) 7 = false) ∧ s.bnds[0]? = some (3, [], t) ∧ s.moving 0 = true ∧ s.performed 3 [] = true ∧ s.bnds.take 0 = []
    ∧ twoReady.ready 0 31 = true ∧ twoReady.moving (ekRegion 0) = true ∧ (twoReady.elem 0).hold = .run := by
  decide +kernel

/-- One request, in a world that maps its address. -/
def asked (op : ReqOp) (p : Phase) (f : Req → Req := id) : State :=
  { world [] with reqs := [f { op := op, phase := p, va := 0x8000, gpa := 0x8000, size := 4 }] }

theorem test_witness_RequestsTravel :
    let s := asked (.load .n32) .xlat
    let z := { s with parts := [] }
    let w (p : Phase) := asked .store p
    let r (e : Option FCode) := asked (.load .n32) .resp (fun q => { q with err := e, res := some (n32 1) })
    let q (s : State) : Option Req := s.reqAt 0
    (s.stage1 0 (s.who 0) 0x8000 needRead).toOption.isSome = true ∧ (z.stage1 0 (z.who 0) 0x8000 needRead).toOption.isSome = false
    ∧ (q s).any (fun q => q.phase == .xlat) = true ∧ s.moving 0 = true
    ∧ (q (w .rwb)).any (fun q => isStore q.op && !((w .rwb).behindWrite q)) = true
    ∧ (q (w .qeq)).any (fun q => isStore q.op && !((w .qeq).behindWrite q)) = true
    ∧ (q (r none)).any (fun q => ((r none).settled q).isSome && q.err.isNone) = true
    ∧ (q (r (some .perm))).any (fun q => ((r (some .perm)).settled q).isSome && q.err.isSome) = true := by
  decide +kernel

/-- Does a request of a state stand at its home, at the word of 0x8000? -/
def homed (s : State) : Bool :=
  (s.reqAt 0).any (fun q => q.phase == (if isStore q.op then .deq else .home) && s.moving q.ret.rk && !(s.isRemote q.gpa)
    && (s.homeKey q).toOption == some (stackKey 0 0x8000) && (if isStore q.op then !(s.behindWrite q) else !(s.olderOpen q)))

/-- A state whose word at 0x8000 is a sync word. -/
def withWord (s : State) (bits : Nat) : State := { s.write (stackKey 0 0x8000) (valBytes 16 bits) with marks := [(stackKey 0 0x8000 / 16, true)] }

theorem test_witness_HomesServeRequests :
    let w := syncBits 5 0 2 0 0 4
    homed (asked (.load .n32) .home) = true ∧ (asked (.load .n32) .home).marked (stackKey 0 0x8000) 4 = false
    ∧ homed (withWord (asked (.load .n32) .home) w) = true ∧ (withWord (asked (.load .n32) .home) w).marked (stackKey 0 0x8000) 4 = true
    ∧ homed (asked .store .deq (fun q => { q with data := [1, 2, 3, 4] })) = true
    ∧ homed (asked (.atomic 0 false false true 1 0) .home) = true
    ∧ (asked (.atomic 0 false false true 1 0) .home).reqs.all (fun q => !((asked (.atomic 0 false false true 1 0) .home).seesPosted q)) = true
    ∧ homed (asked (.sya 1 4 0) .home (fun q => { q with size := 16 })) = true ∧ syaCheck (stackKey 0 0x8000) 1 4 0 = none
    ∧ homed (withWord (asked (.syadd 1) .home (fun q => { q with size := 16 })) w) = true
    ∧ (withWord (asked (.syadd 1) .home) w).performed (syncScope (syncVal (withWord (asked (.syadd 1) .home) w).mem (stackKey 0 0x8000))) [] = true
    ∧ homed (withWord (asked (.sywch 2) .home (fun q => { q with size := 16 })) w) = true
    ∧ (withWord (asked (.sywch 2) .home) w).wordMet (stackKey 0 0x8000) 2 = true
    ∧ (withWord (asked (.sywch 3) .home) w).wordMet (stackKey 0 0x8000) 3 = false := by
  decide +kernel

/-- One request waiting at the word of 0x8000. -/
def atWord (op : ReqOp) (data : List Byte := []) : State :=
  asked op .wait (fun q => { q with size := 16, word := stackKey 0 0x8000, data := data })

theorem test_witness_SyncHomeCycleCompletes :
    let a := stackKey 0 0x8000
    let s (n : Nat) := withWord (atWord (.syadd n)) (syncBits 5 4 2 0 0 4)
    ((s 1).waitingAt a).length = 1 ∧ (s 1).copyKey a = none ∧ (s 1).marked a 16 = true
    ∧ (syncTgt (syncVal (s 1).mem a) = 5 ∧ syncCnt (syncVal (s 1).mem a) = 4)
    ∧ ((atWord (.sya 5 4 0)).waitingAt a).length = 1 ∧ ((atWord (.sya 0 0 0)).waitingAt a).length = 1
    ∧ (atWord (.sya 0 0 0)).hasWaiter a = false := by
  decide +kernel

theorem test_witness_VersionHomeCycleCompletes :
    let a := stackKey 0 0x8000
    let s (op : ReqOp) : State := { atWord op (valBytes 8 7) with vers := [(a / 8, 255)] }
    ((s (.ldv 255)).waitingAt a).length = 1 ∧ (s (.ldv 255)).nearPosted 0 (some 0) a 8 = false
    ∧ ((s (.ldv 255)).waitingAt a).all (fun q => !((s (.ldv 255)).olderOpen q)) = true
    ∧ (s (.ldv 255)).copyKey a = none ∧ (s (.ldv 255)).eccBad a 8 = false
    ∧ ((s (.ldv 255)).vers.get (a / 8)).toNat = 255
    ∧ ((s (.stv 0)).waitingAt a).length = 1 ∧ 0 = (255 + 1) % 256 ∧ (valBytes 8 7).length = 8 ∧ (s (.stv 0)).performed (keyTier a) [] = true
    ∧ ((s (.rclm 255)).waitingAt a).length = 1
    ∧ (((255 : Int) - 254) % 256 = 1 ∧ ((255 : Int) - 128) % 256 = 127 ∧ ((255 : Int) - 127) % 256 = 128 ∧ ((255 : Int) - 0 + 1) % 256 = 0) := by
  decide +kernel

/-- A window word with a posted write of the steward region on its way, and an LDV that waits at it. -/
def postedTo : State :=
  let a := windowKey 0 64
  let r : Ret := { rk := 16 }
  { chief {} {} 2 with
    reqs := [{ op := .store, ret := r, phase := .rwb, gpa := 2 ^ 44 + 64, size := 4 }, { id := 1, op := .ldv 0, ret := r, phase := .wait, word := a }] }

theorem test_witness_VersionHomeCycleCompletes_behind :
    (postedTo.waitingAt (windowKey 0 64)).map (fun q => q.id) = [1] ∧ postedTo.copyKey (windowKey 0 64) = none
    ∧ postedTo.nearPosted 0 (some 16) (windowKey 0 64) 8 = true := by
  decide +kernel

theorem test_witness_TileCyclesComplete :
    let s := (buffer 0 .full 64 28 {} {}).modBnd 0 0 0 (fun x => { x with ahead := 7 })
    s.moving 0 = true ∧ (s.frame 0 0).st = .firing ∧ (s.bnd 0 0 0).shape.size ≠ 0 ∧ (s.bnd 0 0 0).shape.mode = 0
    ∧ (s.bnd 0 0 0).ahead < 8 ∧ (s.ringOf 0 0 0).atCons.st = .full
    ∧ (s.ringOf 0 0 0).ccur + 4 * ((s.bnd 0 0 0).ahead + 1) ≤ (s.ringOf 0 0 0).atCons.mark
    ∧ ((s.modBnd 0 0 0 (fun x => { x with ahead := 8 })).bnd 0 0 0).ahead = 8 := by
  decide +kernel

/-- One request of one word in the queue of tile 0 of region 0, of each kind; and SCAT's word stored by a cycle of the tile (R141). -/
theorem test_witness_TileCyclesComplete_requests :
    let q (k : Nat) : TileReq := { kind := k, offs := [60], data := [7], left := [0], size := if k = 2 then 8 else 4 }
    let s (k : Nat) : State := { seat {} {} with tileQ := [(0, [q k])] }
    (s 0).moving 0 = true ∧ (s 2).tileQ.get (8 * 0 + 0) = [q 2] ∧ (s 0).eccBad (tileKey 0 0 60) 4 = false ∧ (s 2).eccBad (tileKey 0 0 60) 8 = false
    ∧ (match exec (.tileBankCycle 0 0) (s 1) with
       | .next u => (memBytes u.mem (tileKey 0 0 60) 4, u.tileQ.get 0 == [], u.reqs.map (fun x => x.phase)) | _ => ([], false, []))
        = ([7, 0, 0, 0], true, [.resp]) := by
  decide +kernel


/-! Engines, islands and partitions. -/

/-- The template of `record`, with a number, gated by credits, and a SYNC word. -/
def template (cred credits sync : Nat) : Template :=
  { id := 1, pid := 1, lnch := 1, credits := credits
    words := BitVec.ofNat 64 (0x1800_0200_0000_0000 * (if cred = 0 then 0 else 1) + (if cred = 0 then 0x1800_0000_0000_0000 else 0))
      :: 0x1000 :: 0 :: BitVec.ofNat 64 sync :: record.drop 4 }

/-- The world with a template in slot 0 of island 0, and one job. -/
def working (j : Job) (t : Template) : State :=
  { (world []).modIsland 0 0 (fun x => { x with tpls := [(0, some t)] }) with jobs := [j] }

theorem test_witness_CopyEventsComplete_start :
    let t := template 1 1 0
    let s := working { tpl := t } t
    (s.jobAt 0).any (fun j => decide (j.started = false ∧ s.moving j.region = true ∧ s.served j.region = true ∧ s.olderJobs j = []
      ∧ j.tmov = none ∧ j.tpl.cred = 1)) = true
    ∧ ((s.island 0 0).byId 1).map (fun x => x.2.credits) = some 1 := by
  decide +kernel

/-- A queue token. -/
def token (p : Packet) (permit : Bool) : QTok := { f := { pkt := p }, tpl := 1, permit := permit }

/-- The world with a token at the head of queue 0 of island 0, bound to a template. -/
def tokened (k : QTok) (t : Template) : State :=
  (working {} t).modIsland 0 0 (fun x => { x with queues := [(0, { q := [k], tpl := 1 })] })

/-- A FILL packet. -/
def permit : Packet := { n32 0 with kind := 3 }

/-- Is the token there, and its template armed in slot 0 with these credits? -/
def tokenAt (s : State) (k : QTok) (cred credits : Nat) : Bool :=
  s.queueHead 0 0 0 == some k && ((s.island 0 0).byId 1).any (fun x => x.1 == 0 && x.2.cred == cred && x.2.credits == credits && s.moving x.2.rk)

theorem test_witness_CopyEventsComplete_tokens :
    tokenAt (tokened (token (n32 0) false) (template 0 0 0)) (token (n32 0) false) 0 0 = true
    ∧ (originOf (n32 0) 1).toOption.isSome = true ∧ (originOf (f32 0) 1).toOption.isSome = false
    ∧ tokenAt (tokened (token permit true) (template 1 0 0)) (token permit true) 1 0 = true
    ∧ tokenAt (tokened (token permit true) (template 1 1 0)) (token permit true) 1 1 = true
    ∧ tokenAt (tokened (token (n32 0) true) (template 1 0 0)) (token (n32 0) true) 1 0 = true
    ∧ permit.kind = 3 ∧ (n32 0).kind ≠ 3 := by
  decide +kernel

theorem test_witness_CopyEventsComplete_running :
    let t (sync : Nat) := template 0 0 sync
    let run (s : State) : Bool := (s.jobAt 0).any (fun j => decide (j.started = true ∧ j.moved = false ∧ s.moving j.region = true
      ∧ j.tmov = none ∧ j.unit ≠ j.tpl.units))
    let done (s : State) : Bool := (s.jobAt 0).any (fun j => decide (j.started = true ∧ j.moved = true ∧ s.moving j.region = true
      ∧ s.words = [] ∧ j.far = false ∧ j.tmov = none))
    let z (sync : Nat) := working { tpl := t sync, started := true, unit := (t sync).units } (t sync)
    let y := { z 0x8000 with mem := (synced 1).mem, marks := (synced 1).marks }
    run (working { tpl := t 0, started := true } (t 0)) = true ∧ (t 0).sync = 0 ∧ done (z 0) = true
    ∧ (t 0x8000).sync ≠ 0 ∧ done y = true
    ∧ (y.jobAt 0).any (fun j => match y.jobSync j with | .ok (some _) => true | _ => false) = true := by
  decide +kernel

theorem test_witness_CopyEventsComplete_words :
    let s := (working { tpl := template 0 0 0 } (template 0 0 0)).modBnd 0 0 1 (fun x => { x with
      lvl := 0, idx := 1, shape := { mode := 1, size := 64 }, tag := some { tag := 3, wpf := 16, nfill := 2 }, fills := 1, count := 15 })
    let u : State := { s with words := [{ job := 0, rk := 0, tile := 1, tag := 3, off := 60, val := 7 }] }
    let b := u.bnd 0 0 1
    (u.words[0]?).isSome = true ∧ (u.jobAt 0).any (fun j => j.allows 1 1 (b.shape.base + b.ring.prod * b.shape.sub + 60) 4 true) = true
    ∧ u.moving 0 = true ∧ u.tagOwner 0 1 3 = some (0, 1) ∧ b.fills ≠ (b.tag.getD {}).nfill ∧ b.ring.atProd.st = .empty ∧ 60 + 4 ≤ b.shape.sub
    ∧ b.count + 1 = (b.tag.getD {}).wpf := by
  decide +kernel

/-- The example session of leaves 0 and 1, with leaf states. -/
def session (a b : Leaf) (f : Merge → Merge := id) : State :=
  (opened {}).modMerge 0 0 (fun m => f { m with leaves := [(0, a), (1, b)] })

theorem test_witness_MergeAndQueueEventsComplete :
    let s := session {} {}
    let m := s.merge 0 0
    let p (ls : List Lane) : Packet := { pk .n32 ls with kind := 1 }
    let ok (ls : List Lane) : Bool := decide ((m.leafCheck 0 (p ls)).toOption.isSome = true ∧ (m.leaves.get 0).count + m.entriesIn (p ls) ≤ m.window)
    m.opened = true ∧ s.moving m.rk = true ∧ ok [1, 5] = true ∧ (m.leafCheck 2 (p [1, 5])).toOption.isSome = false
    ∧ ({ s with net := [{ pkt := p [1, 5], dst := .leaf 0 0 0 }] } : State).flitAt 0 = some { pkt := p [1, 5], dst := .leaf 0 0 0 }
    ∧ m.streamEnd = false ∧ m.remerge = false ∧ m.runs.length < 4096 := by
  decide +kernel

theorem test_witness_MergeAndQueueEventsComplete_root :
    let s := session { win := [.entry 3 7] } { rend := true }
    let m := s.merge 0 0
    let ends := m.used.map (fun l => m.leaves.get l)
    let z := session { win := [.stop 0] } {}
    (((z.merge 0 0).used.map (fun l => (z.merge 0 0).leaves.get l)).any Leaf.atStop = true)
    ∧ ends.any Leaf.atStop = false ∧ ends.all Leaf.rend = false ∧ (∀ x ∈ ends, x.rend = true ∨ x.win ≠ []) ∧ m.best = some (0, 3, 7)
    ∧ (s.combine 0 0 { m with leaves := m.leaves.modify 0 (fun x => { x with win := x.win.drop 1 }) } 3 7).2.toOption.isSome = true
    ∧ m.hold = none
    ∧ (let y := session {} {} (fun m => { m with remerge := true })
       (y.mergePass 0 0 (y.merge 0 0)).2.toOption.isSome = true) := by
  decide +kernel

/-- Every leaf at the end of its round, with nothing held, with an entry held of a session that does not accumulate, and an entry held
that the next combines with. -/
theorem test_witness_MergeAndQueueEventsComplete_rounds :
    let s := session { rend := true } { rend := true }
    let h := session { rend := true } { rend := true } (fun m => { m with cfg := m.cfg.set 0 ((m.cfg.getD 0 0) &&& 0x3FFF_FFFF), hold := some (3, 7) })
    let ends (s : State) := (s.merge 0 0).used.map (fun l => (s.merge 0 0).leaves.get l)
    (ends s).any Leaf.atStop = false ∧ (ends s).all Leaf.rend = true ∧ (s.merge 0 0).hold = none
    ∧ (ends h).all Leaf.rend = true ∧ (h.merge 0 0).hold = some (3, 7) ∧ (h.merge 0 0).opened = true
    ∧ (s.merge 0 0).cmb ≠ 0 := by
  decide +kernel

theorem test_witness_MergeAndQueueEventsComplete_output :
    let s := (session {} {} (fun m => { m with out := [n32 1], cfg := [m.cfg.getD 0 0, 3, 0x8000_0000] })).modElem 0 (fun e => { e with slots := [(0, { frm := 1 })] })
    let m := s.merge 0 0
    m.out = [n32 1] ∧ s.moving m.rk = true ∧ (s.destOf m.e m.oroute).isSome = true := by
  decide +kernel

/-- A job that has gathered a message for an exchange queue on QB descriptor 0, in a world with a grounds ring. -/
def messaging (waiting : List (List Lane × Nat)) (st : BufSt) : State :=
  let k := bufferKey 0 1 0
  let s := working { tpl := template 0 0 0, xq := k + 1, msg := List.replicate 8 1 } (template 0 0 0)
  let s := s.modPart 1 (fun p => { p with pgrb := 0xB000 })
  let s := s.write (stackKey 0 0xB000) (([0xC000, 4096, 0, 0, 0, 0] : List Nat).flatMap (valBytes 8))
  let d : Desc := { shape := some { mode := 0, size := 64, depth := 1 }, xq := some { pid := 1, waiting := waiting }
                    ring := { subs := [(0, { st := st })] } }
  { s with descs := [(k, d)] }

theorem test_witness_MergeAndQueueEventsComplete_queue :
    let k := bufferKey 0 1 0
    let s := messaging [] .empty
    let z := messaging [([1, 2], 0)] .full
    (s.jobAt 0).any (fun j => decide (j.xq = k + 1 ∧ j.queued = false ∧ j.done = false ∧ s.moving j.region = true ∧ 4 * j.msg.length = 32)) = true
    ∧ ((s.descs.get k).shape).any (fun h => decide (32 ≤ h.sub)
        && !(s.marked (s.descBase k h + (s.descs.get k).ring.prod * h.sub) 32)) = true
    ∧ (z.descs.get k).xq.any (fun x => decide (z.moving x.rk = true ∧ x.waiting = [([1, 2], 0)])) = true
    ∧ (z.descs.get k).ring.atProd.st ≠ .empty
    ∧ (z.ringAppend 1 1 (messageHead k 8) [1, 2]).2.toOption.isSome = true
    ∧ ((z.write (stackKey 0 0xB020) (valBytes 8 4096)).ringAppend 1 1 (messageHead k 8) [1, 2]).2.toOption.isNone = true := by
  decide +kernel

theorem test_witness_MergeAndQueueEventsComplete_nodes :
    let s (f : Node → Node) := (noded 1 false).modNode 0 f
    ((noded 1 false).node 0).k ≠ [] ∧ (noded 1 false).moving ((noded 1 false).node 0).rk = true
    ∧ ((s (fun n => { n with sends := [(n32 1, 0)] })).node 0).sends = [(n32 1, 0)]
    ∧ ((s (fun n => { n with result := some ({}, 1) })).node 0).result.isSome = true := by
  decide +kernel

/-- The world with its launch in a slice of one window, and a SAVED partition with a launch in its group. -/
def sliced (others : List (Nat × Part)) : State :=
  let s := (world []).modPart 1 (fun p => { p with pts := 1 })
  { s with parts := s.parts ++ others }

theorem test_witness_PartitionEventsComplete :
    (pState ((pair 3).part 1) = 3 ∧ diesOf (pair 3) 1 = [0, 1] ∧ ((pair 3).part 1).frozen = [])
    ∧ (pair 3 (fun p => { p with frozen := [1] })).allFrozen 1 = false ∧ (pair 3 (fun p => { p with frozen := [0, 1] })).allFrozen 1 = true
    ∧ (pState ((sliced []).part 1) = 2 ∧ (sliced []).sliceLen 1 = 1 ∧ ((sliced []).part 1).ending = 0 ∧ (sliced []).nextMember 1 = none)
    ∧ (sliced [(2, { pdef := BitVec.ofNat 64 (2 ^ 63), pstat := putBits 0 61 3 4, launches := [{}] })]).nextMember 1 = some 2
    ∧ pState ((pair 5).part 1) = 5 := by
  unfold diesOf; decide +kernel

theorem test_witness_PartitionEventsComplete_copy :
    let s : State := { forwarding (.copy 2 9) with mem := [] }
    s.panel.pgfw.get (s.physSite 1 * 2 ^ 20 + 7) = .copy 2 9 ∧ Memory.wf s.mem = true
    ∧ siteKey (s.physSite 1) (7 * 2 ^ 21) + 2 ^ 21 ≤ siteKey (s.newSite (s.physSite 1) 2) (9 * 2 ^ 21) := by
  decide +kernel

theorem test_witness_PartitionEventsComplete_reports :
    let m : FaultMsg := { id := 4, record := { code := 0x11, pid := 1, lnch := 9 } }
    let s : State := { world [] with recs := [m] }
    (s.recs.head? = some m ∧ m.record.code ≠ 0x60 ∧ s.recordLaunch m.record = none ∧ s.eventOpen m.die m.record.vf = true
      ∧ (pair 2).eventOpen m.die m.record.vf = false)
    ∧ (pair 2).accessInFlight 0 1 = false ∧ 0 ∉ ((pair 2).part 1).quiet
    ∧ (∀ d ∈ diesOf (pair 2 (fun p => { p with quiet := [0, 1] })) 1, d ∈ ((pair 2 (fun p => { p with quiet := [0, 1] })).part 1).quiet)
    ∧ ((pair 2).part 1).launches.all (pair 2).allDone = true ∧ ((world []).part 1).launches.all (world []).allDone = false ∧ (world []).awaitsOthers 1 = false
    ∧ ((world []).modPart 1 (fun p => { p with launches := [{ deps := [(0, 1)] }] })).awaitsOthers 1 = true := by
  unfold diesOf
  decide +kernel

theorem test_witness_PartitionEventsComplete_barista :
    let s := (pair 2).modElem 0 (fun e => { e with hold := .run, refusals := 32768, ins := [(0, { frm := 1 })] })
    let s := (s.modFrame 0 0 (fun x => { x with st := .firing, flags := { x.flags with cln := true } })).modRegion 1 (fun x => { x with pid := 2 })
    s.bottleneck 0 1 = some 0 ∧ (pair 2).bottleneck 0 1 = none ∧ s.channelFrame 0 = some 0 ∧ (s.frame 0 0).flags.cln = true
    ∧ (s.frame 0 0).clones.length < 3 ∧ s.idleRegion (rkOf 0 1) 1 = true := by
  decide +kernel


/-! The management plane, the host, TRLS, SPDM, links and power. -/

/-- The world with VF 0's quotas, a queue pair 2, a window 2 over its page of 4 KB at VA 0x8000, and room in its rings. -/
def served : State :=
  let s := world []
  let s := onPanel s (fun p => { p with
    vft := p.vft.set (64 * 200) (BitVec.ofNat 64 (2 ^ 63), BitVec.ofNat 64 (16 * 2 ^ 8 + 4 * 2 ^ 20 + 2 * 2 ^ 26))
    qps := [(2, { isOpen := true, vf := 0, pid := 1, port := 7 })]
    windows := [(2, { isOpen := true, vf := 0, pid := 1, rd := true, wr := true, va := 0x8000, len := 4096 })] })
  s.modVf 0 (fun v => { v with rings := [(16, { head := 3, sent := 5 })], sqs := [(63, { head := 1, written := 2, entries := 64 })] })

theorem test_witness_ManagementCommandsComplete :
    let s := served
    let root (t : Bool) := s.modRoot (fun r => { r with takeover := t })
    (0 < s.ndies ∧ s.dieActive 0 = true) ∧ ¬ (1 < s.ndies) ∧ stewardHeader header = true ∧ stewardHeader [] = false
    ∧ s.stewardCmp (rkOf 0 16) header = some none
    ∧ (root true).panel.root.takeover = true ∧ (root false).panel.root.takeover = false
    ∧ s.portUp 7 = true ∧ s.portUp 8 = false ∧ openPairs s (fun x => x.vf == 0) < bitsOf (s.vftAt 200 0).2 26 8
    ∧ openPairs s (fun x => x.port / 8 == 0) < 4096 ∧ (s.panel.qps.get 2).isOpen = true ∧ (s.panel.windows.get 2).isOpen = true
    ∧ 3 < bitsOf (s.vftAt 200 0).2 20 6 ∧ s.qpOf 2 0 = true ∧ s.qpOf 2 1 = false ∧ (∀ x ∈ s.panel.root.sessions, x.2.isOpen = false) := by
  decide +kernel

theorem test_witness_ManagementCommandsComplete_vf : VfPid served 0 1 ∧ ¬ VfPid served 0 2 := by
  unfold VfPid; decide +kernel

theorem test_witness_HostAccessesComplete :
    let s := served
    let pair := s.panel.qps.get 2
    let range (len : Nat) := s.hostRange pair 2 0x8000 len needWrite
    s.vfServed 0 = true ∧ s.vfServed 1 = false ∧ s.vfServed 64 = false ∧ (valBytes 8 5).length = 8 ∧ bytesVal (valBytes 8 5) = 5
    ∧ (s.ring 0 16).sent = 5 ∧ (s.ring 0 16).head = 3 ∧ ((s.vf 0).sqs.get 63).head = 1 ∧ ((s.vf 0).sqs.get 63).written = 2
    ∧ pair.isOpen = true ∧ (s.panel.qps.get 3).isOpen = false
    ∧ range 4096 = some [{ gpa := 0x8000, key := stackKey 0 0x8000, off := 0, len := 4096 }] ∧ range 4097 = none
    ∧ s.hostRange pair 2 0x8000 8 needRead = some [{ gpa := 0x8000, key := stackKey 0 0x8000, off := 0, len := 8 }]
    ∧ pair.port / 8 = (s.vf pair.vf).home ∧ pair.port / 8 ≠ ((s.modVf 0 (fun v => { v with home := 1 })).vf pair.vf).home
    ∧ (withWord s 1).marked (stackKey 0 0x8000) 8 = true ∧ s.marked (stackKey 0 0x8000) 8 = false
    ∧ ({ s with ecc := [(stackKey 0 0x8000 / 8, true)] } : State).eccBad (stackKey 0 0x8000) 8 = true := by
  decide +kernel

/-- A WRITE to a word of this panel is stored and acknowledged (R170, R263). -/
theorem test_roce_write :
    (match exec (.roceWrite 2 2 0x8000 [1, 2, 3, 4]) served with
     | .next s => (memBytes s.mem (stackKey 0 0x8000) 4, s.panel.hostOut.getLast?) | _ => ([], none)) = ([1, 2, 3, 4], some (.ack 2)) := by
  decide +kernel

theorem test_witness_HostAccessesComplete_heads :
    HeadMoves 3 5 5 ∧ HeadMoves 1 2 2 ∧ (5 < 6 ∧ 3 ≤ 5 ∧ 6 < 2 ^ 32)
    ∧ ¬ (2 = doorbellKey (served.panel.qps.get 2).vf ∧ (served.vf (served.panel.qps.get 2).vf).doorbell = 2)
    ∧ (2 ^ 31 = doorbellKey ((served.modVf 0 (fun v => { v with doorbell := 2 ^ 31 })).panel.qps.get 2).vf
        ∧ ((served.modVf 0 (fun v => { v with doorbell := 2 ^ 31 })).vf 0).doorbell = 2 ^ 31) := by
  unfold HeadMoves; decide +kernel

/-- A packet of panel 1, with a payload of the request's size, VF and kind. -/
def packet (psn : BitVec 32) (kind size : Byte) (b : Nat := 0) (p : Nat := 0) : TrlsHdr :=
  { spanel := 1, psn := psn, apsn := 0xFFFF_FFFF, gpa := 0x8000, payload := [0, 0, 0, 0, size, 0, kind, 0] ++ valBytes 8 b ++ valBytes 8 p }

/-- The world with a session of panel 1 open and stream 0 expecting a number. -/
def linked (expect : Nat) : State :=
  ((world []).modRoot (fun r => { r with sessions := [(1, { isOpen := true })], peers := [(1, [1])] })).modStream 1 0 (fun x => { x with expect := expect })

theorem test_witness_TrlsPacketsComplete :
    let s := linked (2 ^ 32)
    let far (z : State) (h : TrlsHdr) (n : Rights) := ((counted z h).farKey (payVf h) h.gpa.toNat (paySize h) n).toOption
    s.trlsOurs (packet 0 0 4) = true ∧ State.reset.trlsOurs (packet 0 0 4) = false
    ∧ s.streamFull 1 0 = false ∧ (s.modStream 1 0 (fun x => { x with psn := 2 ^ 31 - 2 ^ 20 })).streamFull 1 0 = true
    ∧ ((s.trlsAcked 1 0 0xFFFF_FFFF).stream 1 0).expect = 2 ^ 32 ∧ (packet 0 0 4).psn.toNat = 2 ^ 32 % 2 ^ 32
    ∧ after 1 (2 ^ 32) = true ∧ after 0xFFFF_FFFF (2 ^ 32) = false
    ∧ far s (packet 0 0 4) needRead = some (stackKey 0 0x8000) ∧ far s (packet 0 0 4) needWrite = some (stackKey 0 0x8000)
    ∧ far s (packet 0 0 4) needAtomic = some (stackKey 0 0x8000) ∧ far s (packet 0 16 16) needSync = some (stackKey 0 0x8000)
    ∧ far s { packet 0 0 4 with gpa := 0xFF00_0000 } needRead = none
    ∧ payKind (packet 0 16 16 1 4) = 16 ∧ payKind (packet 0 17 16) = 17
    ∧ syaCheck (stackKey 0 0x8000) (payB (packet 0 16 16 1 4)) (payP (packet 0 16 16 1 4) % 256) (payP (packet 0 16 16 1 4) / 256) = none
    ∧ (syaCheck (stackKey 0 0x8000) (payB (packet 0 16 16 1 1)) (payP (packet 0 16 16 1 1) % 256) (payP (packet 0 16 16 1 1) / 256)).isSome = true
    ∧ s.panel.root.takeover = false ∧ (s.panel.root.peers.get 1).isEmpty = false ∧ s.reachable 1 = true ∧ s.pairBusy 1 = false
    ∧ (s.stream 1 0).unacked = []
    ∧ (let z := s.modStream 1 0 (fun x => { x with unacked := [(0, [])] }); (z.stream 1 0).unacked = [(0, [])] ∧ z.pairBusy 1 = true) := by
  decide +kernel

/-- A die of the world in a state, with its responder changed. -/
def responder (st : Nat) (f : Spdm → Spdm := id) : State :=
  (world []).modUnit (.port 0) (fun x => { x with das := putBits x.das 61 3 st, spdm := f x.spdm })

theorem test_witness_SpdmRequestsComplete :
    let u : UnitId := .port 0
    let s := responder 1 (fun _ => { version := true, caps := true, algs := true, exchange := true, session := true, msgs := 2 ^ 20 - 1, got := 8 })
    s.responds u = true ∧ (responder 0).responds u = false ∧ (responder 5).responds u = false ∧ (responder 1).responds u = true
    ∧ (let x := (s.unit u).spdm; x.version && x.caps && x.algs && x.exchange && x.session) = true
    ∧ ((s.unit u).spdm.msgs < 2 ^ 20 ∧ ¬ ((s.modSpdm u (fun x => { x with msgs := 2 ^ 20 })).unit u).spdm.msgs < 2 ^ 20)
    ∧ (s.unit u).spdm.got = 8 ∧ ((responder 1).unit u).spdm.version = false ∧ s.unitOk u = true ∧ s.unitOk (.port 1) = false
    ∧ (responder 0).bootable u = false
    ∧ ((responder 0).modRoot (fun r => { r with booted := true, images := [(0, [], []), (0, [], []), (1, [2], [3])] })).bootable u = true
    ∧ dasState ((responder 3).unit u) = 3 ∧ dasState ((responder 4).unit u) = 4
    ∧ ((Claims.asked s u [0xE0]).sealed u 0x60 ((Claims.asked s u [0xE0]).blocks u).flatten).policyMet u = false := by
  decide +kernel

/-- A policy that holds the blocks a die returns is met. -/
theorem policyMet_of (s : State) (u : UnitId)
    (h : s.panel.root.policy = (List.range 4).map (fun i => (idOf u / 100, i + 1, (s.blocks u).getD i []))) : s.policyMet u = true := by
  simp only [State.policyMet, h, List.all_eq_true, List.contains_iff_mem, List.mem_map]
  exact fun i hi => ⟨i, hi, rfl⟩

theorem test_witness_SpdmRequestsComplete_policy :
    let u : UnitId := .port 0
    let s := responder 1 (fun _ => { algs := true })
    let z := s.modRoot (fun r => { r with policy := (List.range 4).map (fun i => (2, i + 1, (s.blocks u).getD i [])) })
    ((Claims.asked z u [0xE0]).sealed u 0x60 ((Claims.asked z u [0xE0]).blocks u).flatten).policyMet u = true :=
  policyMet_of _ _ rfl

/-- Two dies joined by channel 0 of the first, with key registers. -/
def joined (tx rx tx' rx' : Dword) (f : Chan → Chan := id) : State :=
  let s := world []
  match s.peer (.fabric 0) 0 with
  | some (v, m) => (s.modChan (.fabric 0) 0 (fun c => f { c with tx := tx, rx := rx })).modChan v m (fun c => { c with tx := tx', rx := rx', unacked := [{}] })
  | none => s

theorem test_witness_KeyAndFrameEventsComplete :
    let u : UnitId := .fabric 0
    let now := putKey 0 0 2 0
    let next := putKey now 1 1 1
    let c (s : State) : Chan := s.chan u 0
    ((world []).peer u 0).isSome = true ∧ (world []).peer u 8 = none
    ∧ (let s := (joined 0 0 0 0).modUnit u (fun x => { x with spdm := { x.spdm with session := true, msgs := 2 ^ 20 - 1 } })
       s.unitOk u = true ∧ s.mayKey u = true ∧ (c s).busy = false ∧ (s.peer u 0).any (fun x => s.linkGen x.1 x.2 == 0) = true
        ∧ holdsGen (c s).rx 0 = false ∧ deliverKey next 2 = none ∧ (s.peer u 0).any (fun x => (s.chan x.1 x.2).ack == some 1) = false
        ∧ ((s.unit u).spdm.session = true ∧ dasState (s.unit u) = 3))
    ∧ (let s := joined now (putKey next 1 3 1) 0 0 (fun c => { c with busy := true }); (c s).busy = true ∧ hasKey (c s).rx 3 = true)
    ∧ (world []).mayKey u = false
    ∧ (let s := joined 0 next now 0; genIn (c s).rx 1 = some 1 ∧ genIn (c s).rx 2 = some 0)
    ∧ (let s := joined now 0 0 0 (fun c => { c with frames := BitVec.ofNat 64 (2 ^ 40 - 2) })
       hasKey (c s).tx 2 = true ∧ (c s).down = false ∧ (c s).switching = false ∧ (c s).frames.toNat + 1 < 2 ^ 40
        ∧ (s.peer u 0).any (fun x => s.isActive (idOf u) && s.isActive (idOf x.1)) = true)
    ∧ (let s := joined now 0 0 0 (fun c => { c with frames := BitVec.ofNat 64 (2 ^ 48), retries := 16 })
       2 ^ 48 ≤ (c s).frames.toNat ∧ 16 ≤ (c s).retries ∧ (s.peer u 0).any (fun x => (s.chan x.1 x.2).unacked == [{}]) = true) := by
  decide +kernel

theorem test_witness_KeyAndFrameEventsComplete_root :
    let s : State := State.reset.modUnit (.port 2) (fun x => { x with das := putBits 0 61 3 3 })
    let z := (s.modRoot (fun r => { r with takeover := true, port := 2 })).modUnit (.port 2) (fun x => { x with spdm := { x.spdm with session := true } })
    s.panel.root.takeover = false ∧ s.standby = some 2 ∧ z.panel.root.takeover = true ∧ z.panel.root.port = 2 ∧ z.allSessions = true
    ∧ 31 < 8 * gridPorts s.panel.form := by
  decide +kernel

/-- Reset with channel 31 of stack 79 at its limit, and of stack 78 taken out. -/
def worn : State := onPanel State.reset (fun p => { p with sites := [(78, { spared := [31] }), (79, { corrected := [(31, 256)] })] })

theorem test_witness_PowerAndThermalEventsComplete :
    let s := State.reset
    let raised := (List.range 80).foldl (fun t d => t.modDie d (fun x => { x with calibrated := true })) s
    79 < s.ndies ∧ rkDie (rkOf 79 16) < s.ndies ∧ s.panel.root.cap < 1000000 ∧ s.unitOk (.fabric 79) = true ∧ s.unitOk (.bridge 79) = true
    ∧ raised.calibratedAll = true ∧ s.calibratedAll = false
    ∧ tripAt (.fabric 0) = 115 ∧ tripAt (.bridge 0) = 105 ∧ dasState (s.unit (.fabric 0)) = 0 ∧ throttleAt (.bridge 0) ≤ 105
    ∧ (s.siteHeld 79 = false ∧ (worn.panel.sites.get 79).corrected.get 31 = 256 ∧ (worn.panel.sites.get 78).spared.contains 31 = true
        ∧ mapped.siteHeld (mapped.physSite 0) = true) := by
  decide +kernel

/-! Words and turns. -/

theorem test_witness_SlotWordsRoundTrip :
    (∃ op o f, instrSlot (.exit { awt := true, nsm := 2, sa := 8, sb := 15, tt := 15 } (.im 1)) = some (op, o, f))
    ∧ (Instr.exit { awt := true, nsm := 2, sa := 8, sb := 15, tt := 15 } (.im 1)).wellFormed = true
    ∧ (decodeSlotParts 0xC0080000698F0F01).toOption.isSome = true ∧ opCanon .exit = .exit :=
  ⟨⟨_, _, _, rfl⟩, by decide +kernel, by decide +kernel, by decide⟩

theorem test_witness_StreamWordsAndMessagesRoundTrip :
    (1 : BitVec 24) ≠ 0 ∧ (0x2000_0000 : BitVec 30).toInt < 0 ∧ (5 : BitVec 3).toNat ≤ 5
    ∧ (Instr.qpClose 1 2).wellFormed = true ∧ (encodeMgmtBody (.qpClose 1 2)).1 ≠ 0
    ∧ (Instr.trlsLoad {}).wellFormed = true ∧ encodeTrls (.trlsLoad {}) ≠ [] := by
  decide +kernel

/-- A turn at the head of the agenda of a state. -/
def turning (s : State) (t : Turn) : State := { s with agenda := [t] }

theorem test_witness_StepRunsTheDecodedInstruction :
    popped (turning twoReady (.element 0)) (.element 0) [] { turning twoReady (.element 0) with agenda := [] } :=
  ⟨rfl, rfl⟩

/-- A node with a control token at the head of its commands. -/
def tokenNode : State := (noded 1 false).modNode 0 (fun n => { n with cmds := [.tok (pk .n64 [0, 0x05000443])] })

/-- An LDG selected behind a fence that waits; an access held at stage F; and a write of ST on its way. -/
def fencing : State :=
  { (seat (va 0 0) {}).modElem 0 (fun e => { e with
      slots := [(0, { word := 0x8008_0000_800F_0F02, frm := 1 })], fences := [{ tier := 5, reqs := [9] }] }) with
    reqs := [{ id := 9, op := .load .n32, ret := { e := 1 } }] }
def parking : State := fencing.modElem 0 (fun e => { e with parked := [{ slot := 0 }], fences := [] })
def landing : State := twoReady.modElem 0 (fun e => { e with late := 1 })

theorem test_witness_StepRunsTheDecodedInstruction_elements :
    ((twoReady.settleAges 0).released 0).isNone = true ∧ ((twoReady.settleAges 0).elem 0).late = 0
    ∧ ((twoReady.settleAges 0).selected 0).isSome = true ∧ ((State.reset.settleAges 0).selected 0).isNone = true
    ∧ (((fencing.settleAges 0).selected 0).any (fun x => (fencing.settleAges 0).holdsAtF 0 x.2.1)) = true
    ∧ (((twoReady.settleAges 0).selected 0).any (fun x => !((twoReady.settleAges 0).holdsAtF 0 x.2.1))) = true
    ∧ ((parking.settleAges 0).released 0).isSome = true
    ∧ ((landing.settleAges 0).elem 0).late ≠ 0 ∧ (((landing.settleAges 0).assumed 0).selected 0).any (fun x => !(squashes 1 x.2.2.1)) = true := by
  decide +kernel

theorem test_witness_StepRunsTheDecodedInstruction_turns :
    ((world [0xC600000000000000]).moving 0 = true ∧ ((world [0xC600000000000000]).region 0).seq = .run)
    ∧ ((world [0xC600000000000000]).streamWords 0).toOption = some (0xC600000000000000, 0)
    ∧ ((world block).streamWords 0).toOption.any (fun x => bitsOf x.1 48 16 == 0x5A3C) = true
    ∧ (tokenNode.node 0).cmds = [.tok (pk .n64 [0, 0x05000443])] ∧ tokenNode.moving (tokenNode.node 0).rk = true
    ∧ (tokenWord (pk .n64 [0, 0x05000443])).toOption = some 0x0500044300000000
    ∧ (decodeTrls (encodeTrls (.trlsLoad {}))).toOption = some (.trlsLoad {})
    ∧ State.reset.panel.stopped = false ∧ (State.reset.manages 0 0 = true ∧ isEvent (.powerGood {}) = true) := by
  decide +kernel

/-- A packet with the tag that its session's key gives it. -/
theorem test_witness_StepRunsTheDecodedInstruction_tag :
    ∃ tag, tag.length = 16 ∧ State.reset.trlsTagOk (encodeTrls (.trlsLoad {})) tag = true :=
  ⟨trlsTag 0 (encodeTrls (.trlsLoad {})), by simp [trlsTag, wordBytes, valBytes], by simp only [State.trlsTagOk, beq_iff_eq]; rfl⟩

theorem test_witness_StepRunsTheDecodedInstruction_words :
    decodeSeq 0xC600000000000000 0 = .ok .sqend ∧ decodeSeq 0xC700000000011234 0 = .error .badSequencer
    ∧ decodeSeq 1 0 = .error .notSequencer ∧ decodeTok 0x0500044300000000 = .ok (.mma { mc := 1, kb := 1, fa := 2, fb := 3 }) :=
  ⟨rfl, rfl, rfl, rfl⟩

/-- A step that answers a state, from one with its memory in canonical form. -/
theorem test_witness_EveryStepKeepsMemoryCanonical : State.reset.Inv ∧ ∃ t, step (turning State.reset (.event (.clockRaise 0))) = .next t :=
  ⟨rfl, _, rfl⟩


/-! States that meet the hypotheses of further clauses. -/

/-- Element 63 of region 3 of die 0, at its east edge, with entry T0 one element further, in die 1, which is not ACTIVE. -/
def eastward : State :=
  { (pair 2).modElem (ekOf 3 7) (fun e => { e with t := [(0, 0x8000_0001)], d := [(0, some (n32 1))] }) with cur := (ekOf 3 7, 0) }

theorem test_witness_FaultingFiringOnlyRaisesItsFault_stopped :
    (fwdAct (.im 0) (seen eastward { plain with dt := 8 } (.im 0))).toOption.any (fun a =>
      eastward.outStop eastward.cur.1 (a.entries { plain with dt := 8 }) == some .quarantine) = true
    ∧ (∀ f : Fn, (Instr.fwd plain f, fwdAct f (seen eastward plain f)).1 = .fwd plain f) := ⟨by decide +kernel, fun _ => rfl⟩

/-- A product of an FMT that the element's fusing word does not serve. -/
theorem test_witness_SourceChecksRunInOrder_fused :
    (∃ r ∈ integerRules, r.multiplies = true) ∧ declaredAny (.ty .any 0) = true
    ∧ fcwServes (seen (seat (n32 1) (n32 1)) plain (.ty .any 0)).fcw .n32 false = false :=
  ⟨by decide +kernel, by decide +kernel, by decide +kernel⟩

theorem test_witness_SequencingFiringsComplete_open (s : State) (e : Nat) : s.outStop e (entriesOf plain.dt plain.tt) = none := rfl

theorem test_witness_BreakAndTrapRaise_source :
    let a (p : Packet) : Packet := rawPk (seen (seat p {}) plain (.im 0)).a
    ownLenOk (a (pk .n64 [1])) = false ∧ ownLenOk (a (scaled .n32 1 [1])) = true ∧ (a (scaled .n32 1 [1])).sc = true
    ∧ ownLenOk (a (n32 1)) = true ∧ (a (n32 1)).sc = false := by decide +kernel

/-- A faulting code of each of the two classes. -/
theorem test_witness_FaultFreezesItsPartition_source : FCode.ecc ≠ FCode.bounds ∧ FCode.spillEx = FCode.spillEx := by decide

theorem test_witness_BufferReadsComplete_waiting :
    let s := behind (buffer 1 .full 64 0 (n32 32) {})
    let v := bound s (.im 56)
    let z := behind (buffer 0 .draining 64 60 {} {})
    let w := bound z (.im 0)
    let y : State := { buffer 1 .filling 8 0 {} {} with tileQ := [(0, [{ kind := 2, offs := [0], left := [0] }])] }
    s.bndWaits v s.cur.1 (v.consAt 32) 32 = true ∧ z.bndWaits w z.cur.1 w.ring.ccur 4 = false ∧ z.bndWaits w z.cur.1 (w.consAt 60) 4 = true
    ∧ (buffer 1 .full 64 0 (n32 32) {}).bndWaits (bound (buffer 1 .full 64 0 (n32 32) {}) (.im 56)) 0 (v.consAt 32) 32 = false
    ∧ y.tilePending 0 0 0 = true ∧ (buffer 1 .filling 8 0 {} {}).tilePending 0 0 0 = false
    ∧ (bound (buffer 0 .empty 0 0 {} {}) (.im 0)).ring.atCons.st = .empty
    ∧ resultOpen s plain := by
  unfold resultOpen; decide +kernel

/-- A sub-buffer of QB 0 in place of the tile's. -/
def controller (mode : Nat) (st : BufSt) (mark : Nat) (a b : Packet) : State :=
  let d : Desc := { pid := 0, shape := some { mode := mode, size := 64, depth := (if mode = 0 then 1 else 0) }, ring := { subs := [(0, { st := st, mark := mark })] } }
  let s := (seat a b).modBnd 0 0 0 (fun x => { x with lvl := 1, shape := { mode := mode, size := 64, depth := (if mode = 0 then 1 else 0) } })
  { s with descs := [(bufferKey 0 1 0, d)] }

theorem test_witness_BufferWriteStoresItsLanes_waiting :
    let s := behind (buffer 1 .filling 32 0 eight (n32 32))
    let v := bound s (.im 0)
    let z := behind (buffer 0 .filling 0 0 eight {})
    let full := buffer 0 .full 64 0 eight {}
    let rand := buffer 1 .draining 64 0 eight (n32 0)
    let q := controller 1 .filling 32 eight (n32 32)
    s.bndWaits v s.cur.1 (v.prodAt 32) 32 = true ∧ v.b.shape.mode ≠ 0
    ∧ (let z := { buffer 0 .filling 0 0 eight {} with tileQ := [(0, [{ kind := 2, offs := [28], left := [0] }])] }
       let w := bound z (.im 0); z.bndWaits w z.cur.1 (w.prodAt w.ring.pcur) 32 = true ∧ w.b.shape.mode = 0)
    ∧ ((bound full (.im 0)).ring.atProd.st = .full ∧ (bound full (.im 0)).b.shape.mode = 0)
    ∧ ((bound rand (.im 0)).ring.atProd.st = .draining ∧ (bound rand (.im 0)).b.shape.mode ≠ 0
        ∧ rand.bndWaits (bound rand (.im 0)) 0 ((bound rand (.im 0)).prodAt 0) 32 = false)
    ∧ ((bound q (.im 0)).tile = false ∧ (bound q (.im 0)).ring.atProd.st = .filling ∧ 32 + 4 * 8 ≤ (bound q (.im 0)).sub
        ∧ q.bndWaits (bound q (.im 0)) 0 ((bound q (.im 0)).prodAt 32) 32 = false
        ∧ q.hitsMark (bound q (.im 0)) ((bound q (.im 0)).prodAt 32) 32 = false)
    ∧ z.tileQ ≠ [] := by decide +kernel

theorem test_witness_VersionedAndTileAccessesIssueRequests_formats :
    let v := bound (buffer 1 .empty 0 0 (pk .n32 [0, 60]) (pk .n32 [1, 2])) (.im 0)
    v.hasFmt (pk .n32 [1, 2]) = true ∧ ownLenOk (pk .n32 [1, 2]) = true ∧ (pk .n32 [1, 2]).sc = false
    ∧ hasTy .n32 (pk .n32 [0, 60]) = true := by decide +kernel

theorem test_witness_CopyFiringsComplete_source :
    let a (p : Packet) : Packet := rawPk (seen (armed p) plain (.im 0)).a
    hasTy .n32 (a (n32 0)) = true ∧ (a (n32 0)).kind = 0 ∧ (a (n32 0)).sc = false ∧ ownLenOk (a (n32 0)) = true
    ∧ ownLenOk (a (pk .n64 [1])) = false := by decide +kernel

/-- A partition in each state in which RESTORE and RELEASE act, or do not. -/
theorem test_witness_PartitionCommandsComplete_states :
    let s (st : Nat) := awake (chief {} {} st)
    (∀ n < 6, pState ((s n).part 1) = n) ∧ (s 4).groupBusy 1 = false ∧ (s 4).resumeBad 1 = none
    ∧ (s 4).linkClash 1 (pRect ((s 4).part 1)) resident = false
    ∧ (chief {} {} 4).resumeBad 1 = some 0
    ∧ ((s 3).modRoot (fun r => { r with takeover := true })).panel.root.takeover = true ∧ (s 3).panel.root.takeover = false := by
  decide +kernel

/-- An ATST behind a RESET, and one with nothing before it. -/
theorem test_witness_KeyAndAttestationCommandsComplete_behind :
    let s : State := { chief (n32 1) {} 4 with reqs := [{ id := 3, op := .steward (.reset 1), phase := .resp }], nextId := 4 }
    s.atstBusy s.nextId = true ∧ (chief (n32 1) {} 4).atstBusy 0 = false := by decide +kernel

/-- A frame with a value for ST and an initial token. -/
theorem test_witness_BlockEventsComplete_values :
    let s := framed .armed (fun f => { f with stst := [(63, 5)], inits := [({ eidx := 0, slot := 0, fld := 2 }, n32 7)] })
    let fr := s.frame 0 0
    (63, (5 : BitVec 6)) ∈ fr.stst ∧ (∀ v ∈ fr.stst, v.1 = 63 → v.2 = 5) ∧ (∀ t ∈ fr.stst, t.1 ≠ 62)
    ∧ (∀ i ∈ fr.inits, i.1.fld < 3 ∧ ∀ j ∈ fr.inits, j.2 = i.2)
    ∧ s.fieldsFree 0 (fr.inits.map (fun i => i.1)) = true ∧ fr.st = .armed ∧ (s.region 0).mayFire 0 = true := by decide +kernel

/-- A packet on its way to another die, over dies that are not ACTIVE, and over dies that are, with a channel that carries nothing. -/
theorem test_witness_NetworkEventsComplete_ways :
    let f : Flit := { dst := .field (ekOf 16 0 + 1024) 0 2, rk := 0 }
    let g : Flit := { dst := .field (64 * rkOf 1 0) 0 2, rk := 0 }
    let lit : State := State.reset.units.foldl (fun s u => s.modUnit u (fun x => { x with das := putBits x.das 61 3 3 })) State.reset
    State.reset.wayLost g = true ∧ State.reset.wayLost { f with dst := .field 0 0 2 } = false
    ∧ lit.wayLost g = false ∧ lit.wayOpen g = false := by decide +kernel

/-- An answer on its way: of this die; and an ATST that waits, first and behind another. -/
theorem test_witness_RequestsTravel_back :
    let r := asked (.load .n32) .resp (fun q => { q with res := some (n32 1) })
    let w : State := { r with reqs := [{ id := 0, op := .steward (.atst 0 (.fabric 0)), phase := .resp }, { id := 1, op := .steward (.atst 1 (.fabric 0)), phase := .resp }] }
    r.reqs.all (fun q => !(r.backWaits q) && (r.returned q).isNone && q.who == .firing) = true
    ∧ w.atstBusy 0 = false ∧ w.atstBusy 1 = true
    ∧ (w.reqAt 1).map (fun q => q.op) = some (.steward (.atst 1 (.fabric 0)))
    ∧ (let q : Req := { op := .load .n32, phase := .resp, gpa := 2 ^ 44 + 2 ^ 37 }
       let lit : State := State.reset.units.foldl (fun s u => s.modUnit u (fun x => { x with das := putBits x.das 61 3 3 })) State.reset
       crosses q = true ∧ State.reset.returned q = some .quarantine ∧ lit.backWaits q = true) := by decide +kernel

theorem test_witness_HomesServeRequests_more :
    homed (asked .put .deq (fun q => { q with data := [1, 2, 3, 4], word := stackKey 0 0x8000 })) = true
    ∧ (asked .put .deq).marked (stackKey 0 0x8000) 4 = false
    ∧ (asked (.atomic 0 false false true 1 0) .home).performed 4 [] = true := by decide +kernel

/-- Several increments, with a waiter, a dependence and a sequencer at the word that the advance meets. -/
def advancing (w : Nat) (ops : List ReqOp) : State :=
  let a := stackKey 0 0x8000
  let q (i : Nat) (o : ReqOp) : Req := { id := i, op := o, phase := .wait, va := 0x8000, gpa := 0x8000, size := 16, word := a }
  let s := withWord (world []) w
  let s := s.modPart 1 (fun p => { p with launches := p.launches.map (fun l => { l with deps := [(a, 3)] }) })
  { s.modRegion 0 (fun x => { x with seq := .await a 3 }) with
    reqs := (List.range ops.length).map (fun i => q i (ops.getD i .store)), nextId := ops.length }

theorem test_witness_SyncHomeCycleCompletes_several :
    let a := stackKey 0 0x8000
    let s := advancing (syncBits 5 4 2 0 0 4) [.syadd 1, .sywch 3, .syadd 10]
    let ups (k : Nat) := ((s.waitingAt a).filter (fun q => isSya q || isSyadd q)).take k
    (ups 2).length = 2 ∧ (ups 2).all (fun q => isSyadd q && q.who == .firing) = true ∧ s.marked a 16 = true ∧ s.copyKey a = none
    ∧ (let n (k : Nat) := syncCnt (syncVal s.mem a) + ((ups k).map syAmount).sum; n 1 = 5 ∧ n 2 = 15 ∧ 5 ≤ n 2 - 5)
    ∧ ¬ (5 ≤ 4 + 0) ∧ genMet 3 3 = true ∧ genMet 2 3 = false
    ∧ (∃ q ∈ s.waitingAt a, q.op = .sywch 3) ∧ (s.region 0).seq = .await a 3 ∧ s.moving 0 = true
    ∧ s.keyWay (s.physDie 0) a = true := by decide +kernel

theorem test_witness_SyncHomeCycleCompletes_settings :
    let a := stackKey 0 0x8000
    let one (o : ReqOp) := ((atWord o).waitingAt a).filter (fun q => isSya q || isSyadd q)
    (one (.sya 5 4 7)).length = 1 ∧ (one (.sya 0 0 0)).length = 1 ∧ (atWord (.sya 0 0 0)).hasWaiter a = false
    ∧ (advancing (syncBits 5 4 2 0 0 4) [.sya 0 0 0, .sywch 3]).hasWaiter a = true
    ∧ syncCnt (syncBits 5 3 2 0 0 4) + 1 < 5 := by decide +kernel

/-- The tile's own check: a request of a sub-buffer that still takes it, and one that no longer does. -/
theorem test_witness_TileCyclesComplete_checks :
    let q (k : Nat) : TileReq := { kind := k, offs := [60], data := [7], left := [0], stop := 64, size := if k = 2 then 8 else 4 }
    let r (st : BufSt) := buffer 1 st 64 0 {} {}
    (r .full).tileCheck 0 (q 0) = none ∧ (r .filling).tileCheck 0 (q 1) = none ∧ (r .empty).tileCheck 0 (q 2) = none
    ∧ (r .empty).tileCheck 0 (q 0) = some .bufState ∧ (r .full).tileCheck 0 (q 1) = some .bufState ∧ (r .draining).tileCheck 0 (q 2) = some .bufState
    ∧ (buffer 1 .full 60 0 {} {}).tileCheck 0 (q 0) = some .bounds := by decide +kernel

theorem test_witness_CopyEventsComplete_late :
    let s := working { tpl := template 0 0 0, started := true, late := some (.link, 2 ^ 50) } (template 0 0 0)
    (s.jobAt 0).any (fun j => j.late == some (.link, 2 ^ 50) && j.started && s.moving j.region) = true := by decide +kernel

/-- A session that drains an ended fibre, with room at its consumer and with none; one that does not accumulate; one in a forced pass;
and a packet of a partition with no session at the island. -/
theorem test_witness_MergeAndQueueEventsComplete_draining :
    let s (f : Merge → Merge) := session {} {} f
    let m (f : Merge → Merge) := (s f).merge 0 0
    (m (fun m => { m with drain := some [(3, 7)] })).drain = some [(3, 7)]
    ∧ (s id).rootRoom { (s id).merge 0 0 with out := [{}] } = false
    ∧ ((m id).drain = none ∧ (m id).streamEnd = false ∧ (m id).pass = [] ∧ (m id).opened = true)
    ∧ (m (fun m => { m with cfg := m.cfg.set 0 ((m.cfg.getD 0 0) &&& 0x3FFF_FFFF) })).accum = false
    ∧ (m (fun m => { m with pass := [(0, 1)] })).pass ≠ []
    ∧ 4096 ≤ (m (fun m => { m with runs := List.replicate 4096 {} })).runs.length
    ∧ (let z : State := { (s id).modRegion 2 (fun x => { x with pid := 3 }) with net := [{ pkt := pk .n32 [1, 5], dst := .leaf 0 0 0, rk := 2 }] }
       (z.flitAt 0).any (fun f => z.moving f.rk && z.pidOf f.rk != z.pidOf (z.merge 0 0).rk) = true ∧ z.performed 3 [] = true) := by decide +kernel

theorem test_witness_PartitionEventsComplete_abandoned :
    let l : Launch := { lnch := 1, hdr := header.set 0 0 }
    let s := (pair 3 (fun p => { p with frozen := [0], launches := [l] }))
    pState (s.part 1) = 3 ∧ s.allFrozen 1 = false ∧ s.panel.root.takeover = false
    ∧ (s.modRoot (fun r => { r with takeover := true })).panel.root.takeover = true
    ∧ pState ((pair 5).part 1) = 5 ∧ (let p := (sliced []).part 1; ∀ x ∈ p.launches, x.abandon = false) := by decide +kernel

/-- MW_CLOSE of a window with a WRITE through it on its way, and of one that closes already. -/
theorem test_witness_ManagementCommandsComplete_windows :
    let s := served
    let busy : State := { s with reqs := [{ op := .store, who := .host 2 7 2, phase := .deq, gpa := 2 ^ 44 }] }
    s.windowBusy 2 = false ∧ busy.windowBusy 2 = true ∧ (s.panel.windows.get 2).isOpen = true ∧ (s.panel.windows.get 2).closing = none
    ∧ (s.panel.windows.get 3).isOpen = false := by decide +kernel

/-- The firing that stalls at stage F for a register that awaits its value. -/
def stalling : State :=
  let s := seat (n32 1) (n32 2)
  { s.modElem 0 (fun e => { e with slots := [(0, { word := 0x8008_0000_0001_2F00, frm := 1 })] }) with
    reqs := [{ id := 1, op := .load .n32, ret := { e := 0, dt := 0, tt := 15 }, phase := .home }] }

theorem test_witness_StepRunsTheDecodedInstruction_stalls :
    ((stalling.settleAges 0).selected 0).any (fun x => stalls ((stalling.settleAges 0).pendingD 0) x.2.1 x.2.2.1) = true
    ∧ (let z := stalling.modElem 0 (fun e => { e with stalled := some (0, 0) })
       (((z.settleAges 0).elem 0).slots.get 0).parts.any (fun x => stalls ((z.settleAges 0).pendingD 0) x.1 x.2.1) = true
        ∧ ((z.settleAges 0).elem 0).stalled = some (0, 0) ∧ ((z.settleAges 0).released 0).isNone = true)
    ∧ (let z : State := { stalling.modElem 0 (fun e => { e with stalled := some (0, 0) }) with reqs := [] }
       (((z.settleAges 0).elem 0).slots.get 0).parts.any (fun x => !(stalls ((z.settleAges 0).pendingD 0) x.1 x.2.1)) = true
        ∧ ((z.settleAges 0).elem 0).hold = .run ∧ (z.settleAges 0).moving 0 = true) := by decide +kernel

/-- A write of ST on its way that squashes the firing selected, and one past which nothing is ready. -/
theorem test_witness_StepRunsTheDecodedInstruction_squash :
    let z := (seat {} {}).modElem 0 (fun e => { e with late := 1, slots := [(0, { word := 0x8008_4000_6AFF_0F00, frm := 1 })] })
    (squashes 1 { gm := 1 } = true ∧ squashes 1 { nsm := 2 } = false)
    ∧ (((State.reset.modElem 0 (fun e => { e with late := 1 })).settleAges 0).assumed 0).selected 0 = none
    ∧ ((z.settleAges 0).elem 0).late ≠ 0 := by
  refine ⟨by decide, by decide +kernel, by decide +kernel⟩

/-- A place inside a word of two doublewords, and a port die with a command not yet answered. -/
theorem test_witness_StepRunsTheDecodedInstruction_places :
    ((world [0xC300000000000001, 0x8000]).modRegion 0 (fun x => { x with sqp := 1, branched := true })).midWord 0 = true
    ∧ (world [0xC600000000000000]).midWord 0 = false
    ∧ State.reset.mgmtBusy 0 = false
    ∧ (onPanel State.reset (fun p => { p with windows := [(2, { isOpen := true, closing := some (0, 5) })] })).mgmtBusy 0 = true := by
  decide +kernel

end Sys2Proof.Tests
end

section
/-! SUPPORT. What a turn does, said once: one equation for each thing that each agent's turn can do, and the step as the turn at the head
of the agenda. -/

namespace Sys2Proof.Machine

open Sys2Proof.Claims

/-! The turn of a step. -/

/-- The turn at the head of the agenda is the one that a step runs. -/
theorem step_of_popped {s u : State} {t : Turn} {rest : List Turn} (h : popped s t rest u) : step s = runTurn t u := by
  obtain ⟨ha, rfl⟩ := h
  simp only [step, State.nextTurn, ha]

/-- With nothing on the agenda, the free schedule names the turn. -/
theorem step_of_empty_agenda {s : State} (h : s.agenda = []) : step s = runTurn (Config.schedule s.draws) s.drawn := by
  simp only [step, State.nextTurn, h]

theorem isPowerGood_eq_false {t : Turn} (h : ∀ b, t ≠ .event (.powerGood b)) : isPowerGood t = false := by
  unfold isPowerGood
  split
  · exact absurd rfl (h _)
  · rfl

/-- A package that has stopped lets every other turn pass (R3). -/
theorem runTurn_stopped {s : State} {t : Turn} (hs : s.panel.stopped = true) (h : ∀ b, t ≠ .event (.powerGood b)) :
    runTurn t s = .next s := by
  simp [runTurn, hs, isPowerGood_eq_false h]

/-- Power good runs in any package, stopped or not (R3, R273). -/
theorem runTurn_powerGood (b : Boot) (s : State) : runTurn (.event (.powerGood b)) s = exec (.powerGood b) s := by
  have he : isEvent (.powerGood b) = true := rfl
  simp [runTurn, isPowerGood, he]

section Running
variable {s : State} (hs : s.panel.stopped = false)
include hs

theorem runTurn_element (e : Nat) : runTurn (.element e) s = elementTurn e s := by simp [runTurn, hs]
theorem runTurn_sequencer (r : Nat) : runTurn (.sequencer r) s = sequencerTurn r s := by simp [runTurn, hs]
theorem runTurn_node (e : Nat) : runTurn (.node e) s = nodeTurn e s := by simp [runTurn, hs]
theorem runTurn_mgmt (p : Nat) (who : BitVec 128) (msg : List Byte) : runTurn (.mgmt p who msg) s = mgmtTurn p who msg s := by
  simp [runTurn, hs]
theorem runTurn_trls (msg : List Byte) : runTurn (.trls msg) s = trlsTurn msg s := by simp [runTurn, hs]
theorem runTurn_event (i : Instr) : runTurn (.event i) s = if isEvent i then exec i s else .next s := by simp [runTurn, hs]

end Running

/-! The slot that the trigger stage selects. -/

theorem SlotSt.parts_eq_some {x : SlotSt} {y : SlotOp × Slot × Fn} : x.parts = some y ↔ decodeSlotParts x.word = .ok y := by
  unfold SlotSt.parts
  cases decodeSlotParts x.word <;> simp [Except.toOption]

/-- What is selected is what the slot's word decodes to (R72). -/
theorem State.selected_decodes {s : State} {e n : Nat} {op : SlotOp} {o : Slot} {f : Fn} (h : s.selected e = some (n, op, o, f)) :
    decodeSlotParts ((s.elem e).slots.get n).word = .ok (op, o, f) := by
  unfold State.selected at h
  split at h
  · cases h
  split at h
  · cases h
  split at h
  · cases h
  · rename_i hp
    cases h
    exact SlotSt.parts_eq_some.mp hp

/-- A word's instruction is its operation with its fields and its function. -/
theorem decodeSlot_of_parts {w : Dword} {op : SlotOp} {o : Slot} {f : Fn} (h : decodeSlotParts w = .ok (op, o, f)) :
    decodeSlot w = .ok (slotInstr op o f) := by
  simp [decodeSlot, h, Except.map]

/-- But for the two opcodes whose rows an operand tells apart, a firing is the operation's instruction (R390, R402). -/
theorem State.firing_eq_slotInstr (s : State) (e n : Nat) {op : SlotOp} (o : Slot) (f : Fn) (hv : op ≠ .scwrVft) (ht : op ≠ .thaw) :
    s.firing e n op o f = slotInstr op o f := by
  unfold State.firing
  split
  · exact absurd rfl hv
  · exact absurd rfl ht
  · rfl

/-! A firing at stage F. -/

section StageF
variable {s : State} {e n : Nat} {op : SlotOp} {o : Slot} {f : Fn}

/-- An access behind a fence is held (R168, R345). -/
theorem State.enterF_held (h : s.holdsAtF e op = true) : s.enterF e n op o f = .next (s.park e n o) := by
  simp [State.enterF, h]

theorem State.enterF_passes (h : s.holdsAtF e op = false) :
    s.enterF e n op o f = exec (s.firing e n op o f) { s with cur := (e, n) } := by
  simp [State.enterF, h]

/-- A firing stalls for a register that awaits its value (R90). -/
theorem State.fireSelected_stalls (h : stalls (s.pendingD e) op o = true) : s.fireSelected e n op o f = .next (s.stall e n o) := by
  simp [State.fireSelected, h]

theorem State.fireSelected_enters (h : stalls (s.pendingD e) op o = false) : s.fireSelected e n op o f = s.enterF e n op o f := by
  simp [State.fireSelected, h]

theorem selectTurn_none (h : s.selected e = none) : selectTurn e s = .next s := by simp [selectTurn, h]

theorem selectTurn_some (h : s.selected e = some (n, op, o, f)) : selectTurn e s = s.fireSelected e n op o f := by
  simp [selectTurn, h]

/-- The firing that stalls keeps stalling while its element or its region does not run, or a register still awaits its value. -/
theorem stalledTurn_waits {st : BitVec 6} (hp : ((s.elem e).slots.get n).parts = some (op, o, f))
    (h : (s.elem e).hold ≠ .run ∨ s.moving (ekRegion e) = false ∨ stalls (s.pendingD e) op o = true) :
    stalledTurn e n st s = .next s := by
  have hw : ((s.elem e).hold != .run || !(s.moving (ekRegion e)) || stalls (s.pendingD e) op o) = true := by simpa [or_assoc] using h
  simp only [stalledTurn, hp, hw, if_true]

/-- Once its registers have their values it passes stage F, and what was written to ST since its selection stands (R90). -/
theorem stalledTurn_passes {st : BitVec 6} {z : State} (hp : ((s.elem e).slots.get n).parts = some (op, o, f))
    (hr : (s.elem e).hold = .run) (hm : s.moving (ekRegion e) = true) (hd : stalls (s.pendingD e) op o = false)
    (hz : (s.modElem e (fun el => { el with st := st, stalled := none })).enterF e n op o f = .next z) :
    stalledTurn e n st s = .next (z.modElem e (fun el => { el with st := el.st ^^^ ((s.elem e).st ^^^ nextSt o st) })) := by
  have hw : ((s.elem e).hold != .run || !(s.moving (ekRegion e)) || stalls (s.pendingD e) op o) = false := by simp [hr, hm, hd]
  simp only [stalledTurn, hp, hw, hz]
  rfl

end StageF

/-! The turn of an element. -/

section Elements
variable {s : State} {e : Nat}

/-- The oldest access held at stage F goes before everything else. -/
theorem elementTurn_released {x : Parked} {op : SlotOp} {o : Slot} {f : Fn}
    (h : (s.settleAges e).released e = some (x, op, o, f)) : elementTurn e s = (s.settleAges e).resume e x op o f := by
  simp [elementTurn, h]

variable (hf : (s.settleAges e).released e = none)
include hf

/-- The firing that stalls goes before a new selection. -/
theorem elementTurn_stalled {n : Nat} {st : BitVec 6} (h : ((s.settleAges e).elem e).stalled = some (n, st)) :
    elementTurn e s = stalledTurn e n st (s.settleAges e) := by
  simp [elementTurn, hf, h]

variable (hn : ((s.settleAges e).elem e).stalled = none)
include hn

theorem elementTurn_selects (hl : ((s.settleAges e).elem e).late = 0) : elementTurn e s = selectTurn e (s.settleAges e) := by
  simp [elementTurn, hf, hn, hl]

variable (hl : ((s.settleAges e).elem e).late ≠ 0)
include hl

/-- A write of ST that lands before the selection (R91). -/
theorem elementTurn_lands_first (hc : Config.choice (s.settleAges e).draws = true) :
    elementTurn e s = selectTurn e ((s.settleAges e).drawn.landed e) := by
  simp only [elementTurn, hf, hn, beq_false_of_ne hl, hc]
  rfl

variable (hc : Config.choice (s.settleAges e).draws = false)
include hc

/-- With nothing to select by the old bits, the write lands (R91). -/
theorem elementTurn_lands_after (h : ((s.settleAges e).assumed e).selected e = none) :
    elementTurn e s = .next ((s.settleAges e).drawn.landed e) := by
  simp only [elementTurn, hf, hn, beq_false_of_ne hl, hc, h]
  rfl

variable {n : Nat} {op : SlotOp} {o : Slot} {f : Fn} (h : ((s.settleAges e).assumed e).selected e = some (n, op, o, f))
include h

/-- A firing that the write of ST on its way concerns will be squashed (R91). -/
theorem elementTurn_squashed (hq : squashes ((s.settleAges e).elem e).late o = true) :
    elementTurn e s = .next ((s.settleAges e).drawn.ghost e n op o f) := by
  simp only [elementTurn, hf, hn, beq_false_of_ne hl, hc, h, hq]
  rfl

theorem elementTurn_outlives (hq : squashes ((s.settleAges e).elem e).late o = false) :
    elementTurn e s = ((s.settleAges e).drawn.outlive e o).fireSelected e n op o f := by
  simp only [elementTurn, hf, hn, beq_false_of_ne hl, hc, h, hq]
  rfl

end Elements

/-! The turn of a sequencer. -/

section Sequencers
variable {s : State} {r : Nat} {w v : Dword}

theorem sequencerTurn_run (hm : s.moving r = true) (hr : (s.region r).seq = .run) : sequencerTurn r s = streamTurn r s := by
  simp [sequencerTurn, hm, hr]

variable (h : s.streamWords r = .ok (w, v))
include h

/-- A place inside a word of two doublewords is no position (R299). -/
theorem streamTurn_midWord (hp : s.midWord r = true) :
    streamTurn r s = .next (s.seqFault .blkAlign r (s.region r).fromOff 0 none).drawn := by
  simp [streamTurn, h, hp]

variable (hp : s.midWord r = false)
include hp

theorem streamTurn_block (hb : bitsOf w 48 16 = 0x5A3C) : streamTurn r s = exec (.blockArm r) s := by
  simp [streamTurn, h, hp, hb]

variable (hb : bitsOf w 48 16 ≠ 0x5A3C)
include hb

theorem streamTurn_word {i : Instr} (hi : decodeSeq w v = .ok i) : streamTurn r s = exec i { s.drawn with cur := (r, 0) } := by
  simp [streamTurn, h, hp, hb, hi]

theorem streamTurn_badSequencer (hi : decodeSeq w v = .error .badSequencer) :
    streamTurn r s = .next (s.seqFault .illegal r (s.region r).sqp 0 none).drawn := by
  simp [streamTurn, h, hp, hb, hi]

theorem streamTurn_notSequencer (hi : decodeSeq w v = .error .notSequencer) :
    streamTurn r s = .next (s.seqFault .blkAlign r (s.region r).fromOff 0 none).drawn := by
  simp [streamTurn, h, hp, hb, hi]

end Sequencers

/-! The turn of a node. -/

/-- A node executes the control token at the head of its queue (R185, R191). -/
theorem nodeTurn_token {s : State} {e : Nat} {p : Packet} {cs : List NodeCmd} {w : Dword} {i : Instr}
    (hq : (s.node e).cmds = .tok p :: cs) (hm : s.moving (s.node e).rk = true) (hw : tokenWord p = .ok w) (hi : decodeTok w = .ok i) :
    nodeTurn e s = exec i { s with cur := (e, 0) } := by
  simp [nodeTurn, hq, hm, hw, hi]

/-! Messages. -/

section Commands
variable {s : State} {p : Nat} {who : BitVec 128} {msg : List Byte}

theorem mgmtTurn_unmanaged (hm : s.manages p who = false) : mgmtTurn p who msg s = .next s := by simp [mgmtTurn, hm]

theorem mgmtTurn_command (hm : s.manages p who = true) (hb : s.mgmtBusy p = false) :
    mgmtTurn p who msg s = exec (decodeMgmt msg) { s with cur := (p, 0) } := by simp [mgmtTurn, hm, hb]

/-- A command behind one not yet answered waits (R268). -/
theorem mgmtTurn_queued (hm : s.manages p who = true) (hb : s.mgmtBusy p = true) :
    mgmtTurn p who msg s = .next (onPort s p (fun x => { x with queued := x.queued ++ [(who, msg)] })) := by
  simp [mgmtTurn, hm, hb, onPort, onPanel]

end Commands

section Packets
variable {s : State} {bs tag : List Byte} (ht : tag.length = 16)
include ht

/-- The tag of a message is its last 16 bytes (R264). -/
theorem take_drop_tag : (bs ++ tag).take ((bs ++ tag).length - 16) = bs ∧ (bs ++ tag).drop ((bs ++ tag).length - 16) = tag := by
  simp [ht]

/-- A packet that R264 does not lay out is discarded. -/
theorem trlsTurn_malformed {x : Reject}
    (hd : decodeTrls (trlsCrypt (s.panel.root.sessions.get (trlsFields bs).spanel.toNat).rkey bs) = .error x) :
    trlsTurn (bs ++ tag) s = .next s := by
  unfold trlsTurn
  rw [(take_drop_tag ht).1]
  dsimp only
  rw [hd]

/-- A packet is its operation where its tag checks it, and an undefined operation whatever its tag; any other is discarded (R264). -/
theorem trlsTurn_decoded {i : Instr}
    (hd : decodeTrls (trlsCrypt (s.panel.root.sessions.get (trlsFields bs).spanel.toNat).rkey bs) = .ok i) :
    ((∃ c h, i = .trlsUndefinedOp c h) ∨ s.trlsTagOk bs tag = true → trlsTurn (bs ++ tag) s = exec i s)
    ∧ ((∀ c h, i ≠ .trlsUndefinedOp c h) → s.trlsTagOk bs tag = false → trlsTurn (bs ++ tag) s = .next s) := by
  obtain ⟨hbs, htag⟩ := take_drop_tag (bs := bs) ht
  unfold trlsTurn
  rw [hbs, htag]
  dsimp only
  rw [hd]
  split
  · rename_i hi
    cases hi
    exact ⟨fun _ => rfl, fun hu _ => absurd rfl (hu _ _)⟩
  · rename_i hu hi
    cases hi
    have hne : ¬ ∃ c h, i = .trlsUndefinedOp c h := fun ⟨c, m, hi⟩ => hu c m hi
    exact ⟨fun h => if_pos (h.resolve_left hne), fun _ h => if_neg (by simp [h])⟩
  · rename_i hi
    cases hi

end Packets

/-- Settles O57: the turn at the head of the agenda is taken off, and each agent's turn has an equation for each thing that it can do. -/
theorem stepRunsTheDecodedInstruction : Obligations.StepRunsTheDecodedInstruction := by
  unfold Obligations.StepRunsTheDecodedInstruction
  intro s u t rest h
  refine ⟨fun hs ht => ?stopped, fun b ht => ?powerGood, fun hs => ⟨fun e ht => ?element, fun r w v ht hm hr hw => ?sequencer,
    fun e p cs w i ht hq hm hw hi => ?node, fun p who msg ht => ?mgmt, fun bs tag i ht hl hd => ?trls,
    fun bs tag x ht hl hd => ?discarded, fun i ht => ?event⟩, fun z hz => step_of_empty_agenda hz⟩
  case stopped => rw [step_of_popped h, runTurn_stopped hs ht]
  case powerGood => rw [step_of_popped h, ht, runTurn_powerGood]
  case element =>
    rw [step_of_popped h, ht, runTurn_element hs]
    refine ⟨fun x op o f hf => elementTurn_released hf, fun n st op o f hf hn hp => ?stalled, fun hf hn hl hx => ?nothing,
      fun n op o f hf hn hl hx => ?selected, fun hf hn hl => ?landing⟩
    case stalled =>
      rw [elementTurn_stalled hf hn]
      refine ⟨fun hw => stalledTurn_waits hp hw, fun hr hm hd ha z hz => ?_⟩
      exact stalledTurn_passes hp hr hm hd ((State.enterF_passes ha).trans hz)
    case nothing => rw [elementTurn_selects hf hn hl, selectTurn_none hx]
    case selected =>
      rw [elementTurn_selects hf hn hl, selectTurn_some hx]
      refine ⟨State.selected_decodes hx, State.fireSelected_stalls, fun hd ha => ?_, fun hd ha => ?_, fun hv ht => ?_⟩
      · rw [State.fireSelected_enters hd, State.enterF_held ha]
      · rw [State.fireSelected_enters hd, State.enterF_passes ha]
      · rw [State.firing_eq_slotInstr _ _ _ _ _ hv ht, decodeSlot_of_parts (State.selected_decodes hx)]
    case landing =>
      refine ⟨elementTurn_lands_first hf hn hl, elementTurn_lands_after hf hn hl, fun n op o f hc hx => ?_⟩
      refine ⟨elementTurn_squashed hf hn hl hc hx, fun hq hd => ?_, fun hq hd ha => ?_⟩
      · rw [elementTurn_outlives hf hn hl hc hx hq, State.fireSelected_stalls hd]
      · rw [elementTurn_outlives hf hn hl hc hx hq, State.fireSelected_enters hd, State.enterF_passes ha]
  case sequencer =>
    rw [step_of_popped h, ht, runTurn_sequencer hs, sequencerTurn_run hm hr]
    exact ⟨streamTurn_midWord hw, streamTurn_block hw, fun i hp hb => streamTurn_word hw hp hb, streamTurn_badSequencer hw,
      streamTurn_notSequencer hw⟩
  case node => rw [step_of_popped h, ht, runTurn_node hs, nodeTurn_token hq hm hw hi]
  case mgmt =>
    rw [step_of_popped h, ht, runTurn_mgmt hs]
    exact ⟨mgmtTurn_unmanaged, mgmtTurn_command, mgmtTurn_queued⟩
  case trls =>
    rw [step_of_popped h, ht, runTurn_trls hs]
    exact trlsTurn_decoded hl hd
  case discarded => rw [step_of_popped h, ht, runTurn_trls hs, trlsTurn_malformed hl hd]
  case event => rw [step_of_popped h, ht, runTurn_event hs]

end Sys2Proof.Machine
end

section
/-! SUPPORT. A packet, a credit, a slot and a limiter window in the operand network: one equation for each thing that each event of the
network can do, and what a packet's delivery leaves alone. -/

namespace Sys2Proof.Machine

open Sys2Proof.Claims

/-! What the end of a quiet count and the count of a packet at its port leave alone. -/

/-- Activity changes at most a partition (R63). -/
theorem State.touch_cases (s : State) (r : Nat) : s.touch r = s ∨ ∃ p g, s.touch r = s.modPart p g := by
  unfold State.touch
  split
  · exact .inl rfl
  · split
    · exact .inl rfl
    · exact .inr ⟨_, _, rfl⟩

@[simp] theorem State.touch_elems (s : State) (r : Nat) : (s.touch r).elems = s.elems := by
  obtain h | ⟨p, g, h⟩ := s.touch_cases r <;> simp [h]
@[simp] theorem State.touch_dies (s : State) (r : Nat) : (s.touch r).dies = s.dies := by
  obtain h | ⟨p, g, h⟩ := s.touch_cases r <;> simp [h]
@[simp] theorem State.touch_nodes (s : State) (r : Nat) : (s.touch r).nodes = s.nodes := by
  obtain h | ⟨p, g, h⟩ := s.touch_cases r <;> simp [h]
@[simp] theorem State.touch_net (s : State) (r : Nat) : (s.touch r).net = s.net := by
  obtain h | ⟨p, g, h⟩ := s.touch_cases r <;> simp [h]
@[simp] theorem State.touch_reqs (s : State) (r : Nat) : (s.touch r).reqs = s.reqs := by
  obtain h | ⟨p, g, h⟩ := s.touch_cases r <;> simp [h]

@[simp] theorem State.touch_read_elem (s : State) (r e : Nat) : (s.touch r).elem e = s.elem e := by simp [State.elem]

/-- The limiter counts a packet in its region alone (R62). -/
theorem State.dripCount_cases (s : State) (f : Flit) (r : Nat) : s.dripCount f r = s ∨ ∃ g, s.dripCount f r = s.modRegion r g := by
  unfold State.dripCount
  split
  · exact .inl rfl
  · exact .inr ⟨_, rfl⟩

@[simp] theorem State.dripCount_elems (s : State) (f : Flit) (r : Nat) : (s.dripCount f r).elems = s.elems := by
  obtain h | ⟨g, h⟩ := s.dripCount_cases f r <;> simp [h]
@[simp] theorem State.dripCount_dies (s : State) (f : Flit) (r : Nat) : (s.dripCount f r).dies = s.dies := by
  obtain h | ⟨g, h⟩ := s.dripCount_cases f r <;> simp [h]
@[simp] theorem State.dripCount_nodes (s : State) (f : Flit) (r : Nat) : (s.dripCount f r).nodes = s.nodes := by
  obtain h | ⟨g, h⟩ := s.dripCount_cases f r <;> simp [h]
@[simp] theorem State.dripCount_net (s : State) (f : Flit) (r : Nat) : (s.dripCount f r).net = s.net := by
  obtain h | ⟨g, h⟩ := s.dripCount_cases f r <;> simp [h]
@[simp] theorem State.dripCount_reqs (s : State) (f : Flit) (r : Nat) : (s.dripCount f r).reqs = s.reqs := by
  obtain h | ⟨g, h⟩ := s.dripCount_cases f r <;> simp [h]

/-! A packet at its place. -/

@[simp] theorem State.place_net (s : State) (f : Flit) : (s.place f).net = s.net := by unfold State.place; split <;> rfl
@[simp] theorem State.place_reqs (s : State) (f : Flit) : (s.place f).reqs = s.reqs := by unfold State.place; split <;> rfl

theorem SlotSt.fieldAt_putField (x : SlotSt) (fld : Nat) (h : Option Held) : (x.putField fld h).fieldAt fld = h := by
  unfold SlotSt.putField SlotSt.fieldAt
  split
  · rfl
  · split <;> rfl

/-! What it is to put a packet at each kind of place, and what it is for one to stand there: an equation per kind of destination. -/

section Places
variable {s u : State} {f : Flit} {e n d : Nat}

theorem State.place_field {fld : Nat} (h : f.dst = .field e n fld) :
    s.place f = s.modSlot e n (fun x => x.putField fld (some f.held)) := by simp only [State.place, h]
theorem State.place_chan (h : f.dst = .chan e n) :
    s.place f = s.modElem e (fun el => { el with ins := el.ins.modify n (fun x => { x with q := x.q ++ [f.held] }) }) := by
  simp only [State.place, h]
theorem State.place_queue (h : f.dst = .queue d e n) :
    s.place f = s.modDie d (fun x => { x with islands := x.islands.modify e (fun y =>
      { y with queues := y.queues.modify n (fun z => { z with q := z.q ++ [{ f := f, tpl := z.tpl, permit := z.permit }] }) }) }) := by
  simp only [State.place, h]
theorem State.place_node (h : f.dst = .node e) :
    s.place f = { s with nodes := s.nodes.modify e (fun x => { x with cmds := x.cmds ++ [.tok f.pkt] }) } := by
  simp only [State.place, h]

theorem placed_field {fld : Nat} (h : f.dst = .field e n fld) :
    Placed s u f ↔ ((u.elem e).slots.get n).fieldAt fld = some f.held := by simp only [Placed, h]
theorem placed_chan (h : f.dst = .chan e n) :
    Placed s u f ↔ ((u.elem e).ins.get n).q = ((s.elem e).ins.get n).q ++ [f.held] := by simp only [Placed, h]
theorem placed_queue (h : f.dst = .queue d e n) :
    Placed s u f ↔ ∃ k, (((u.die d).islands.get e).queues.get n).q = (((s.die d).islands.get e).queues.get n).q ++ [k] ∧ k.f = f := by
  simp only [Placed, h]
theorem placed_node (h : f.dst = .node e) : Placed s u f ↔ (u.node e).cmds = (s.node e).cmds ++ [.tok f.pkt] := by
  simp only [Placed, h]

/-- A leaf of a merge island takes its packets by an event of its own (R196). -/
theorem State.destOpen_leaf (l : Nat) : s.destOpen (.leaf d n l) = false := rfl

end Places

@[simp] theorem State.dropFlit_elems (s : State) (i : Nat) : (s.dropFlit i).elems = s.elems := rfl
@[simp] theorem State.dropFlit_nodes (s : State) (i : Nat) : (s.dropFlit i).nodes = s.nodes := rfl
@[simp] theorem State.dropFlit_read_die (s : State) (i d : Nat) : (s.dropFlit i).die d = s.die d := rfl

/-- A place that is open is no leaf of a merge island, and a packet put there stands there (R80, R174, R184). -/
theorem placed_place {s : State} {f : Flit} (i : Nat) (h : s.destOpen f.dst = true) : Placed s ((s.dropFlit i).place f) f := by
  cases hd : f.dst with
  | field e n fld =>
    rw [placed_field hd, State.place_field hd]
    simp only [State.elem, State.modSlot_elems, PMap.get_set_same, PMap.get_modify_same, SlotSt.fieldAt_putField]
  | chan e c =>
    rw [placed_chan hd, State.place_chan hd]
    simp only [State.elem, State.modElem_elems, State.dropFlit_elems, PMap.get_set_same, PMap.get_modify_same]
  | queue d edge n =>
    rw [placed_queue hd, State.place_queue hd]
    let z := ((s.die d).islands.get edge).queues.get n
    refine ⟨{ f := f, tpl := z.tpl, permit := z.permit }, ?_, rfl⟩
    simp only [z, State.die_modDie_same, State.dropFlit_read_die, PMap.get_modify_same]
  | node e =>
    rw [placed_node hd, State.place_node hd]
    simp only [State.node, State.dropFlit_nodes, PMap.get_modify_same]
  | leaf d q l => rw [hd, State.destOpen_leaf] at h; cases h

/-- Where a packet stands is read from the elements, the dies and the nodes. -/
theorem placed_congr {s u v : State} {f : Flit} (h : Placed s u f) (he : v.elems = u.elems) (hd : v.dies = u.dies)
    (hn : v.nodes = u.nodes) : Placed s v f := by
  simpa only [Placed, State.elem, State.die, State.node, he, hd, hn] using h

/-- A state with the packet at place i of its network delivered, counted by the limiter unless an island takes it. -/
def State.delivered (s : State) (i : Nat) (f : Flit) : State :=
  (if destIsland f.dst then (s.dropFlit i).place f else ((s.dropFlit i).place f).dripCount f (flitRegion f)).touch (flitRegion f)

section Delivered
variable (s : State) (i : Nat) (f : Flit)

@[simp] theorem State.delivered_mem : (s.delivered i f).mem = s.mem := by unfold State.delivered; split <;> simp
@[simp] theorem State.delivered_reqs : (s.delivered i f).reqs = s.reqs := by unfold State.delivered; split <;> simp [State.dropFlit]
@[simp] theorem State.delivered_net : (s.delivered i f).net = s.net.eraseIdx i := by
  unfold State.delivered; split <;> simp [State.dropFlit]

end Delivered

theorem placed_delivered {s : State} {f : Flit} (i : Nat) (h : s.destOpen f.dst = true) : Placed s (s.delivered i f) f := by
  refine placed_congr (placed_place i h) ?_ ?_ ?_ <;> unfold State.delivered <;> split <;> simp

/-! PACKET_DELIVER. -/

section PacketDeliver
variable {s : State} {i : Nat} {f : Flit}

theorem execPacketDeliver_lost (hf : s.flitAt i = some f) (hm : s.moving (flitRegion f) = true) (hl : s.wayLost f = true) :
    execPacketDeliver i s = .next (s.dropFlit i) := by
  simp [execPacketDeliver, hf, hm, hl]

theorem execPacketDeliver_closed (hf : s.flitAt i = some f) (hl : s.wayLost f = false) (hw : s.wayOpen f = false) :
    execPacketDeliver i s = .next s := by
  simp [execPacketDeliver, hf, hl, hw]

variable (h : Arriving s i f)
include h

/-- A packet out of its partition, or for an unbound queue, faults its producer (R175, R222). -/
theorem execPacketDeliver_faults {e t : Nat} (hb : s.flitFault f = true) (hs : f.src = some (e, t)) :
    execPacketDeliver i s = .next ((s.dropFlit i).raiseSlot .bounds e f.slot) := by
  obtain ⟨hf, hl, hw, hm, hp⟩ := h
  simp only [execPacketDeliver, hf, hl, hw, hm, hp, hb, hs, Bool.not_true, Bool.or_self, Bool.false_eq_true, if_false, if_true]

theorem execPacketDeliver_delivers (hb : s.flitFault f = false) (ho : s.destOpen f.dst = true)
    (hd : destIsland f.dst = false → s.dripAdmits f (flitRegion f) = true) : execPacketDeliver i s = .next (s.delivered i f) := by
  obtain ⟨hf, hl, hw, hm, hp⟩ := h
  have hadmit : (destIsland f.dst || s.dripAdmits f (flitRegion f)) = true := by
    cases hi : destIsland f.dst with
    | true => rfl
    | false => exact hd hi
  simp only [execPacketDeliver, State.delivered, hf, hl, hw, hm, hp, hb, ho, hadmit, Bool.not_true, Bool.or_self, Bool.false_eq_true,
    if_false]

end PacketDeliver

/-! OUTPUT_CHANNEL_SEND. -/

/-- An element's output channel with the packets of a list left in it. -/
def State.setOutQueue (s : State) (e n : Nat) (q : List (Packet × Nat)) : State :=
  s.modElem e (fun el => { el with outs := el.outs.modify n (fun o => { o with q := q }) })

/-- The packet at the head of an output channel as it leaves for its consumer. -/
def State.headFlit (s : State) (e n : Nat) (p : Packet) (slot : Nat) (d : Dest) : Flit :=
  let o := (s.elem e).outs.get n
  { pkt := tagged ((s.elem e).t.get (o.bound - 1)) p, src := some (e, o.bound - 1), slot := slot, rk := ekRegion e, frm := o.frm - 1, dst := d }

/-- The head of a bound channel leaves when nothing stops it and its consumer has room (R81). -/
theorem execOutputChannelSend_sends {s : State} {e n slot : Nat} {p : Packet} {rest : List (Packet × Nat)} {d : Dest}
    (hq : ((s.elem e).outs.get n).q = (p, slot) :: rest) (hb : ((s.elem e).outs.get n).bound ≠ 0)
    (hm : s.moving (ekRegion e) = true)
    (hd : s.destOf e ((s.elem e).t.get (((s.elem e).outs.get n).bound - 1)) = some d) (hs : s.sendStop e d = none)
    (hc : s.consumerFree d p = true) :
    execOutputChannelSend e n s
      = .next ({ s.setOutQueue e n rest with net := s.net ++ [s.headFlit e n p slot d] }.touch (ekRegion e)) := by
  simp [execOutputChannelSend, hq, hb, hm, hd, hs, hc, State.setOutQueue, State.headFlit]

/-! CREDIT_RETURN, BND_PACKET_RELEASE, SLOT_AGEING. -/

section Credit
variable {s : State} {i e t : Nat} (h : s.creds[i]? = some (e, t))
include h

theorem execCreditReturn_returns (hm : s.moving (ekRegion e) = true) (hw : s.creditWay e t = true) :
    execCreditReturn i s
      = .next { s.modElem e (fun el => { el with spent := el.spent.erase t }) with creds := s.creds.eraseIdx i } := by
  simp [execCreditReturn, h, hm, hw]

theorem execCreditReturn_waits (hw : s.creditWay e t = false) : execCreditReturn i s = .next s := by
  simp [execCreditReturn, h, hw]

end Credit

/-- A BND's packet that is behind none for its destination leaves once its release is performed (R163, R330). -/
theorem execBndPacketRelease_leaves {s : State} {i tier : Nat} {cov : List Nat} {t : Ret} (h : s.bnds[i]? = some (tier, cov, t))
    (hm : s.moving t.rk = true) (hp : s.performed tier cov = true)
    (hf : ∀ b ∈ s.bnds.take i, ¬ (b.2.2.e = t.e ∧ b.2.2.dt = t.dt)) :
    execBndPacketRelease i s = .next (({ s with bnds := s.bnds.eraseIdx i }.fulfil t t.hdr).touch t.rk) := by
  have hfirst : (s.bnds.take i).any (fun b => b.2.2.e == t.e && b.2.2.dt == t.dt) = false :=
    List.any_eq_false.mpr (fun b hb => by simpa using hf b hb)
  simp only [execBndPacketRelease, h, hm, hp, hfirst, Bool.not_true, Bool.or_self, Bool.false_eq_true, if_false]

theorem execSlotAgeing_ages {s : State} {e n : Nat} (hr : s.ready e n = true) (hm : s.moving (ekRegion e) = true)
    (hh : (s.elem e).hold = .run) : execSlotAgeing e n s = .next (s.modSlot e n (fun x => { x with aged := true })) := by
  simp [execSlotAgeing, hr, hm, hh]

/-- Settles O39: each event of the operand network has an equation for each thing that it can do; a delivered packet stands at its place,
and of a sent one the network holds its flit. -/
theorem networkEventsComplete : Obligations.NetworkEventsComplete := by
  unfold Obligations.NetworkEventsComplete
  intro s i e n
  refine ⟨fun f ha hb ho hd => ?delivered, fun f src ha hb hs => execPacketDeliver_faults ha hb hs,
    fun f hf hm hl => execPacketDeliver_lost hf hm hl, fun f hf hl hw => execPacketDeliver_closed hf hl hw,
    fun p slot rest d hq hb hm hd hs hc => ?sent,
    fun t h hm => ⟨execCreditReturn_returns h hm, execCreditReturn_waits h⟩,
    fun tier cov t h hm hp hf => execBndPacketRelease_leaves h hm hp hf, execSlotAgeing_ages, rfl⟩
  case delivered =>
    exact ⟨_, execPacketDeliver_delivers ha hb ho hd, s.delivered_net i f, placed_delivered i ho, s.delivered_mem i f,
      s.delivered_reqs i f⟩
  case sent =>
    refine ⟨_, execOutputChannelSend_sends hq hb hm hd hs hc, ?_, ?_, ?_, fun x hx => ?_⟩
    · simp [State.setOutQueue, State.elem]
    · simp [State.headFlit, tagged]
    · simp [State.setOutQueue]
    · simp [State.setOutQueue, State.elem, PMap.get_set_ne, hx]

end Sys2Proof.Machine
end

section
/-! SUPPORT. A memory request on its way: one equation for each thing that its translation, its drain and its answer can do. -/

namespace Sys2Proof.Machine

open Sys2Proof.Claims

/-! TABLE_WALK. -/

section TableWalk
variable {s : State} {i : Nat} {q : Req}
  (ho : ∀ x ∈ s.reqs, x.who = .firing → q.who = .firing → x.ret.e = q.ret.e → x.id < q.id → x.phase ≠ .xlat)
include ho

/-- A request that is first in its element's order waits behind none. -/
theorem no_older_untranslated :
    s.reqs.any (fun x => x.who == .firing && q.who == .firing && x.ret.e == q.ret.e && x.id < q.id && x.phase == .xlat) = false :=
  List.any_eq_false.mpr (fun x hx => by simpa [and_imp] using ho x hx)

variable (h : OnItsWay s i q .xlat)
include h

/-- A request that stage 1 turns away is answered with its fault (R145, R152). -/
theorem execTableWalk_faults {c : FCode} (hc : s.stage1 q.ret.rk (s.who q.ret.rk) q.va (reqNeed q.op) = .error c) :
    execTableWalk i s = .next ((s.setReq i (q.fail c)).drawn.touch q.ret.rk) := by
  obtain ⟨hq, hp, hm⟩ := h
  simp [execTableWalk, hq, hp, hm, no_older_untranslated ho, hc]

/-- A translated request has its GPA and is sent on (R146 to R151). -/
theorem execTableWalk_translates {g : Nat} {t : Option TlbEnt}
    (hc : s.stage1 q.ret.rk (s.who q.ret.rk) q.va (reqNeed q.op) = .ok (g, t)) :
    execTableWalk i s = .next (((s.fillTlb q.ret.rk t).leave { q with gpa := g }).drawn.touch q.ret.rk) := by
  obtain ⟨hq, hp, hm⟩ := h
  simp [execTableWalk, hq, hp, hm, no_older_untranslated ho, hc]

end TableWalk

/-! POSTED_WRITE_DRAIN. -/

section Drain
variable {s : State} {i : Nat} {q : Req} (hs : isStore q.op = true) (hb : s.behindWrite q = false)
include hs hb

theorem execPostedWriteDrain_toQuad (h : OnItsWay s i q .rwb) :
    execPostedWriteDrain i s = .next ((s.moveReq i { q with phase := .qeq }).touch q.ret.rk) := by
  obtain ⟨hq, hp, hm⟩ := h
  simp [execPostedWriteDrain, hq, hs, hm, hb, hp]

theorem execPostedWriteDrain_toDie (h : OnItsWay s i q .qeq) :
    execPostedWriteDrain i s = .next ((s.moveReq i { q with phase := .deq }).touch q.ret.rk) := by
  obtain ⟨hq, hp, hm⟩ := h
  simp [execPostedWriteDrain, hq, hs, hm, hb, hp]

end Drain

/-! What a steward's answer waits for. -/

/-- Only a steward instruction's answer changes when what it waits for has happened: its result. -/
theorem State.settled_cases {s : State} {q y : Req} (h : s.settled q = some y) : ∃ res, y = { q with res := res } := by
  unfold State.settled at h
  split at h
  · split at h
    · cases h; exact ⟨_, rfl⟩
    · cases h
  · cases h; exact ⟨_, rfl⟩

/-- An ATST that waits is never settled: the root serves it first (R325). -/
theorem State.not_atst_of_settled {s : State} {q y : Req} (h : s.settled q = some y) (sub : Nat) (d : UnitId) :
    q.op ≠ .steward (.atst sub d) := by
  intro ha
  simp [State.settled, ha, State.pendingDone] at h

/-- A request whose answer crosses the panel is no steward instruction's. -/
theorem State.settled_of_crosses {s : State} {q : Req} (h : crosses q = true) : s.settled q = some q := by
  unfold State.settled
  split
  · rename_i hp
    simp [crosses, hasVa, hp] at h
  · rfl

/-- An answer waits on its way back only where it crosses the panel (R25). -/
theorem State.crosses_of_backWaits {s : State} {q : Req} (h : s.backWaits q = true) : crosses q = true := by
  simp only [State.backWaits, Bool.and_eq_true] at h
  exact h.1.1

/-! MEMORY_RESPONSE. -/

/-- An ATST that waits is served once those before it are (R325). -/
theorem execMemoryResponse_atst {s : State} {i sub : Nat} {q : Req} {d : UnitId} (hq : s.reqAt i = some q)
    (ho : q.op = .steward (.atst sub d)) : execMemoryResponse i s = .next (if s.atstBusy i = true then s else s.atstServe q sub d) := by
  simp only [execMemoryResponse, hq, ho]

/-- An answer that is first of its slot waits behind none (R142). -/
theorem no_older_answer {s : State} {i : Nat} {q : Req}
    (ho : q.op = .answer → ∀ x ∈ s.before i, ¬ (x.op = .answer ∧ x.ret.e = q.ret.e ∧ x.ret.slot = q.ret.slot)) :
    (q.op == .answer && (s.before i).any (fun x => x.op == .answer && x.ret.e == q.ret.e && x.ret.slot == q.ret.slot)) = false := by
  cases ha : q.op == .answer with
  | false => rfl
  | true => exact List.any_eq_false.mpr (fun x hx => by simpa [and_assoc] using ho (by simpa using ha) x hx)

/-- Any other response goes to its requester. -/
theorem execMemoryResponse_settled {s : State} {i : Nat} {q y : Req} (hq : s.reqAt i = some q) (hy : s.settled q = some y) :
    execMemoryResponse i s = s.respond i := by
  unfold execMemoryResponse
  rw [hq]
  dsimp only
  split
  · rename_i ha
    exact absurd ha (State.not_atst_of_settled hy _ _)
  · rfl

section Respond
variable {s : State} {i : Nat} {q y : Req} (h : OnItsWay s i q .resp) (hw : q.who = .firing)
include h hw

/-- An answer waits for a channel on its way back to carry data (R25). -/
theorem State.respond_waits (hb : s.backWaits q = true) : s.respond i = .next s := by
  obtain ⟨hq, hp, hm⟩ := h
  have hy : s.settled q = some q := State.settled_of_crosses (State.crosses_of_backWaits hb)
  simp [State.respond, hq, hy, hw, hb]

variable (hy : s.settled q = some y) (hb : s.backWaits q = false)
  (ho : q.op = .answer → ∀ x ∈ s.before i, ¬ (x.op = .answer ∧ x.ret.e = q.ret.e ∧ x.ret.slot = q.ret.slot))
include hy hb ho

/-- The fault of a failed request, or of one whose answer is dropped on its way, is raised against its slot, and the places kept for its
result are given back (R152, R314). -/
theorem State.respond_faults {c : FCode} (hc : s.returned q = some c) :
    let u := ((s.dropReq i).touch q.ret.rk).release q.ret
    s.respond i = .next (u.raiseElem c q.ret.e { u.slotRecord c q.ret.e q.ret.slot with
      vav := hasVa q.op, va := if hasVa q.op then q.va else 0, detail := if c = .ecc then q.gpa else 0 }) := by
  obtain ⟨hq, hp, hm⟩ := h
  obtain ⟨res, rfl⟩ := State.settled_cases hy
  have hback : s.returned { q with res := res } = some c := hc
  have hwait : s.backWaits { q with res := res } = false := hb
  have hfirst := no_older_answer ho
  simp only [State.respond, hq, Option.bind_some, hy, hwait, hback]
  simp [hw, hp, hm, hfirst]

/-- The answer of a request comes to its element, with what it acquires or sees and its flags (R156, R158, R314). -/
theorem State.respond_answers (hc : s.returned q = none) :
    let t := (s.dropReq i).touch q.ret.rk
    let seen := if acquires q.op then t.acquire q.ret.e q.cov else if bringsValue q.op then t.saw q.ret.e q.cov else t
    let v := seen.modElem q.ret.e (fun el => { el with es := el.es ||| q.flags })
    s.respond i = .next (match y.res with | some p => v.answer q.ret p | none => v.release q.ret) := by
  obtain ⟨hq, hp, hm⟩ := h
  obtain ⟨res, rfl⟩ := State.settled_cases hy
  have hback : s.returned { q with res := res } = none := hc
  have hwait : s.backWaits { q with res := res } = false := hb
  have hfirst := no_older_answer ho
  simp only [State.respond, hq, Option.bind_some, hy, hwait, hback]
  cases res <;> simp [hw, hp, hm, hfirst]

end Respond

/-- Settles O40: a request's translation, its drain and its answer have an equation for each thing that they can do. -/
theorem requestsTravel : Obligations.RequestsTravel := by
  unfold Obligations.RequestsTravel
  intro s i q
  refine ⟨fun h ho => ⟨fun c hc => execTableWalk_faults ho h hc, fun g t hc => execTableWalk_translates ho h hc⟩,
    fun hs hb => ⟨execPostedWriteDrain_toQuad hs hb, execPostedWriteDrain_toDie hs hb⟩,
    fun hq sub d ho => execMemoryResponse_atst hq ho, fun h hw hb => ?waits, fun y h hw hy hb ho => ?comes⟩
  case waits =>
    have hy : s.settled q = some q := State.settled_of_crosses (State.crosses_of_backWaits hb)
    exact (execMemoryResponse_settled h.1 hy).trans (State.respond_waits h hw hb)
  case comes =>
    have hr : exec (.memoryResponse i) s = s.respond i := execMemoryResponse_settled h.1 hy
    exact ⟨fun c hc => hr.trans (State.respond_faults h hw hy hb ho hc), fun hc => hr.trans (State.respond_answers h hw hy hb ho hc)⟩

end Sys2Proof.Machine
end

section
/-! SUPPORT. The fence that FNC leaves, and that PFG changes nothing but prefetch lines. -/

namespace Sys2Proof.Machine

open Sys2Proof.Claims

/-! FNC. -/

/-- An element as FNC leaves it: a fence that is done no longer holds, and the new one stands behind the others (R168, R345). -/
def State.fencedElem (s : State) (e : Nat) (x : Fence) : Elem :=
  ({ s.elem e with fences := (s.elem e).fences.filter (fun y => !s.fenceDone y) } : Elem).fence x

/-- The state that FNC leaves: the prefetch lines of its region gone, its element fenced (R156, R345). -/
def State.fencedAt (s : State) (e : Nat) (x : Fence) : State := (s.dropLines (ekRegion e)).modElem e (fun _ => s.fencedElem e x)

/-- The fence of an FNC of some tier: the reads and atomics under way, and the covered writes not yet answered (R168). -/
def State.newFence (s : State) (e tier : Nat) : Fence :=
  { tier := tier, reqs := s.incomplete e, writes := s.unanswered ((s.elem e).cov ++ (s.elem e).seen).eraseDups }

theorem execFnc_fences (s : State) (o : Slot) (f : Fn) :
    execFnc o f s = .next ((triggered s o).fencedAt s.cur.1 ((triggered s o).newFence s.cur.1 (fnIm f % 8))) :=
  (fireWith_ok rfl).trans rfl

section Fenced
variable (s : State) (e : Nat) (x : Fence)

@[simp] theorem State.fencedAt_mem : (s.fencedAt e x).mem = s.mem := rfl
@[simp] theorem State.fencedAt_reqs : (s.fencedAt e x).reqs = s.reqs := rfl
@[simp] theorem State.fencedAt_elem_same : (s.fencedAt e x).elem e = s.fencedElem e x := PMap.get_set_same _ _ _
theorem State.fencedAt_elem_ne {d : Nat} (h : d ≠ e) : (s.fencedAt e x).elem d = s.elem d := PMap.get_set_ne _ _ h
@[simp] theorem State.fencedAt_prefetch : ((s.fencedAt e x).region (ekRegion e)).prefetch = [] := by
  simp [State.fencedAt, State.dropLines]

theorem State.mem_fencedElem_fences : x ∈ (s.fencedElem e x).fences := List.mem_append_right _ (List.mem_singleton_self x)
@[simp] theorem State.fencedElem_cov : (s.fencedElem e x).cov = ((s.elem e).cov ++ (s.elem e).seen).eraseDups := rfl
@[simp] theorem State.fencedElem_seen : (s.fencedElem e x).seen = [] := rfl
@[simp] theorem State.fencedElem_fenced : (s.fencedElem e x).fenced = x.writes := rfl

end Fenced

/-! PFG. -/

/-- Two states that differ, of what R369 speaks of, in prefetch lines alone. -/
structure SameButPrefetch (s t : State) : Prop where
  mem : t.mem = s.mem
  elems : t.elems = s.elems
  reqs : t.reqs = s.reqs
  parts : t.parts = s.parts
  net : t.net = s.net
  regions : ∀ q, { t.region q with prefetch := [] } = { s.region q with prefetch := [] }

theorem SameButPrefetch.refl (s : State) : SameButPrefetch s s := ⟨rfl, rfl, rfl, rfl, rfl, fun _ => rfl⟩

theorem SameButPrefetch.trans {s t u : State} (h : SameButPrefetch s t) (k : SameButPrefetch t u) : SameButPrefetch s u :=
  ⟨k.mem.trans h.mem, k.elems.trans h.elems, k.reqs.trans h.reqs, k.parts.trans h.parts, k.net.trans h.net,
    fun q => (k.regions q).trans (h.regions q)⟩

theorem sameButPrefetch_drawn (s : State) : SameButPrefetch s s.drawn := ⟨rfl, rfl, rfl, rfl, rfl, fun _ => rfl⟩

theorem sameButPrefetch_modRegion (s : State) (r : Nat) (f : List PLine → List PLine) :
    SameButPrefetch s (s.modRegion r (fun x => { x with prefetch := f x.prefetch })) := by
  refine ⟨rfl, rfl, rfl, rfl, rfl, fun q => ?_⟩
  rw [State.region_modRegion]
  split
  case isTrue h => rw [h]
  case isFalse => rfl

/-- One line of a PFG: filled or not, nothing else changes (R156, R369). -/
theorem sameButPrefetch_prefetch (s : State) (e va : Nat) : SameButPrefetch s (s.prefetch e va) := by
  have hdrawn := (sameButPrefetch_drawn s).trans (sameButPrefetch_drawn s.drawn)
  unfold State.prefetch
  dsimp only
  split
  case h_1 => exact hdrawn
  case h_2 =>
    split
    · exact ((sameButPrefetch_drawn s).trans (sameButPrefetch_modRegion _ _ (fun ls => addLine ls _))).trans (sameButPrefetch_drawn _)
    · exact hdrawn

theorem sameButPrefetch_foldl {β : Type} {g : State → β → State} (hg : ∀ s x, SameButPrefetch s (g s x)) (l : List β) :
    ∀ s, SameButPrefetch s (l.foldl g s) := by
  induction l with
  | nil => exact SameButPrefetch.refl
  | cons x l ih => exact fun s => (hg s x).trans (ih _)

theorem execPfg_fills (s : State) (o : Slot) (f : Fn) : ∃ u, execPfg o f s = .next u ∧ SameButPrefetch (triggered s o) u := by
  refine ⟨_, fireWith_ok rfl, ?_⟩
  split
  · exact sameButPrefetch_foldl (fun s _ => sameButPrefetch_prefetch s _ _) _ _
  · exact SameButPrefetch.refl _

/-- Settles O24: FNC leaves its region without prefetch lines and its element fenced, and PFG leaves everything but prefetch lines. -/
theorem fenceAndPrefetchComplete : Obligations.FenceAndPrefetchComplete := by
  unfold Obligations.FenceAndPrefetchComplete
  intro s o f
  refine ⟨⟨_, execFnc_fences s o f, ?_⟩, ?_⟩
  case refine_1 =>
    simp only [State.fencedAt_prefetch, State.fencedAt_elem_same, State.fencedElem_cov, State.fencedElem_seen,
      State.fencedElem_fenced, State.fencedAt_mem, State.fencedAt_reqs, true_and]
    exact ⟨State.mem_fencedElem_fences _ _ _, rfl, fun d hd => State.fencedAt_elem_ne _ _ _ hd⟩
  case refine_2 =>
    obtain ⟨u, hu, h⟩ := execPfg_fills s o f
    exact ⟨u, hu, h.mem, h.elems, h.reqs, h.parts, h.net, h.regions⟩

end Sys2Proof.Machine
end

section
/-! SUPPORT. The home cycle of a versioned word with one request that waits: one equation for each thing that the request can do. -/

namespace Sys2Proof.Machine

open Sys2Proof.Claims

/-! The distance test of R160. -/

theorem distance_eq_zero {x : Int} (h : x % 256 = 0) : distance x = 0 := by simp [distance, h]

theorem distance_eq_one {x : Int} (h1 : 1 ≤ x % 256) (h2 : x % 256 ≤ 127) : distance x = 1 := by
  have hn : (x % 256).toNat ≠ 0 ∧ (x % 256).toNat ≤ 127 := by omega
  simp [distance, hn]

theorem distance_eq_two {x : Int} (h : 128 ≤ x % 256) : distance x = 2 := by
  have hn : (x % 256).toNat ≠ 0 ∧ ¬ (x % 256).toNat ≤ 127 := by omega
  simp [distance, hn]

/-! What a turn at a versioned word leaves in the fields. -/

@[simp] theorem State.setReq_reqs (s : State) (i : Nat) (x : Req) :
    (s.setReq i x).reqs = s.reqs.map (fun y => if y.id = i then x else y) := by simp [State.setReq]

@[simp] theorem State.putLines_reqs (s : State) (r a : Nat) (bs : List Byte) : (s.putLines r a bs).reqs = s.reqs := by
  unfold State.putLines; split <;> rfl
@[simp] theorem State.putHome_reqs (s : State) (a : Nat) (bs : List Byte) : (s.putHome a bs).reqs = s.reqs := by
  unfold State.putHome; split <;> rfl
@[simp] theorem State.putLines_vers (s : State) (r a : Nat) (bs : List Byte) : (s.putLines r a bs).vers = s.vers := by
  unfold State.putLines; split <;> rfl
@[simp] theorem State.putLines_relCov (s : State) (r a : Nat) (bs : List Byte) : (s.putLines r a bs).relCov = s.relCov := by
  unfold State.putLines; split <;> rfl

theorem State.putHome_of_copyKey_none {s : State} {a : Nat} (h : s.copyKey a = none) (bs : List Byte) :
    s.putHome a bs = s.write a bs := by unfold State.putHome; rw [h]

/-- A write that releases some writes is kept for the word it starts with (R158). -/
theorem State.relCov_setCov {s : State} {a : Nat} (ids : List Nat) (h : a % 4 = 0) : (s.setCov a 8 ids).relCov.get a = ids := by
  have hr : List.range ((a % 4 + 8 + 3) / 4) = [0, 1] := by rw [h]; rfl
  have ha : a / 4 * 4 = a := by omega
  simp only [State.setCov, hr, ha, List.foldl_cons, List.foldl_nil]
  rw [PMap.get_set_ne _ _ (by omega)]
  exact PMap.get_set_same _ _ _

/-! A request at its word. -/

/-- The state in which a write of 8 bytes has been made to a versioned word, which takes a version, and its request answers (R160). -/
def State.versionWritten (s : State) (a : Nat) (q : Req) (v : BitVec 8) (bs : List Byte) : State :=
  ({ (s.putHome a bs).setCov a 8 q.cov with vers := s.vers.set (a / 8) v }.putLines q.ret.rk a bs).setReq q.id q.done

section Written
variable {s : State} {a : Nat} (q : Req) (v : BitVec 8) (bs : List Byte)

@[simp] theorem State.versionWritten_reqs :
    (s.versionWritten a q v bs).reqs = s.reqs.map (fun y => if y.id = q.id then { q with phase := .resp } else y) := by
  simp [State.versionWritten, State.setCov, Req.done]

@[simp] theorem State.versionWritten_vers : (s.versionWritten a q v bs).vers.get (a / 8) = v := by
  simp [State.versionWritten, State.setReq]

theorem State.versionWritten_relCov (h : a % 4 = 0) : (s.versionWritten a q v bs).relCov.get a = q.cov := by
  simpa [State.versionWritten, State.setReq] using State.relCov_setCov q.cov h

variable (hc : s.copyKey a = none)
include hc

theorem State.versionWritten_mem : (s.versionWritten a q v bs).mem = memPut s.mem a bs := by
  simp [State.versionWritten, State.putHome_of_copyKey_none hc]

theorem State.versionWritten_memBytes (hl : bs.length = 8) : memBytes (s.versionWritten a q v bs).mem a 8 = bs := by
  rw [State.versionWritten_mem q v bs hc, ← hl, memBytes_memPut]

theorem State.versionWritten_memByte_outside (hl : bs.length = 8) {b : Nat} (hb : ¬ (a ≤ b ∧ b < a + 8)) :
    memByte (s.versionWritten a q v bs).mem b = memByte s.mem b := by
  rw [State.versionWritten_mem q v bs hc]
  exact memByte_memPut_outside _ _ _ _ (by omega)

end Written

/-- A request behind an older access of its element or a posted write to the word waits (R157). -/
theorem State.applyVersion_behind {s : State} {a : Nat} {q : Req}
    (h : (s.olderOpen q || s.nearPosted (rkDie q.ret.rk) (some q.ret.rk) a 8) = true) : s.applyVersion a q = s := by
  simp only [State.applyVersion, h, if_true]

section Acts
variable {s : State} {a v : Nat} {q : Req}
  (hb : (s.olderOpen q || s.nearPosted (rkDie q.ret.rk) (some q.ret.rk) a 8) = false)
include hb

/-- An LDV of the word's version answers its bytes and what the STV that wrote them released (R160, R355). -/
theorem State.applyVersion_ldv (ho : q.op = .ldv v) (hd : ((s.vers.get (a / 8)).toNat - v : Int) % 256 = 0) (he : s.eccBad a 8 = false) :
    s.applyVersion a q = s.setReq q.id { q with
      phase := .resp, res := some { q.ret.hdr with lanes := natLanes 2 (bytesVal (memBytes s.mem a 8)) }, cov := s.relCov.get a } := by
  simp [State.applyVersion, hb, ho, distance_eq_zero hd, he]

/-- An STV of the next version, its release performed, writes its bytes and takes the word to that version (R160, R399). -/
theorem State.applyVersion_stv (ho : q.op = .stv v) (hp : s.performed (keyTier a) q.cov = true)
    (hd : ((s.vers.get (a / 8)).toNat - v + 1 : Int) % 256 = 0) : s.applyVersion a q = s.versionWritten a q (BitVec.ofNat 8 v) q.data := by
  simp [State.applyVersion, hb, ho, hp, distance_eq_zero hd, State.versionWritten]

/-- An RCLM of the word's version clears the word and its version (R160, R382). -/
theorem State.applyVersion_rclm (ho : q.op = .rclm v) (hd : ((s.vers.get (a / 8)).toNat - v : Int) % 256 = 0) :
    s.applyVersion a q = s.versionWritten a q 0 (valBytes 8 0) := by
  simp [State.applyVersion, hb, ho, distance_eq_zero hd, State.versionWritten]

/-- What R160 tests of a request whose turn has not come by its version alone: an LDV or an RCLM its own version, an STV the one before,
its release performed. -/
def State.Tests (s : State) (a : Nat) (q : Req) (x : Int) : Prop :=
  (∃ v : Nat, (q.op = .ldv v ∨ q.op = .rclm v) ∧ x = (s.vers.get (a / 8)).toNat - v)
  ∨ (∃ v : Nat, q.op = .stv v ∧ s.performed (keyTier a) q.cov = true ∧ x = (s.vers.get (a / 8)).toNat - v + 1)

/-- A request of an older version answers F_VERSION (R160). -/
theorem State.applyVersion_old {x : Int} (ht : s.Tests a q x) (h1 : 1 ≤ x % 256) (h2 : x % 256 ≤ 127) :
    s.applyVersion a q = s.setReq q.id (q.fail .version) := by
  have hd := distance_eq_one h1 h2
  obtain ⟨v, ho | ho, rfl⟩ | ⟨v, ho, hp, rfl⟩ := ht
  · simp [State.applyVersion, hb, ho, hd]
  · simp [State.applyVersion, hb, ho, hd]
  · simp [State.applyVersion, hb, ho, hp, hd]

/-- A request of a newer version keeps waiting (R160). -/
theorem State.applyVersion_new {x : Int} (ht : s.Tests a q x) (h : 128 ≤ x % 256) : s.applyVersion a q = s := by
  have hd := distance_eq_two h
  obtain ⟨v, ho | ho, rfl⟩ | ⟨v, ho, hp, rfl⟩ := ht
  · simp [State.applyVersion, hb, ho, hd]
  · simp [State.applyVersion, hb, ho, hd]
  · simp [State.applyVersion, hb, ho, hp, hd]

end Acts

/-- A home cycle with one request that waits at its word is that request's turn there, whichever of the three passes is its own. -/
theorem execVersionHomeCycle_onlyWaits {s : State} {word : Nat} {q : Req} (h : OnlyWaits s word q) :
    execVersionHomeCycle word s = .next (s.applyVersion word q) := by
  have hs : sortOn (s.portRank word) (s.waitingAt word) = [q] := by
    rw [show s.waitingAt word = [q] from h]
    rfl
  simp only [execVersionHomeCycle, hs]
  cases ho : q.op <;> simp [isLdv, isStv, isRclm, State.applyVersion, ho]

/-- Settles O43: the one request that waits takes its turn at the word, which R157 and R160 decide. -/
theorem versionHomeCycleCompletes : Obligations.VersionHomeCycleCompletes := by
  unfold Obligations.VersionHomeCycleCompletes
  intro s word q hw hc ver behind result answers turnedAway
  have hcycle : exec (.versionHomeCycle word) s = .next (s.applyVersion word q) := execVersionHomeCycle_onlyWaits hw
  have haway (hb : behind = false) (x : Int) (ht : s.Tests word q x) : turnedAway x :=
    ⟨fun ⟨h1, h2⟩ => ⟨_, hcycle.trans (congrArg _ (State.applyVersion_old hb ht h1 h2)), ⟨rfl, State.setReq_reqs _ _ _⟩, fun _ _ => rfl⟩,
      fun h => hcycle.trans (congrArg _ (State.applyVersion_new hb ht h))⟩
  refine ⟨fun hb => ⟨fun v ho hv he => ?ldv, fun v ho hlt hv hl hp => ?stv, fun v ho hv => ?rclm,
      fun v ho => haway hb _ (.inl ⟨v, ho, rfl⟩), fun v ho hp => haway hb _ (.inr ⟨v, ho, hp, rfl⟩)⟩,
    fun hb => hcycle.trans (congrArg _ (State.applyVersion_behind hb))⟩
  case ldv =>
    have hturn := State.applyVersion_ldv hb ho (by omega) he
    exact ⟨_, hcycle.trans (congrArg _ hturn), ⟨rfl, State.setReq_reqs _ _ _⟩, fun _ _ => rfl⟩
  case stv =>
    have hturn := State.applyVersion_stv hb ho hp (by omega)
    have hver : (BitVec.ofNat 8 v).toNat = v := by simp [Nat.mod_eq_of_lt hlt]
    exact ⟨_, hcycle.trans (congrArg _ hturn), ⟨State.versionWritten_memBytes q _ _ hc hl, by rw [State.versionWritten_vers, hver],
      State.versionWritten_reqs q _ _, State.versionWritten_relCov q _ _⟩,
      fun _ => State.versionWritten_memByte_outside q _ _ hc hl⟩
  case rclm =>
    have hturn := State.applyVersion_rclm hb ho (by omega)
    exact ⟨_, hcycle.trans (congrArg _ hturn), ⟨State.versionWritten_memBytes q _ _ hc rfl, State.versionWritten_vers q _ _,
      State.versionWritten_reqs q _ _⟩, fun _ => State.versionWritten_memByte_outside q _ _ hc rfl⟩

end Sys2Proof.Machine
end

section
/-! SUPPORT. Merge islands: one equation for each thing that a leaf's packet, the root, a pass and the output of an island can do. -/

namespace Sys2Proof.Machine

open Sys2Proof.Claims

/-! MERGE_LEAF_PACKET. -/

section Leaf
variable {s : State} {i d q l : Nat} {f : Flit} (hf : s.flitAt i = some f) (hd : f.dst = .leaf d q l) (hm : s.moving f.rk = true)
  (hp : s.performed 3 f.pkt.cov = true)
include hf hd hm hp

/-- A packet of a partition that has no session on the island faults its producer (R200). -/
theorem execMergeLeafPacket_noSession (h : (s.merge d q).opened = false ∨ s.pidOf f.rk ≠ s.pidOf (s.merge d q).rk) :
    execMergeLeafPacket i s = .next ((s.dropFlit i).noSession q l f) := by
  have hmine : ((s.merge d q).opened && s.pidOf f.rk == s.pidOf (s.merge d q).rk) = false := by
    obtain h | h := h <;> simp [h]
  simp [execMergeLeafPacket, hf, hd, hm, hp, hmine]

variable (h : OpenMerge s d q) (hpid : s.pidOf f.rk = s.pidOf (s.merge d q).rk)
include h hpid

/-- A packet that passes its checks enters its leaf's window where there is room (R196, R199). -/
theorem execMergeLeafPacket_enters (hc : (s.merge d q).leafCheck l f.pkt = .ok ())
    (hr : ((s.merge d q).leaves.get l).count + (s.merge d q).entriesIn f.pkt ≤ (s.merge d q).window) :
    execMergeLeafPacket i s = .next (((s.dropFlit i).modMerge d q (fun x => { x with
      leaves := x.leaves.set l (x.enter (x.leaves.get l) f.pkt), cov := (x.cov ++ f.pkt.cov).eraseDups })).touch (s.merge d q).rk) := by
  obtain ⟨ho, hk⟩ := h
  simp [execMergeLeafPacket, hf, hd, hm, hp, hpid, ho, hk, hc, Nat.not_lt.mpr hr]

/-- A packet that a check turns away faults the session's opener (R200). -/
theorem execMergeLeafPacket_faults {c : FCode} (hc : (s.merge d q).leafCheck l f.pkt = .error c) :
    execMergeLeafPacket i s = .next ((s.dropFlit i).mergeFault c q (s.merge d q) (some l) 0) := by
  obtain ⟨ho, hk⟩ := h
  simp [execMergeLeafPacket, hf, hd, hm, hp, hpid, ho, hk, hc]

end Leaf

/-! A step of an island, and the combine unit. -/

/-- A step that the ring did not refuse leaves the island that it gives. -/
theorem State.mergeStep_goes {s : State} {d q n : Nat} {m r : Merge} {x : State × Except FCode Merge} (h : Goes x r) :
    s.mergeStep d q m x n = (x.1.setMerge d q r).touch m.rk := by
  unfold State.mergeStep
  rw [show x.2 = .ok r from h]

theorem State.mergeStep_of_eq {s t : State} {d q n : Nat} {m r : Merge} {x : State × Except FCode Merge} (h : x = (t, .ok r)) :
    s.mergeStep d q m x n = (t.setMerge d q r).touch m.rk := by
  subst h
  exact State.mergeStep_goes rfl

section Combine
variable {s : State} {d q k v : Nat} {m : Merge}

/-- The first entry of a round is held (R203). -/
theorem State.combine_holds (h : m.hold = none) :
    s.combine d q m k v = (s.addFlags m.e (m.held v).2, .ok { m with hold := some (k, (m.held v).1) }) := by
  simp only [State.combine, h]

/-- An entry of the key held is folded into it, outside KEEP mode (R203). -/
theorem State.combine_folds {u : Nat} (h : m.hold = some (k, u)) (hc : m.cmb ≠ 0) :
    s.combine d q m k v = ((s.addFlags m.e (m.held v).2).addFlags m.e (m.fold u (m.held v).1).2,
      .ok { m with hold := some (k, (m.fold u (m.held v).1).1) }) := by
  have hk : (k == k && m.cmb != 0) = true := by simp [hc]
  simp only [State.combine, h, hk, if_true]

theorem State.flush_none (h : m.hold = none) : s.flush d q m = (s, .ok m) := by simp only [State.flush, h]

/-- In STREAM mode the key held is emitted (R204, R205). -/
theorem State.flush_stream (h : m.hold = some (k, v)) (ha : m.accum = false) :
    s.flush d q m = (s.addFlags m.e (m.emit k v).2, .ok { (m.emit k v).1 with hold := none }) := by
  simp [State.flush, State.putKey, h, ha, Except.map]

end Combine

/-! MERGE_ROOT_EMIT. -/

/-- The heads that a root looks at: its session's leaves in use. -/
def Merge.ends (m : Merge) : List Leaf := m.used.map (fun l => m.leaves.get l)

/-- An island without the first item of a leaf's window. -/
def Merge.taken (m : Merge) (l : Nat) : Merge := { m with leaves := m.leaves.modify l (fun x => { x with win := x.win.drop 1 }) }

/-- An island re-merges once its fibre has ended, its run table is full or a pass has begun (R206, R207). -/
theorem Merge.remerging_iff {m : Merge} : m.remerging = true ↔ m.remerge = true ∨ 4096 ≤ m.runs.length ∨ m.pass ≠ [] := by
  simp [Merge.remerging, or_assoc]

theorem Merge.remerging_eq_false {m : Merge} (h : m.remerge = false) (hr : m.runs.length < 4096) (hp : m.pass = []) :
    m.remerging = false := by
  simp [Merge.remerging, h, hr, hp]

/-- What goes to the output does not hold the tree: in STREAM mode the consumer has room, in ACCUM mode the entries go to the buffer
(R204, R205). -/
theorem outputOpen {s : State} {m : Merge} (h : m.accum = false → s.rootRoom m = true) : (!m.accum && !(s.rootRoom m)) = false := by
  cases ha : m.accum with
  | false => simp [h ha]
  | true => rfl

section Root
variable {s : State} {d q : Nat} (h : OpenMerge s d q) (he : (s.merge d q).streamEnd = false)
include h he

/-- The entries of an ended fibre leave one by one, as the consumer has room (R204, R205). -/
theorem execMergeRootEmit_drains {es : List (Nat × Nat)} (hd : (s.merge d q).drain = some es) :
    execMergeRootEmit d q s
      = .next (if s.rootRoom (s.merge d q) = true then (s.emitNext d q (s.merge d q) es).touch (s.merge d q).rk else s) := by
  obtain ⟨ho, hm⟩ := h
  simp [execMergeRootEmit, ho, hm, he, hd]

variable (hd : (s.merge d q).drain = none)
include hd

/-- In STREAM mode a tree whose consumer has no room waits (R204). -/
theorem execMergeRootEmit_waits (ha : (s.merge d q).accum = false) (hs : (s.merge d q).ends.any Leaf.atStop = false)
    (hr : s.rootRoom (s.merge d q) = false) : execMergeRootEmit d q s = .next s := by
  obtain ⟨ho, hm⟩ := h
  unfold Merge.ends at hs
  simp [execMergeRootEmit, ho, hm, he, hd, ha, hs, hr]

variable (hm : (s.merge d q).remerging = false)
include hm

/-- Run ends at the heads of leaves are passed first (R201). -/
theorem execMergeRootEmit_passesStops (hs : (s.merge d q).ends.any Leaf.atStop = true) :
    execMergeRootEmit d q s = .next ((s.setMerge d q { s.merge d q with
      leaves := (s.merge d q).used.foldl (fun t l => if (t.get l).atStop then t.modify l Leaf.passStop else t)
        (s.merge d q).leaves }).touch (s.merge d q).rk) := by
  obtain ⟨ho, hk⟩ := h
  unfold Merge.ends at hs
  simp only [execMergeRootEmit, ho, hk, he, hd, hm, hs, Bool.not_true, Bool.or_self, Bool.false_eq_true, if_false, if_true]

variable (hroom : (s.merge d q).accum = false → s.rootRoom (s.merge d q) = true) (hs : (s.merge d q).ends.any Leaf.atStop = false)
include hroom hs

/-- The first entry of the tree goes to the combine unit (R202, R203). -/
theorem execMergeRootEmit_combines {l k v : Nat} (hr : (s.merge d q).ends.all Leaf.rend = false)
    (hw : ∀ x ∈ (s.merge d q).ends, x.rend = true ∨ x.win ≠ []) (hb : (s.merge d q).best = some (l, k, v)) :
    execMergeRootEmit d q s = .next (s.mergeStep d q (s.merge d q) (s.combine d q ((s.merge d q).taken l) k v)
      ((s.merge d q).segBytes (s.merge d q).buf.length)) := by
  obtain ⟨ho, hk⟩ := h
  have hwait : (s.merge d q).ends.any (fun x => !x.rend && x.win.isEmpty) = false := by
    refine List.any_eq_false.mpr (fun x hx => ?_)
    obtain hrend | hwin := hw x hx
    · simp [hrend]
    · simp [hwin]
  unfold Merge.ends at hs hr hwait
  simp only [execMergeRootEmit, ho, hk, he, hd, hm, hs, outputOpen hroom, hr, hwait, hb, Merge.taken, Bool.not_true, Bool.or_self,
    Bool.false_eq_true, if_false]

variable (hr : (s.merge d q).ends.all Leaf.rend = true)
include hr

/-- With no key held, the end of every leaf's run ends the round (R201, R206). -/
theorem execMergeRootEmit_endsRound (hh : (s.merge d q).hold = none) :
    execMergeRootEmit d q s = .next (s.mergeStep d q (s.merge d q) (s.endRound d q (s.merge d q))
      ((s.merge d q).segBytes (s.merge d q).buf.length)) := by
  obtain ⟨ho, hk⟩ := h
  unfold Merge.ends at hs hr
  simp only [execMergeRootEmit, ho, hk, he, hd, hm, hs, outputOpen hroom, hr, State.flush_none hh, hh, Option.isSome_none, Bool.not_true,
    Bool.or_self, Bool.false_eq_true, if_false, if_true]

/-- In STREAM mode the key held at the end of a round is emitted before the round ends (R205). -/
theorem execMergeRootEmit_emitsHeld {k v : Nat} (hh : (s.merge d q).hold = some (k, v)) (ha : (s.merge d q).accum = false) :
    execMergeRootEmit d q s = .next (((s.addFlags (s.merge d q).e ((s.merge d q).emit k v).2).setMerge d q
      { ((s.merge d q).emit k v).1 with hold := none }).touch (s.merge d q).rk) := by
  obtain ⟨ho, hk⟩ := h
  unfold Merge.ends at hs hr
  simp only [execMergeRootEmit, ho, hk, he, hd, hm, hs, hroom ha, hr, State.flush_stream hh ha, hh, Option.isSome_some, Bool.not_true,
    Bool.and_false, Bool.or_self, Bool.false_eq_true, if_false, if_true]

end Root

/-! MERGE_REMERGE_PASS. -/

theorem execMergeRemergePass_steps {s : State} {d q : Nat} (h : OpenMerge s d q) (hd : (s.merge d q).drain = none)
    (hm : (s.merge d q).remerging = true) :
    execMergeRemergePass d q s
      = .next (s.mergeStep d q (s.merge d q) (s.mergePass d q (s.merge d q)) (s.passBytes (s.merge d q))) := by
  obtain ⟨ho, hk⟩ := h
  simp [execMergeRemergePass, ho, hk, hd, hm]

/-! MERGE_OUTPUT_SEND. -/

/-- An island's packet as it leaves for its consumer, with the writes that its session's releases cover (R158, R204). -/
def State.mergeFlit (s : State) (q : Nat) (m : Merge) (p : Packet) (dst : Dest) : Flit :=
  { pkt := tagged m.oroute { p with cov := s.live m.cov }, src := some (m.e, 9 + q), slot := m.slot, rk := m.rk, frm := m.frm, dst := dst }

theorem execMergeOutputSend_sends {s : State} {d q : Nat} {p : Packet} {rest : List Packet} {dst : Dest}
    (hq : (s.merge d q).out = p :: rest) (hm : s.moving (s.merge d q).rk = true)
    (hd : s.destOf (s.merge d q).e (s.merge d q).oroute = some dst) (hs : s.sendStop (s.merge d q).e dst = none)
    (hc : s.consumerFree dst p = true) :
    execMergeOutputSend d q s
      = .next (((({ s with net := s.net ++ [s.mergeFlit q (s.merge d q) p dst] } : State).modMerge d q (fun x => { x with
          out := rest, sentEnd := x.sentEnd || (p.kind == 2 && p.eof == 3) })).closeMerge d q).touch (s.merge d q).rk) := by
  simp [execMergeOutputSend, hq, hm, hd, hs, hc, State.mergeFlit]

end Sys2Proof.Machine
end

section
/-! SUPPORT. Exchange queues and nodes: one equation for each thing that a message, a diversion and the sending of a node can do. -/

namespace Sys2Proof.Machine

open Sys2Proof.Claims

/-! XQ_MESSAGE and XQ_DIVERT. -/

/-- A message of a job enters its queue, which is refilled from it where its turn has come (R212, R213). -/
theorem execXqMessage_enters {s : State} {i : Nat} {j : Job} {h : Shape} {x : XQueue} (hj : s.jobAt i = some j) (hx : j.xq ≠ 0)
    (hq : j.queued = false) (hd : j.done = false) (hm : s.moving j.region = true) (hs : (s.descs.get (j.xq - 1)).shape = some h)
    (hr : (s.descs.get (j.xq - 1)).xq = some x) (hl : 4 * j.msg.length ≤ h.sub)
    (hk : s.marked (s.descBase (j.xq - 1) h + (s.descs.get (j.xq - 1)).ring.prod * h.sub) (4 * j.msg.length) = false) :
    execXqMessage i s = .next (((((s.setJob { j with queued := true }).modXq (j.xq - 1) (fun y => { y with
      waiting := y.waiting ++ [(j.msg, j.id)] })).refillAll (j.xq - 1) h (x.records.length + x.waiting.length + 1)).closeQueues
        x.rk x.frm).touch j.region) := by
  simp [execXqMessage, hj, hx, hq, hd, hm, hs, hr, hk, Nat.not_lt.mpr hl]

section Divert
variable {s : State} (d : Nat) {i id : Nat} {h : Shape} {x : XQueue} {ls : List Lane} {rest : List (List Lane × Nat)}
  (hs : (s.descs.get i).shape = some h) (hx : (s.descs.get i).xq = some x) (hm : s.moving x.rk = true)
  (hr : (s.descs.get i).ring.atProd.st ≠ .empty) (hw : x.waiting = (ls, id) :: rest)
include hs hx hm hr hw

/-- The oldest waiting message goes to the grounds ring, and its sender's job may complete (R212). -/
theorem execXqDivert_diverts {off : Nat} (hy : (s.ringAppend x.pid 1 (messageHead i (4 * ls.length)) ls).2 = .ok off) :
    execXqDivert d i s
      = .next (((((s.ringAppend x.pid 1 (messageHead i (4 * ls.length)) ls).1.modXq i (fun z => { z with
          waiting := rest, records := z.records ++ [(off, 4 * ls.length)], total := min (2 ^ 32 - 1) (z.total + 1) })).jobSent id)).touch
            x.rk) := by
  simp [execXqDivert, hs, hx, hm, hr, hw, hy]

/-- A ring that does not take the message faults the queue (R211). -/
theorem execXqDivert_faults {c : FCode} (hy : (s.ringAppend x.pid 1 (messageHead i (4 * ls.length)) ls).2 = .error c) :
    execXqDivert d i s
      = .next ((s.ringAppend x.pid 1 (messageHead i (4 * ls.length)) ls).1.raiseQueue c x (recordLen ls.length)) := by
  simp [execXqDivert, hs, hx, hm, hr, hw, hy]

end Divert

/-! NODE_ROUTE_SEND. -/

section Node
variable {s : State} {e : Nat} (hk : (s.node e).k ≠ []) (hm : s.moving (s.node e).rk = true)
include hk hm

/-- A node sends its next packet (R184, R191). -/
theorem execNodeRouteSend_sends {p : Packet} {w : Lane} {rest : List (Packet × Lane)} (hs : (s.node e).sends = (p, w) :: rest) :
    execNodeRouteSend e s = .next ((s.nodeSend e p w rest).touch (s.node e).rk) := by
  simp [execNodeRouteSend, hk, hm, hs]

variable (hs : (s.node e).sends = [])
include hs

/-- A drain whose packets have left is answered (R190, R363). -/
theorem execNodeRouteSend_answers {ret : Ret} {k : Nat} (hr : (s.node e).result = some (ret, k)) :
    execNodeRouteSend e s = .next ((s.endDrain e ret k).touch (s.node e).rk) := by
  simp [execNodeRouteSend, hk, hm, hs, hr]

/-- A drain at the head of the queue begins (R190). -/
theorem execNodeRouteSend_begins {route mc nc base fmt rnd : Nat} {zero : Bool} {ret : Ret} {rest : List NodeCmd}
    (hr : (s.node e).result = none) (hc : (s.node e).cmds = .drain route mc nc base fmt rnd zero ret :: rest) :
    execNodeRouteSend e s = .next ((s.startDrain e (s.node e) route mc nc base fmt rnd zero ret).touch (s.node e).rk) := by
  simp [execNodeRouteSend, hk, hm, hs, hr, hc]

end Node

/-- Settles O46: each event of a merge island, an exchange queue and a node has an equation for each thing that it can do. -/
theorem mergeAndQueueEventsComplete : Obligations.MergeAndQueueEventsComplete := by
  unfold Obligations.MergeAndQueueEventsComplete
  intro s i d q e m ends n
  refine ⟨fun f l hf hd hm h hpid hp => ⟨execMergeLeafPacket_enters hf hd hm hp h hpid, fun c => execMergeLeafPacket_faults hf hd hm hp h hpid⟩,
    fun f l hf hd hm hno hp => execMergeLeafPacket_noSession hf hd hm hp hno,
    fun es h he hd => execMergeRootEmit_drains h he hd,
    fun h he hd ha hs hr => execMergeRootEmit_waits h he hd ha hs hr,
    fun h he hd hf hl hp hroom => ?root,
    fun h hd hr => execMergeRemergePass_steps h hd (Merge.remerging_iff.mpr hr),
    fun r h hd hr hg => ?pass,
    fun p rest dst hq hm hd hs hc => execMergeOutputSend_sends hq hm hd hs hc,
    fun j h x hj hx hq hd hm hs hr hl hk => execXqMessage_enters hj hx hq hd hm hs hr hl hk,
    fun h x ls id rest off hs hx hm hr hw => ⟨execXqDivert_diverts d hs hx hm hr hw, fun c => execXqDivert_faults d hs hx hm hr hw⟩,
    fun hk hm => ⟨fun p w rest => execNodeRouteSend_sends hk hm, fun ret k hs => execNodeRouteSend_answers hk hm hs,
      fun route mc nc base fmt rnd zero ret rest hs hr => execNodeRouteSend_begins hk hm hs hr⟩⟩
  case root =>
    have hrem := Merge.remerging_eq_false hf hl hp
    refine ⟨execMergeRootEmit_passesStops h he hd hrem, fun l k v r hs hr hw hb => ?entry,
      fun hs hr => execMergeRootEmit_endsRound h he hd hrem hroom hs hr,
      fun k v hs hr => execMergeRootEmit_emitsHeld h he hd hrem hroom hs hr⟩
    have hstep := execMergeRootEmit_combines h he hd hrem hroom hs hr hw hb
    exact ⟨hstep, fun hg => hstep.trans (congrArg _ (State.mergeStep_goes hg)),
      fun hh => hstep.trans (congrArg _ (State.mergeStep_of_eq (State.combine_holds (m := m.taken l) hh))),
      fun u hh hc => hstep.trans (congrArg _ (State.mergeStep_of_eq (State.combine_folds (m := m.taken l) hh hc)))⟩
  case pass =>
    exact (execMergeRemergePass_steps h hd (Merge.remerging_iff.mpr hr)).trans (congrArg _ (State.mergeStep_goes hg))

end Sys2Proof.Machine
end

section
/-! SUPPORT. Sequencer words and control tokens: a word of fields side by side reads back field by field, so encode and decode agree. -/

namespace Sys2Proof.Machine

open Sys2Proof.Claims

/-! Sequencer words (R299). -/

/-- A run of bits whose number is zero is the zero bit string. -/
theorem bits_beq_zero (w : Dword) (lo n : Nat) : (w.toNat / 2 ^ lo % 2 ^ n == 0) = (w.extractLsb' lo n == 0#n) := by
  rw [Bool.eq_iff_iff, beq_iff_eq, beq_iff_eq, ← BitVec.toNat_inj, BitVec.extractLsb'_toNat, Nat.shiftRight_eq_div_pow,
    BitVec.toNat_ofNat, Nat.zero_mod]

/-- A word takes as many doublewords as the instruction that it decodes to is encoded in. -/
theorem seqLength_of_decodeSeq {w v : Dword} {i : Instr} (h : decodeSeq w v = .ok i) : seqLength w = (encode i).length := by
  unfold decodeSeq at h
  unfold seqLength
  split at h
  case h_10 => cases h
  all_goals
    rename_i hc
    dsimp only at h
    split at h
    · cases h
      simp only [hc]
      rfl
    · cases h

theorem wordAgrees_of_decodeSeq {w : Dword} {i : Instr} (he : encode i = [w]) (hd : ∀ v, decodeSeq w v = .ok i) : WordAgrees i :=
  fun v => ⟨w, he, by simpa [he] using seqLength_of_decodeSeq (hd v), hd v⟩

theorem wordsAgree_of_decodeSeq {w v : Dword} {i : Instr} (he : encode i = [w, v]) (hd : decodeSeq w v = .ok i) : WordsAgree i :=
  ⟨w, v, he, by simpa [he] using seqLength_of_decodeSeq hd, hd⟩

section SequencerWords
variable (v : Dword)

theorem decodeSeq_sqarm (off : BitVec 32) : decodeSeq (0xC0#8 ++ 0#24 ++ off) v = .ok (.sqarm off) := by
  simp (disch := omega) only [decodeSeq, bits_beq_zero, BitVec.extractLsb'_append_eq_of_add_le, BitVec.extractLsb'_append_eq_of_le]
  simp

theorem decodeSeq_sqbr (off : BitVec 32) : decodeSeq (0xC1#8 ++ 0#24 ++ off) v = .ok (.sqbr off) := by
  simp (disch := omega) only [decodeSeq, bits_beq_zero, BitVec.extractLsb'_append_eq_of_add_le, BitVec.extractLsb'_append_eq_of_le]
  simp

theorem decodeSeq_sqloop (lc : BitVec 2) (n : BitVec 24) (off : BitVec 30) (hn : n ≠ 0) (ho : off.toInt < 0) :
    decodeSeq (0xC2#8 ++ lc ++ n ++ off) v = .ok (.sqloop lc n off) := by
  simp (disch := omega) only [decodeSeq, bits_beq_zero, BitVec.extractLsb'_append_eq_of_add_le, BitVec.extractLsb'_append_eq_of_le]
  simpa [BitVec.msb_eq_toInt, ho] using hn

theorem decodeSeq_sqwait (g : BitVec 16) : decodeSeq (0xC3#8 ++ 0#40 ++ g) v = .ok (.sqwait g v) := by
  simp (disch := omega) only [decodeSeq, bits_beq_zero, BitVec.extractLsb'_append_eq_of_add_le, BitVec.extractLsb'_append_eq_of_le]
  simp

theorem decodeSeq_sqlaunch (ex ey b : BitVec 3) (g : BitVec 2) (hb : b.toNat ≤ 5) :
    decodeSeq (0xC4#8 ++ ex ++ ey ++ b ++ g ++ 0#45) v = .ok (.sqlaunch ex ey b g v) := by
  simp (disch := omega) only [decodeSeq, bits_beq_zero, BitVec.extractLsb'_append_eq_of_add_le, BitVec.extractLsb'_append_eq_of_le]
  simp [Nat.lt_succ_of_le hb]

theorem decodeSeq_sqjoin (g : BitVec 2) : decodeSeq (0xC5#8 ++ 0#54 ++ g) v = .ok (.sqjoin g) := by
  simp (disch := omega) only [decodeSeq, bits_beq_zero, BitVec.extractLsb'_append_eq_of_add_le, BitVec.extractLsb'_append_eq_of_le]
  simp

theorem decodeSeq_sqend : decodeSeq (0xC6#8 ++ 0#56) v = .ok .sqend := rfl

theorem decodeSeq_sqmark (m : BitVec 16) : decodeSeq (0xC7#8 ++ 0#40 ++ m) v = .ok (.sqmark m) := by
  simp (disch := omega) only [decodeSeq, bits_beq_zero, BitVec.extractLsb'_append_eq_of_add_le, BitVec.extractLsb'_append_eq_of_le]
  simp

theorem decodeSeq_sqfence : decodeSeq (0xC8#8 ++ 0#56) v = .ok .sqfence := rfl

end SequencerWords

/-! Control tokens (R185, R187). -/

theorem tokFields_tokBits (opc : BitVec 6) (t : MTok) : tokFields (tokBits opc t) = t := by
  simp (disch := omega) only [tokFields, tokBits, BitVec.extractLsb'_append_eq_of_add_le, BitVec.extractLsb'_append_eq_of_le,
    BitVec.getLsbD_append, Nat.reduceSub, Nat.reduceLT, reduceIte, BitVec.extractLsb'_eq_self, BitVec.getLsbD_ofBool,
    decide_true, Bool.true_and]

theorem opcode_tokBits (opc : BitVec 6) (t : MTok) : (tokBits opc t).extractLsb' 58 6 = opc := by
  simp (disch := omega) only [tokBits, BitVec.extractLsb'_append_eq_of_le, Nat.reduceSub, BitVec.extractLsb'_eq_self]

theorem reserved_tokBits (opc : BitVec 6) (t : MTok) : (tokBits opc t).extractLsb' 0 15 = 0#15 := by
  simp (disch := omega) only [tokBits, BitVec.extractLsb'_append_eq_of_add_le, BitVec.extractLsb'_eq_self]

theorem tokensAgree (t : MTok) :
    TokenAgrees (.mma t) ∧ TokenAgrees (.mmas t) ∧ TokenAgrees (.mmsc t) ∧ TokenAgrees (.mmi t) ∧ TokenAgrees (.mzero t)
      ∧ TokenAgrees (.mldm t) := by
  refine ⟨⟨_, rfl, ?_⟩, ⟨_, rfl, ?_⟩, ⟨_, rfl, ?_⟩, ⟨_, rfl, ?_⟩, ⟨_, rfl, ?_⟩, ⟨_, rfl, ?_⟩⟩ <;>
    simp [decodeTok, tokFields_tokBits, opcode_tokBits, reserved_tokBits]

/-- Settles O54: the decoder computes on each of the words written out. -/
theorem decodedWords : Obligations.DecodedWords := by
  unfold Obligations.DecodedWords
  exact ⟨rfl, rfl, rfl, rfl, rfl, rfl, rfl, rfl, rfl, rfl, rfl, rfl, rfl, rfl, rfl, rfl⟩

end Sys2Proof.Machine
end

section
/-! SUPPORT. Fields of a message: a number laid out as bytes reads back at its offset, whatever stands before and after it. -/

namespace Sys2Proof.Machine

@[simp] theorem length_valBytes (n v : Nat) : (valBytes n v).length = n := by
  induction n generalizing v with
  | zero => rfl
  | succ n ih => simp [valBytes, ih]

theorem bytesVal_valBytes {n v : Nat} (h : v < 256 ^ n) : bytesVal (valBytes n v) = v := by
  induction n generalizing v with
  | zero => simp only [valBytes, bytesVal]; omega
  | succ n ih =>
    have hv : v / 256 < 256 ^ n := Nat.div_lt_of_lt_mul (by rwa [Nat.pow_succ, Nat.mul_comm] at h)
    simp only [valBytes, bytesVal, ih hv, BitVec.toNat_ofNat]
    omega

theorem bytesVal_valBytes_toNat {n w : Nat} (x : BitVec w) (h : w ≤ 8 * n) : bytesVal (valBytes n x.toNat) = x.toNat :=
  bytesVal_valBytes (Nat.lt_of_lt_of_le x.isLt (by simpa [Nat.pow_mul] using Nat.pow_le_pow_right (n := 2) (by decide) h))

/-! A field at the head of a message. -/

section
variable {n : Nat} (rest : List Byte)

theorem bytesAt_valBytes {v : Nat} (h : v < 256 ^ n) : bytesAt (valBytes n v ++ rest) 0 n = v := by
  rw [bytesAt, List.drop_zero, List.take_left' (length_valBytes n v), bytesVal_valBytes h]

theorem bytesAt_toNat {w : Nat} {x : BitVec w} (h : w ≤ 8 * n) : bytesAt (valBytes n x.toNat ++ rest) 0 n = x.toNat := by
  rw [bytesAt, List.drop_zero, List.take_left' (length_valBytes n _), bytesVal_valBytes_toNat x h]

theorem bytesZero_valBytes : bytesZero (valBytes n 0 ++ rest) 0 n = true := by
  induction n with
  | zero => simp [bytesZero]
  | succ n ih => simpa [bytesZero, valBytes] using ih

/-! The same of the last field, behind which nothing stands. -/

theorem bytesAt_toNat_self {w : Nat} {x : BitVec w} (h : w ≤ 8 * n) : bytesAt (valBytes n x.toNat) 0 n = x.toNat := by
  simpa using bytesAt_toNat [] h

theorem bytesZero_valBytes_self : bytesZero (valBytes n 0) 0 n = true := by
  simpa using bytesZero_valBytes (n := n) []

end

/-! A field behind the head of a message. -/

section
variable {k off : Nat} (v : Nat) (rest : List Byte) (n : Nat) (h : k ≤ off)
include h

theorem drop_valBytes_append : (valBytes k v ++ rest).drop off = rest.drop (off - k) := by
  rw [List.drop_append, length_valBytes, List.drop_eq_nil_of_le (by simpa using h), List.nil_append]

theorem bytesAt_valBytes_append : bytesAt (valBytes k v ++ rest) off n = bytesAt rest (off - k) n := by
  rw [bytesAt, bytesAt, drop_valBytes_append v rest h]

theorem bytesZero_valBytes_append : bytesZero (valBytes k v ++ rest) off n = bytesZero rest (off - k) n := by
  rw [bytesZero, bytesZero, drop_valBytes_append v rest h]

end

/-! Lists of doublewords and of addresses. -/

theorem length_flatMap_valBytes {α : Type} (n : Nat) (f : α → Nat) (xs : List α) :
    (xs.flatMap (fun x => valBytes n (f x))).length = n * xs.length := by
  induction xs with
  | nil => rfl
  | cons x xs ih => rw [List.flatMap_cons, List.length_append, length_valBytes, ih, List.length_cons, Nat.mul_succ, Nat.add_comm]

theorem bytesDwords_flatMap (ds : List Dword) : bytesDwords ds.length (ds.flatMap (fun d => valBytes 8 d.toNat)) = ds := by
  induction ds with
  | nil => rfl
  | cons d ds ih => simp [bytesDwords, bytesVal_valBytes_toNat, ih]

theorem bytesAddrs_flatMap (as : List (BitVec 128)) : bytesAddrs as.length (as.flatMap (fun a => valBytes 16 a.toNat)) = as := by
  induction as with
  | nil => rfl
  | cons a as ih => simp [bytesAddrs, bytesVal_valBytes_toNat, ih]

end Sys2Proof.Machine
end

section
/-! SUPPORT. TRLS packets: the header that the encoder lays out is the header that the decoder reads (R264). -/

namespace Sys2Proof.Machine

/-- The TRLS instruction of an OP with a header (R264). -/
def trlsOfOp (op : Nat) (h : TrlsHdr) : Instr :=
  match op with
  | 0 => .trlsLoad h
  | 1 => .trlsStore h
  | 2 => .trlsAtomic h
  | 3 => .trlsSyncadd h
  | 4 => .trlsData h
  | 5 => .trlsAck h
  | 6 => .trlsNak h
  | 7 => .trlsKeyswitch h
  | c => .trlsUndefinedOp (BitVec.ofNat 4 c) h

theorem length_trlsBytes (op : Nat) (h : TrlsHdr) : (trlsBytes op h).length = 32 + h.payload.length := by
  simp [trlsBytes]
  omega

theorem bytesAt_trlsBytes_op {op : Nat} (h : TrlsHdr) (ho : op < 16) : bytesAt (trlsBytes op h) 0 1 = 16 + op := by
  simp only [trlsBytes, List.append_assoc]
  exact bytesAt_valBytes _ (by omega)

theorem bytesAt_trlsBytes_class (op : Nat) (h : TrlsHdr) : bytesAt (trlsBytes op h) 1 1 = h.tclass.toNat * 64 := by
  simp only [trlsBytes, List.append_assoc]
  exact (bytesAt_valBytes_append _ _ _ (Nat.le_refl 1)).trans (bytesAt_valBytes _ (by omega))

theorem trlsFields_trlsBytes (op : Nat) (h : TrlsHdr) : trlsFields (trlsBytes op h) = h := by
  simp only [trlsFields, bytesAt_trlsBytes_class]
  simp [trlsBytes, bytesAt_valBytes_append, bytesAt_toNat, drop_valBytes_append]

theorem bytesAt_trlsBytes_length {op : Nat} {h : TrlsHdr} (hp : h.payload.length ≤ 4096) :
    bytesAt (trlsBytes op h) 6 2 = h.payload.length := by
  simp (disch := omega) [trlsBytes, bytesAt_valBytes_append, bytesAt_valBytes]

theorem bytesZero_trlsBytes (op : Nat) (h : TrlsHdr) : bytesZero (trlsBytes op h) 20 4 = true := by
  simp [trlsBytes, bytesZero_valBytes_append, bytesZero_valBytes]

/-- The OP of a packet of the encoder alone decides what it decodes to: its length, version and reserved bytes are right. -/
theorem decodeTrls_trlsBytes {op : Nat} {h : TrlsHdr} (ho : op < 16) (hp : trlsOk h = true) :
    decodeTrls (trlsBytes op h) = .ok (trlsOfOp op h) := by
  have hp : h.payload.length ≤ 4096 := of_decide_eq_true hp
  have hop : (16 + op) / 16 = 1 ∧ (16 + op) % 16 = op := by omega
  simp only [decodeTrls, trlsFields_trlsBytes, length_trlsBytes, bytesAt_trlsBytes_op h ho, bytesAt_trlsBytes_class,
    bytesAt_trlsBytes_length hp, bytesZero_trlsBytes, hop, Nat.mul_mod_left, Nat.add_comm 32]
  rw [if_pos (by simp [hp])]
  unfold trlsOfOp
  split
  case h_9 => simp only [*]
  all_goals rfl

theorem trlsOfOp_undefined {c : BitVec 4} (hc : 8 ≤ c.toNat) (h : TrlsHdr) : trlsOfOp c.toNat h = .trlsUndefinedOp c h := by
  unfold trlsOfOp
  split
  case h_9 => simp
  all_goals omega

theorem decodeTrls_encodeTrls {i : Instr} (hw : i.wellFormed = true) (hne : encodeTrls i ≠ []) : decodeTrls (encodeTrls i) = .ok i := by
  revert hne
  fun_cases encodeTrls i <;> intro hne
  case case9 c h =>
    obtain ⟨hc, hp⟩ := (Bool.and_eq_true _ _).mp hw
    have hc : 8 ≤ c.toNat := of_decide_eq_true hc
    rw [decodeTrls_trlsBytes c.isLt hp, trlsOfOp_undefined hc]
  case case10 => exact absurd rfl hne
  all_goals exact decodeTrls_trlsBytes (by decide) hw

end Sys2Proof.Machine
end

section
/-! SUPPORT. Management commands: a message of the encoder passes the header's checks, and the body that each command lays out is the
body that the decoder reads (R268). -/

namespace Sys2Proof.Machine

open Sys2Proof.Claims

theorem decodeMgmt_mgmtMsg {op : Nat} {tag : BitVec 32} {body : List Byte} {i : Instr} (ho : op < 256) (hb : body.length ≤ 4080)
    (hd : decodeMgmtBody op tag body = some i) : decodeMgmt (mgmtMsg op 0 tag body) = i := by
  have hop : bytesAt (mgmtMsg op 0 tag body) 0 1 = op := by
    simp [mgmtMsg, bytesAt_valBytes _ (show op < 256 ^ 1 from ho)]
  have hlen : bytesAt (mgmtMsg op 0 tag body) 2 2 = body.length := by
    simp (disch := omega) [mgmtMsg, bytesAt_valBytes_append, bytesAt_valBytes]
  have htag : bytesAt (mgmtMsg op 0 tag body) 4 4 = tag.toNat := by
    simp [mgmtMsg, bytesAt_valBytes_append, bytesAt_toNat]
  have hstatus : bytesZero (mgmtMsg op 0 tag body) 1 1 = true := by
    simp [mgmtMsg, bytesZero_valBytes_append, bytesZero_valBytes]
  have hreserved : bytesZero (mgmtMsg op 0 tag body) 8 8 = true := by
    simp [mgmtMsg, bytesZero_valBytes_append, bytesZero_valBytes]
  have hbody : (mgmtMsg op 0 tag body).drop 16 = body := by
    simp [mgmtMsg, drop_valBytes_append]
  have hall : (mgmtMsg op 0 tag body).length = 16 + body.length := by simp [mgmtMsg]; omega
  simp only [decodeMgmt, hop, hlen, htag, hstatus, hreserved, hbody, hall, BitVec.ofNat_toNat, BitVec.setWidth_eq, hd]
  exact if_pos (by simp; omega)

theorem encodeMgmt_of_command {i : Instr} (hne : (encodeMgmtBody i).1 ≠ 0) :
    encodeMgmt i = mgmtMsg (encodeMgmtBody i).1 0 (encodeMgmtBody i).2.1 (encodeMgmtBody i).2.2 := by
  unfold encodeMgmt
  split
  · exact absurd rfl hne
  · rfl

theorem encodeMgmtBody_op_lt (i : Instr) : (encodeMgmtBody i).1 < 256 := by
  fun_cases encodeMgmtBody i <;> simp

/-- The longest body is STW_LAUNCH's, 136 bytes. -/
theorem encodeMgmtBody_length_le {i : Instr} (hw : i.wellFormed = true) : (encodeMgmtBody i).2.2.length ≤ 4080 := by
  fun_cases encodeMgmtBody i
  case case1 tag vdn hdr =>
    have hlen : hdr.length = 16 := beq_iff_eq.mp hw
    simp [-List.length_flatMap, length_flatMap_valBytes, hlen]
  case case3 tag p as =>
    have hlen : as.length ≤ 4 := of_decide_eq_true hw
    simp [-List.length_flatMap, length_flatMap_valBytes]
    omega
  all_goals simp

theorem decodeMgmtBody_encodeMgmtBody {i : Instr} (hw : i.wellFormed = true) (hne : (encodeMgmtBody i).1 ≠ 0) :
    decodeMgmtBody (encodeMgmtBody i).1 (encodeMgmtBody i).2.1 (encodeMgmtBody i).2.2 = some i := by
  revert hne
  fun_cases encodeMgmtBody i <;> intro hne
  case case1 tag vdn hdr =>
    have hlen : hdr.length = 16 := beq_iff_eq.mp hw
    have hhdr := bytesDwords_flatMap hdr
    rw [hlen] at hhdr
    simp [decodeMgmtBody, bytesAt_toNat, bytesZero_valBytes_append, bytesZero_valBytes, drop_valBytes_append,
      -List.length_flatMap, length_flatMap_valBytes, hlen, hhdr]
  case case3 tag p as =>
    have hlen : as.length ≤ 4 := of_decide_eq_true hw
    simp (disch := omega) [decodeMgmtBody, bytesAt_valBytes_append, bytesAt_valBytes, bytesZero_valBytes_append,
      bytesZero_valBytes, drop_valBytes_append, -List.length_flatMap, length_flatMap_valBytes, bytesAddrs_flatMap]
    omega
  case case7 tag vf pid r w va len =>
    have hrights : r.toNat + 2 * w.toNat < 4 := by cases r <;> cases w <;> decide
    simp (disch := omega) [decodeMgmtBody, bytesAt_valBytes_append, bytesAt_valBytes, bytesAt_toNat_self, bytesZero_valBytes_append,
      bytesZero_valBytes, hrights]
    cases r <;> cases w <;> decide
  case case12 => exact absurd rfl hne
  all_goals simp [decodeMgmtBody, bytesAt_valBytes_append, bytesAt_toNat, bytesAt_toNat_self, bytesZero_valBytes_append,
    bytesZero_valBytes, bytesZero_valBytes_self]

theorem decodeMgmt_encodeMgmt {i : Instr} (hw : i.wellFormed = true) (hne : (encodeMgmtBody i).1 ≠ 0) : decodeMgmt (encodeMgmt i) = i := by
  rw [encodeMgmt_of_command hne]
  exact decodeMgmt_mgmtMsg (encodeMgmtBody_op_lt i) (encodeMgmtBody_length_le hw) (decodeMgmtBody_encodeMgmtBody hw hne)

/-- Settles O56: each word, token, command and packet of the encoder reads back field by field. -/
theorem streamWordsAndMessagesRoundTrip : Obligations.StreamWordsAndMessagesRoundTrip := by
  unfold Obligations.StreamWordsAndMessagesRoundTrip
  refine ⟨fun off g m j va => ⟨?_, ?_, ?_, ?_, ?_, ?_, ?_⟩, fun lc n off hn ho => ?_, fun ex ey b g va hb => ?_, tokensAgree,
    fun i => decodeMgmt_encodeMgmt, fun i => decodeTrls_encodeTrls⟩
  · exact wordAgrees_of_decodeSeq rfl (decodeSeq_sqarm · off)
  · exact wordAgrees_of_decodeSeq rfl (decodeSeq_sqbr · off)
  · exact wordAgrees_of_decodeSeq rfl (decodeSeq_sqjoin · j)
  · exact wordAgrees_of_decodeSeq rfl decodeSeq_sqend
  · exact wordAgrees_of_decodeSeq rfl (decodeSeq_sqmark · m)
  · exact wordAgrees_of_decodeSeq rfl decodeSeq_sqfence
  · exact wordsAgree_of_decodeSeq rfl (decodeSeq_sqwait va g)
  · exact wordAgrees_of_decodeSeq rfl (decodeSeq_sqloop · lc n off hn ho)
  · exact wordsAgree_of_decodeSeq rfl (decodeSeq_sqlaunch va ex ey b g hb)

end Sys2Proof.Machine
end

section
/-! SUPPORT. Which regions move in the panel that reset leaves. -/

namespace Sys2Proof.Machine

/-- After reset no region belongs to a partition, so what moves is a steward region, or stands for what belongs to no region (R236). -/
theorem State.reset_moving (r : Nat) : State.reset.moving r = (isStw r || r == farRegion) := rfl

/-- Refutes O60: its clause on the moving regions speaks of every region key, and `farRegion`, the key of what belongs to no region,
moves after reset as a steward region does and is none. -/
theorem not_resetLeavesThePanelDark : ¬ Obligations.ResetLeavesThePanelDark := by
  unfold Obligations.ResetLeavesThePanelDark
  rintro ⟨-, -, -, -, -, hregions, -⟩
  have hfar : State.reset.moving farRegion = isStw farRegion := (hregions farRegion).2
  rw [State.reset_moving] at hfar
  exact absurd hfar (by decide)

end Sys2Proof.Machine
end

section
/-! SUPPORT. A steward instruction at its firing: its operand passes its checks, and its effect, with its answer on the way, follows the
trigger effects (R370). -/

namespace Sys2Proof.Machine

open Sys2Proof.Claims

/-! Operands that pass their checks. -/

theorem ownLenOk_of_n32 {p : Packet} (h : hasTy .n32 p = true) : ownLenOk p = true := by
  simp only [hasTy, Bool.and_eq_true, beq_iff_eq] at h
  obtain ⟨hfmt, -⟩ := h
  simp [ownLenOk, hfmt, tyFmt]

theorem ownLenOk_of_n64_pair {p : Packet} (h : hasTy .n64 p = true) (hl : p.lanes.length = 2) : ownLenOk p = true := by
  simp only [hasTy, Bool.and_eq_true, beq_iff_eq] at h
  obtain ⟨hfmt, -⟩ := h
  simp [ownLenOk, hfmt, tyFmt, hl]

theorem control_ok {m : Nat} {x : Operand} (h : Control .n32 m x) : control m x = .ok (controlNumber .n32 x) := by
  obtain ⟨hlen, hty, hsc, hmask⟩ := h
  have hbits : (controlNumber .n32 x &&& m != controlNumber .n32 x) = false := by simp [hmask]
  unfold controlNumber at hbits ⊢
  simp only [control, controlAs, hlen, hty, hsc, hbits]
  rfl

theorem fixedPk_ok {n : Nat} {x : Operand} (h : Exact n .n32 x) : fixedPk n .n32 x = .ok (lanesOf x) := by
  obtain ⟨hlen, hty, hsc⟩ := h
  simp [fixedPk, hlen, hty, hsc, ownLenOk_of_n32 hty, lanesOf]

/-- Sources of the lengths and formats asked for, unscaled, pass the checks of R87. -/
theorem pkChecks_ok {xs : List PkCheck} (h : ∀ x ∈ xs, x.pk.lanes.length = x.len ∧ (x.own = true → ownLenOk x.pk = true)
    ∧ x.fmtOk = true ∧ x.pk.sc = false) : pkChecks xs = .ok () := by
  have hlen : xs.any (fun x => x.pk.lanes.length != x.len || (x.own && !ownLenOk x.pk)) = false :=
    List.any_eq_false.mpr (fun x hx => by simp +contextual [h x hx])
  have hfmt : xs.any (fun x => !x.fmtOk) = false := List.any_eq_false.mpr (fun x hx => by simp [h x hx])
  have hsc : xs.any (fun x => x.scale && x.pk.sc) = false := List.any_eq_false.mpr (fun x hx => by simp [h x hx])
  simp [pkChecks, hlen, hfmt, hsc]

theorem vfenMask_ok {x : Operand} (h : Exact 2 .n32 x) : vfenMask x = .ok (lanesNat (lanesOf x)) := by
  rw [vfenMask, fixedPk_ok h]
  rfl

theorem tlbiLanes_ok {m0 m1 m2 : Nat} {x : Operand} (h : TlbiOperand m0 m1 m2 x) :
    tlbiLanes m0 m1 m2 x = .ok (laneNo x 0, laneNo x 1, laneNo x 2) := by
  obtain ⟨hx, h0, h1, h2⟩ := h
  have hnot : (laneNo x 0 &&& m0 != laneNo x 0 || laneNo x 1 &&& m1 != laneNo x 1 || laneNo x 2 &&& m2 != laneNo x 2) = false := by
    simp [h0, h1, h2]
  rw [tlbiLanes, fixedPk_ok hx]
  exact if_neg (Bool.eq_false_iff.mp hnot)

theorem State.pgfwArgs_ok {s : State} {start : Bool} {x : Operand} (h : ForwardingOperand s start x) :
    s.pgfwArgs start x = .ok (laneNo x 0 / 2 ^ 31, laneNo x 0 / 2 ^ 24 % 128, laneNo x 0 % 2 ^ 17, laneNo x 1 / 2 ^ 18 % 128,
      laneNo x 1 % 2 ^ 17) := by
  obtain ⟨hx, hzero, hsite, hframe, hnew⟩ := h
  have hnot : (laneNo x 0 / 2 ^ 17 % 2 ^ 7 != 0 || s.ndies ≤ laneNo x 0 / 2 ^ 24 % 128
      || framesOf (laneNo x 0 / 2 ^ 31) ≤ laneNo x 0 % 2 ^ 17
      || (start && (2 ^ 25 ≤ laneNo x 1 || laneNo x 1 / 2 ^ 17 % 2 == 1 || s.ndies ≤ laneNo x 1 / 2 ^ 18 % 128
        || framesOf (laneNo x 0 / 2 ^ 31) ≤ laneNo x 1 % 2 ^ 17
        || laneNo x 1 / 2 ^ 18 % 128 == laneNo x 0 / 2 ^ 24 % 128))) = false := by
    cases start with
    | false => simpa [and_assoc] using And.intro hzero ⟨hsite, hframe⟩
    | true => simpa [and_assoc] using And.intro hzero ⟨hsite, hframe, hnew rfl⟩
  rw [State.pgfwArgs, fixedPk_ok hx]
  exact if_neg (Bool.eq_false_iff.mp hnot)

/-! A firing whose operand passes. -/

section Firing

variable {s : State} {o : Slot} {f : Fn}

/-- A firing whose first check passes goes on with what the check read; its effect follows the trigger effects. -/
theorem fireWith_checked {α : Type} {c : State → Env → Except FCode α} {a : α} {g : State → State}
    {k : State → Nat → Nat → Env → α → Except FCode (State → State)} (hc : c s (seen s o f) = .ok a)
    (hk : k s s.cur.1 s.cur.2 (seen s o f) a = .ok g) :
    fireWith o f (fun s e n env => c s env >>= k s e n env) s = .next (g (triggered s o)) :=
  fireWith_ok (by rw [show c s (s.envOf s.cur.1 s.cur.2 o f) = .ok a from hc]; exact hk)

/-- A firing that no check turns away after what it reads. -/
theorem fireWith_reads {α : Type} {c : State → Env → Except FCode α} {a : α} {k : State → Nat → Nat → Env → α → State → State}
    (hc : c s (seen s o f) = .ok a) :
    fireWith o f (fun s e n env => c s env >>= fun x => .ok (k s e n env x)) s
      = .next (k s s.cur.1 s.cur.2 (seen s o f) a (triggered s o)) :=
  fireWith_checked hc rfl

/-- A firing that asks nothing more than one control operand (R313). -/
theorem fireWith_control {m n : Nat} {k : State → Nat → Nat → Env → Nat → State → State} (h : control m (seen s o f).a = .ok n) :
    fireWith o f (fun s e n env => control m env.a >>= fun x => .ok (k s e n env x)) s
      = .next (k s s.cur.1 s.cur.2 (seen s o f) n (triggered s o)) :=
  fireWith_reads (c := fun _ env => control m env.a) h

variable (s : State) (t : State) (o : Slot) (f : Fn)

theorem next_stewAnswer (vs : List Nat) :
    Host.Outcome.next (t.stewAnswer s.cur.1 s.cur.2 o (seen s o f).a vs) = stewardDone s t o f vs := rfl
theorem next_stewLater (p : Pending) :
    Host.Outcome.next (t.stewLater s.cur.1 s.cur.2 o (seen s o f).a p) = stewardWaits s t o f p := rfl
theorem next_ptctAnswer (pid status : Nat) :
    Host.Outcome.next (t.ptctAnswer s.cur.1 s.cur.2 o (seen s o f).a pid status) = partitionDone s t o f pid status := rfl

end Firing

end Sys2Proof.Machine
end

section
/-! SUPPORT. PTCT: what each command does once its operand has passed. -/

namespace Sys2Proof.Machine

open Sys2Proof.Claims

/-! The state in which a command leaves its partition. -/

theorem bitsOf_putBits_state (w : Dword) {v : Nat} (h : v < 8) : bitsOf (putBits w 61 3 v) 61 3 = v := by
  have hw : w.toNat < 2 ^ 61 * 2 ^ 3 := w.isLt
  have hlow : w.toNat - w.toNat / 2 ^ 61 % 2 ^ 3 * 2 ^ 61 = w.toNat % 2 ^ 61 := by
    rw [Nat.mod_eq_of_lt (Nat.div_lt_of_lt_mul hw), Nat.mul_comm]
    exact Nat.sub_eq_of_eq_add (Nat.mod_add_div _ _).symm
  have hlt : w.toNat % 2 ^ 61 < 2 ^ 61 := Nat.mod_lt _ (by decide)
  simp only [bitsOf, putBits, BitVec.toNat_ofNat, hlow]
  omega

/-- A fold of steps that leave the partitions alone leaves them alone. -/
theorem State.foldl_parts {β : Type} (g : State → β → State) (hg : ∀ s x, (g s x).parts = s.parts) (l : List β) :
    ∀ s : State, (l.foldl g s).parts = s.parts := by
  induction l with
  | nil => intro s; rfl
  | cons x l ih => intro s; exact (ih _).trans (hg s x)

@[simp] theorem State.setRoutes_parts (s : State) (pid : Nat) (on : Bool) : (s.setRoutes pid on).parts = s.parts := rfl

/-- A partition that PTCT defines is IDLE (R224). -/
theorem State.pState_doDefine (s : State) (pid : Nat) : pState ((s.doDefine pid).part pid) = 1 := by
  rw [State.doDefine, State.part, State.foldl_parts _ (fun s r => State.modRegion_parts s r _), State.setRoutes_parts, ← State.part,
    State.part_modPart_same]
  exact bitsOf_putBits_state 0 (by decide)

/-- A SAVED partition with its context put back, FROZEN (R238): its tiles and buffers from the save area, the rest from what was kept. -/
def State.restored (s : State) (pid : Nat) : State :=
  let c := (s.part pid).saved.getD {}
  ((s.setRoutes pid true).putContext { c with tiles := s.areaTiles pid c, bufs := s.areaBufs pid c }).modPart pid (fun p =>
    { p.toState 3 with saved := none, frozen := s.rectDies (pRect (s.part pid)) })

theorem State.pState_restored (s : State) (pid : Nat) : pState ((s.restored pid).part pid) = 3 := by
  rw [State.restored, State.part_modPart_same]
  exact bitsOf_putBits_state _ (by decide)

section Restore

variable {s : State} {pid : Nat}

theorem State.doRestore_stateRefused (h : pState (s.part pid) ≠ 4 ∨ s.groupBusy pid = true) : s.doRestore pid = (s, 5) := by
  simp [State.doRestore, h]

variable (hst : pState (s.part pid) = 4) (hg : s.groupBusy pid = false)
include hst hg

theorem State.doRestore_notFormed {d : Nat} (h : s.resumeBad pid = some d) :
    s.doRestore pid = (s.report (s.homeDie pid) (s.resumeRecord pid d), 7) := by
  simp [State.doRestore, hst, hg, h]

theorem State.doRestore_clashes (h : s.resumeBad pid = none) (hl : s.linkClash pid (pRect (s.part pid)) resident = true) :
    s.doRestore pid = (s, 3) := by
  simp [State.doRestore, hst, hg, h, hl]

theorem State.doRestore_restores (h : s.resumeBad pid = none) (hl : s.linkClash pid (pRect (s.part pid)) resident = false) :
    s.doRestore pid = (s.restored pid, 0) := by
  simp [State.doRestore, State.restored, hst, hg, h, hl]

end Restore

/-! The commands. -/

section Commands

variable {s : State} {o : Slot} {f : Fn}

theorem execPtctDefine_takeover (hk : s.panel.root.takeover = true) : execPtctDefine o f s = .next s := by
  simp [execPtctDefine, State.takeover, hk]

theorem execPtctRelease_takeover (hk : s.panel.root.takeover = true) : execPtctRelease o f s = .next s := by
  simp [execPtctRelease, State.takeover, hk]

variable {t : State} (ht : triggered s o = t)
include ht

theorem execPtctWrite_writes (ha : Exact 1 .n32 (seen s o f).a) (hb : Exact 2 .n64 (seen s o f).b)
    (hpid : laneNo (seen s o f).a 0 < 256) :
    let pid := laneNo (seen s o f).a 0
    let w := t.ptctWrite pid (fnIm f / 16) (BitVec.ofNat 64 (lanesNat (lanesOf (seen s o f).b)))
    let u := t.modPart pid (fun _ => w.2)
    execPtctWrite o f s = stewardDone s u o f (w.1 :: wordPair (u.ptctReg pid (fnIm f / 16))) := by
  subst ht
  have hchecks : pkChecks [ctlCheck (rawPk (seen s o f).a),
      { pk := rawPk (seen s o f).b, len := 2, fmtOk := hasTy .n64 (rawPk (seen s o f).b) }] = .ok () := by
    obtain ⟨hal, hat, hasc⟩ := ha
    obtain ⟨hbl, hbt, hbsc⟩ := hb
    exact pkChecks_ok (by simp [ctlCheck, hal, hat, hasc, hbl, hbt, hbsc, ownLenOk_of_n64_pair hbt hbl])
  refine Eq.trans (fireWith_checked (c := fun _ env => pkChecks [ctlCheck (rawPk env.a),
    { pk := rawPk env.b, len := 2, fmtOk := hasTy .n64 (rawPk env.b) }]) (g := ?effect) hchecks ?inRange) ?answer
  case inRange => exact if_neg (Nat.not_le.mpr hpid)
  case answer => rfl

variable {pid : Nat} (h : control 255 (seen s o f).a = .ok pid)
include h

theorem execPtctRead_reads : execPtctRead o f s = stewardDone s t o f (0 :: wordPair (t.ptctReg pid (fnIm f / 16))) := by
  subst ht
  exact fireWith_control h

section Root

variable (hk : s.panel.root.takeover = false)
include hk

theorem execPtctDefine_defines (hd : t.defineStatus pid = 0) : execPtctDefine o f s = partitionDone s (t.doDefine pid) o f pid 0 := by
  simp [execPtctDefine, ptctPid, State.takeover, hk, fireWith_control h, ht, hd, next_ptctAnswer]

theorem execPtctDefine_refuses (hd : t.defineStatus pid ≠ 0) :
    execPtctDefine o f s = partitionDone s t o f pid (t.defineStatus pid) := by
  simp [execPtctDefine, ptctPid, State.takeover, hk, fireWith_control h, ht, hd, next_ptctAnswer]

theorem execPtctRelease_refuses (hst : pState (t.part pid) ∉ [1, 3, 4] ∨ (t.part pid).ending ≠ 0) :
    execPtctRelease o f s = partitionDone s t o f pid 5 := by
  simp only [List.mem_cons, List.not_mem_nil, or_false, not_or, ← and_assoc] at hst
  simp [execPtctRelease, ptctPid, State.takeover, hk, fireWith_control h, ht, hst, next_ptctAnswer]

theorem execPtctRelease_freezes (hst : pState (t.part pid) = 3) (hf : t.allFrozen pid = false) (he : (t.part pid).ending = 0) :
    execPtctRelease o f s = stewardWaits s (t.modPart pid (fun p => { p with ending := 2 })) o f (.release pid) := by
  simp [execPtctRelease, ptctPid, State.takeover, hk, fireWith_control h, ht, hst, hf, he, next_stewLater]

theorem execPtctRelease_releases
    (hst : pState (t.part pid) = 1 ∨ pState (t.part pid) = 4 ∨ (pState (t.part pid) = 3 ∧ t.allFrozen pid = true))
    (he : (t.part pid).ending = 0) : execPtctRelease o f s = stewardWaits s (t.doRelease pid) o f (.release pid) := by
  obtain hst | hst | ⟨hst, hf⟩ := hst
  · simp [execPtctRelease, ptctPid, State.takeover, hk, fireWith_control h, ht, hst, he, next_stewLater]
  · simp [execPtctRelease, ptctPid, State.takeover, hk, fireWith_control h, ht, hst, he, next_stewLater]
  · simp [execPtctRelease, ptctPid, State.takeover, hk, fireWith_control h, ht, hst, hf, he, next_stewLater]

end Root

theorem execPtctSave_refuses (hst : pState (t.part pid) ≠ 3 ∨ (t.part pid).ending ≠ 0) :
    execPtctSave o f s = partitionDone s t o f pid 5 := by
  simp [execPtctSave, ptctPid, fireWith_control h, ht, hst, next_ptctAnswer]

section Save

variable (hst : pState (t.part pid) = 3) (he : (t.part pid).ending = 0)
include hst he

theorem execPtctSave_unmapped (hm : t.areaMapped pid = false) : execPtctSave o f s = partitionDone s t o f pid 1 := by
  simp [execPtctSave, ptctPid, fireWith_control h, ht, hst, he, hm, next_ptctAnswer]

theorem execPtctSave_saves (hm : t.areaMapped pid = true) (hf : t.allFrozen pid = true) :
    execPtctSave o f s = partitionDone s (t.doSave pid) o f pid 0 := by
  simp [execPtctSave, ptctPid, fireWith_control h, ht, hst, he, hm, hf, next_ptctAnswer]

theorem execPtctSave_freezes (hm : t.areaMapped pid = true) (hf : t.allFrozen pid = false) :
    execPtctSave o f s = stewardWaits s (t.modPart pid (fun p => { p with ending := 1, saveStatus := 0 })) o f (.save pid) := by
  simp [execPtctSave, ptctPid, fireWith_control h, ht, hst, he, hm, hf, next_stewLater]

end Save

/-- RESTORE answers what its checks give, and abandons launches only where the context has been put back (R244). -/
theorem execPtctRestore_answers {u : State} {status : Nat} (hr : t.doRestore pid = (u, status)) :
    execPtctRestore o f s = partitionDone s (if status = 0 then u.abandonAll pid else u) o f pid status := by
  simp [execPtctRestore, ptctPid, fireWith_control h, ht, hr, next_ptctAnswer]

end Commands

/-- Settles O31: each command of PTCT has an equation for each thing that it can do. -/
theorem partitionCommandsComplete : Obligations.PartitionCommandsComplete := by
  unfold Obligations.PartitionCommandsComplete
  intro s o f env t pid reg st w written free
  refine ⟨fun hc => ?_, fun ha hb hp => execPtctWrite_writes rfl ha hb hp⟩
  have h : control 255 (seen s o f).a = .ok pid := control_ok hc
  refine ⟨execPtctRead_reads rfl h, fun hk => ⟨fun hd => ⟨execPtctDefine_defines rfl h hk hd, State.pState_doDefine t pid⟩,
      fun hd => execPtctDefine_refuses rfl h hk hd⟩,
    fun hst he hm hf => execPtctSave_saves rfl h hst he hm hf, fun hst he hm hf => execPtctSave_freezes rfl h hst he hm hf,
    fun hst he hm => execPtctSave_unmapped rfl h hst he hm, fun hst => execPtctSave_refuses rfl h hst,
    fun hst => execPtctRestore_answers rfl h (State.doRestore_stateRefused hst),
    fun hst hg => ⟨fun d hd => ?notFormed, fun hb hl => ?clashes, fun hb hl => ?restores⟩,
    fun hk => ⟨execPtctDefine_takeover hk, execPtctRelease_takeover hk⟩,
    fun hk hst he => execPtctRelease_releases rfl h hk hst he, fun hk hst hf he => execPtctRelease_freezes rfl h hk hst hf he,
    fun hk hst => execPtctRelease_refuses rfl h hk hst⟩
  case notFormed => exact execPtctRestore_answers rfl h (State.doRestore_notFormed hst hg hd)
  case clashes => exact execPtctRestore_answers rfl h (State.doRestore_clashes hst hg hb hl)
  case restores => exact ⟨execPtctRestore_answers rfl h (State.doRestore_restores hst hg hb hl), State.pState_restored t pid⟩

end Sys2Proof.Machine
end

section
/-! SUPPORT. TLBI and PGFW: what each does once its operand has passed. -/

namespace Sys2Proof.Machine

open Sys2Proof.Claims Sys2Proof.Laws

/-- A TLBI reads the lanes of its operand and has its effect (R403). -/
theorem fireWith_tlbi {s : State} {o : Slot} {f : Fn} {m0 m1 m2 : Nat}
    {k : State → Nat → Nat → Env → Nat × Nat × Nat → State → State} (h : TlbiOperand m0 m1 m2 (seen s o f).a) :
    fireWith o f (fun s e n env => tlbiLanes m0 m1 m2 env.a >>= fun x => .ok (k s e n env x)) s
      = .next (k s s.cur.1 s.cur.2 (seen s o f) (laneNo (seen s o f).a 0, laneNo (seen s o f).a 1, laneNo (seen s o f).a 2)
          (triggered s o)) :=
  fireWith_reads (c := fun _ env => tlbiLanes m0 m1 m2 env.a) (tlbiLanes_ok h)

/-- A sub-code of PGFW whose function gives R240's transitions answers the new state, or 1 and the old one. -/
theorem pgfw_answers {s : State} {o : Slot} {f : Fn} {start : Bool} {op : SlotOp} {next : Pgfw → Nat → Nat → Option Pgfw}
    {i : Instr} (hi : exec i s = pgfw start next o f s)
    (hnext : ∀ x v l y, next x v l = some y ↔ Forwarding op x v l y) (h : ForwardingOperand s start (seen s o f).a) :
    let t := triggered s o
    let w := laneNo (seen s o f).a 0
    let key := t.frameKey (w / 2 ^ 31) (w / 2 ^ 24 % 128) (w % 2 ^ 17)
    let v := laneNo (seen s o f).a 1 / 2 ^ 18 % 128
    let l := laneNo (seen s o f).a 1 % 2 ^ 17
    (∀ y, Forwarding op (t.panel.pgfw.get key) v l y → exec i s
      = stewardDone s { t with panel := { t.panel with pgfw := t.panel.pgfw.set key y } } o f [0, pgfwCode y])
    ∧ ((¬ ∃ y, Forwarding op (t.panel.pgfw.get key) v l y) →
      exec i s = stewardDone s t o f [1, pgfwCode (t.panel.pgfw.get key)]) := by
  intro t w key v l
  have hfire : exec i s = .next (match next (t.panel.pgfw.get key) v l with
      | none => t.stewAnswer s.cur.1 s.cur.2 o (seen s o f).a [1, pgfwCode (t.panel.pgfw.get key)]
      | some y => ({ t with panel := { t.panel with pgfw := t.panel.pgfw.set key y } } : State).stewAnswer s.cur.1 s.cur.2 o
          (seen s o f).a [0, pgfwCode y]) := by
    refine hi.trans (Eq.trans (fireWith_checked (c := fun s env => s.pgfwArgs start env.a) (g := ?effect)
      (State.pgfwArgs_ok h) ?passes) ?answer)
    case passes => rfl
    case answer => rfl
  refine ⟨fun y hy => ?_, fun hno => ?_⟩
  · rw [hfire, (hnext _ _ _ _).mpr hy]
    rfl
  · have hnone : next (t.panel.pgfw.get key) v l = none :=
      Option.eq_none_iff_forall_ne_some.mpr (fun y hy => hno ⟨y, (hnext _ _ _ _).mp hy⟩)
    rw [hfire, hnone]
    rfl

/-- Settles O32: each TLBI leaves its answer waiting for the accesses that it names, and each PGFW answers by R240's transitions. -/
theorem translationCommandsComplete : Obligations.TranslationCommandsComplete := by
  unfold Obligations.TranslationCommandsComplete
  intro s o f env t pid va inPage mine site gran cache key v l
  refine ⟨fun h => (exec_tlbiS1va o f s).trans (fireWith_tlbi h), fun h => (exec_tlbiS1pid o f s).trans (fireWith_tlbi h),
    fun h => (exec_tlbiS2g o f s).trans ((fireWith_tlbi h).trans ?granule),
    fun h => (exec_tlbiS2vf o f s).trans (fireWith_tlbi h), ?_⟩
  case granule =>
    simp only [beq_iff_eq]
    rfl
  simp only [List.forall_mem_cons]
  refine ⟨pgfw_answers (exec_pgfwStart o f s) (fun x v l y => ⟨fun h => ?start, ?_⟩),
    pgfw_answers (exec_pgfwClear o f s) (fun x v l y => ⟨fun h => ?clear, ?_⟩),
    pgfw_answers (exec_pgfwAbort o f s) (fun x v l y => ⟨fun h => ?abort, ?_⟩),
    pgfw_answers (start := false) (exec_pgfwQuery o f s) (fun x v l y => ⟨fun h => ?query, ?_⟩), by simp⟩
  case start =>
    split at h <;> cases h
    exact .start v l
  case clear =>
    split at h <;> cases h
    exact .clear _ _ v l
  case abort =>
    split at h <;> cases h
    exact .abort _ _ v l
  case query =>
    cases h
    exact .query x v l
  all_goals
    rintro ⟨⟩
    rfl

end Sys2Proof.Machine
end

section
/-! SUPPORT. VFEN, VDMAP, FLTAK, QSCK and RLIM: what each does once its operand has passed. -/

namespace Sys2Proof.Machine

open Sys2Proof.Claims Sys2Proof.Laws

section Services

variable {s : State} {o : Slot} {f : Fn} {t : State} (ht : triggered s o = t)
include ht

/-! VFEN (R408). -/

section Functions

variable {m : Nat} (h : vfenMask (seen s o f).a = .ok m)
include h

theorem fireWith_vfen {k : State → Nat → Nat → Env → Nat → State → State} :
    fireWith o f (fun s e n env => vfenMask env.a >>= fun x => .ok (k s e n env x)) s = .next (k s s.cur.1 s.cur.2 (seen s o f) m t) := by
  subst ht
  exact fireWith_reads (c := fun _ env => vfenMask env.a) h

theorem execVfenSet_takeover (hk : t.panel.root.takeover = true) :
    execVfenSet o f s = stewardDone s t o f [3, t.enBits % 2 ^ 32, t.enBits / 2 ^ 32] := by
  simp [execVfenSet, fireWith_vfen ht h, State.takeover, hk, next_stewAnswer]

theorem execVfenClr_takeover (hk : t.panel.root.takeover = true) :
    execVfenClr o f s = stewardDone s t o f [3, t.enBits % 2 ^ 32, t.enBits / 2 ^ 32] := by
  simp [execVfenClr, fireWith_vfen ht h, State.takeover, hk, next_stewAnswer]

theorem execVfenSet_enables (hk : t.panel.root.takeover = false) :
    let u := (maskVfs m).foldl (fun s v => if (s.vf v).disabling || s.vfOn v then s else s.enableVf v) t
    execVfenSet o f s = stewardDone s u o f
      [if (maskVfs m).any (fun v => (t.vf v).disabling) then 1 else 0, u.enBits % 2 ^ 32, u.enBits / 2 ^ 32] := by
  simp [execVfenSet, fireWith_vfen ht h, State.takeover, hk, next_stewAnswer]

theorem execVfenClr_disables (hk : t.panel.root.takeover = false) :
    let on := (maskVfs m).filter (fun v => t.vfOn v)
    execVfenClr o f s = stewardWaits s (on.foldl State.disableVf t) o f (.disable (on.foldl (fun a v => a + 2 ^ v) 0)) := by
  simp [execVfenClr, fireWith_vfen ht h, State.takeover, hk, next_stewLater]

end Functions

/-! FLTAK, QSCK and RLIM (R344, R381, R383). -/

section Numbers

variable {n : Nat}

theorem execFltakTake_takes (h : control 63 (seen s o f).a = .ok n) : execFltakTake o f s = .next
    ((t.takeItem (ekDie s.cur.1) n).fltak s.cur.1 s.cur.2 o (seen s o f).a ((t.storeItem (ekDie s.cur.1) n).map (fun x => x.1))) := by
  subst ht
  exact fireWith_control h

theorem execFltakPeek_peeks (h : control 63 (seen s o f).a = .ok n) : execFltakPeek o f s = .next
    (t.fltak s.cur.1 s.cur.2 o (seen s o f).a ((t.storeItem (ekDie s.cur.1) n).map (fun x => x.1))) := by
  subst ht
  exact fireWith_control h

theorem execQsckRead_reads (h : control 255 (seen s o f).a = .ok n) (hd : t.onDie n (ekDie s.cur.1) = true) :
    execQsckRead o f s = stewardDone s t.drawn o f [0, t.quietCount n (ekDie s.cur.1), (t.part n).decision] := by
  simp [execQsckRead, fireWith_control h, ht, hd, next_stewAnswer]

theorem execQsckRestart_restarts (h : control 255 (seen s o f).a = .ok n) (hd : t.onDie n (ekDie s.cur.1) = true) :
    execQsckRestart o f s = stewardDone s (t.modPart n (fun p => { p with quiet := p.quiet.filter (fun x => x != ekDie s.cur.1) })) o f
      [0, 0, (t.part n).decision] := by
  simp [execQsckRestart, fireWith_control h, ht, hd, next_stewAnswer]

theorem execQsckRead_elsewhere (h : control 255 (seen s o f).a = .ok n) (hd : t.onDie n (ekDie s.cur.1) = false) :
    execQsckRead o f s = stewardDone s t o f [1, 0, (t.part n).decision] := by
  simp [execQsckRead, fireWith_control h, ht, hd, next_stewAnswer]

theorem execQsckRestart_elsewhere (h : control 255 (seen s o f).a = .ok n) (hd : t.onDie n (ekDie s.cur.1) = false) :
    execQsckRestart o f s = stewardDone s t o f [1, 0, (t.part n).decision] := by
  simp [execQsckRestart, fireWith_control h, ht, hd, next_stewAnswer]

section Cap

variable (h : control 0x800000FF (seen s o f).a = .ok n)
include h

theorem execRlim_answers (hcap : 2 ^ 31 ≤ n → 60 ≤ n % 256 ∧ n % 256 ≤ 180) {u : State} {status : Nat}
    (hu : (if 2 ^ 31 ≤ n ∧ t.panel.root.takeover = false then t.modRoot (fun x => { x with capDrop := 180 - n % 256 }) else t) = u)
    (hstatus : (if t.panel.root.takeover then 3 else 0) = status) : execRlim o f s = stewardDone s u o f
      [status, 180 - u.panel.root.capDrop, (u.die (ekDie s.cur.1)).sigma, u.panel.root.power / 100] := by
  subst ht hu hstatus
  have hrange : ¬ (2 ^ 31 ≤ n && (n % 256 < 60 || 180 < n % 256)) = true := by simpa using hcap
  refine Eq.trans (fireWith_checked (c := fun _ env => control 0x800000FF env.a) (g := ?effect) h ?inRange) ?answer
  case inRange => exact if_neg hrange
  case answer =>
    simp only [State.takeover, Bool.and_eq_true, decide_eq_true_eq, Bool.not_eq_true']
    rfl

omit ht in
theorem execRlim_outOfRange (hset : 2 ^ 31 ≤ n) (hcap : n % 256 < 60 ∨ 180 < n % 256) : execRlim o f s = faulted s .bounds := by
  have hrange : (2 ^ 31 ≤ n && (n % 256 < 60 || 180 < n % 256)) = true := by simpa using And.intro hset hcap
  refine fireWith_error ?_
  rw [show control 0x800000FF (s.envOf s.cur.1 s.cur.2 o f).a = .ok n from h]
  exact if_pos hrange

end Cap

end Numbers

/-! VDMAP (R407). -/

theorem execVdmap_answers (hop : Exact 2 .n32 (seen s o f).a) (h0 : laneNo (seen s o f).a 0 < 256) (h1 : laneNo (seen s o f).a 1 < 256)
    {kind v x y : Nat} (hkind : laneNo (seen s o f).a 0 / 128 = kind) (hv : laneNo (seen s o f).a 0 % 128 = v)
    (hx : laneNo (seen s o f).a 1 % 16 = x) (hy : laneNo (seen s o f).a 1 / 16 = y)
    (hdie : v < s.ndies) (hcol : x < 2 * s.cols) (hrow : y < gridRows s.panel.form) (hsum : (x + y) % 2 = kind) :
    let p := t.numberAt x y
    let w := if kind = 0 then t.vdnOf p else t.vsnOf p
    let inUse := if kind = 0 then t.vdnUsed v || t.vdnUsed w || !(t.isActive (idFabric p)) else t.siteMapped (t.physSite v) || t.siteMapped p
    let u := if v = w then t else if kind = 0 then t.swapVdn v w else t.swapVsn v w
    execVdmap o f s = if t.panel.root.takeover = true then stewardDone s t o f [3, t.siteLane kind v]
      else if inUse = true then stewardDone s t o f [1, t.siteLane kind v] else stewardDone s u o f [0, u.siteLane kind v] := by
  subst ht
  have hkind' : laneNo (seen s o f).a 0 / 128 % 2 = kind := by omega
  have hy' : laneNo (seen s o f).a 1 / 16 % 16 = y := by omega
  have hrange : ¬ (2 ^ 8 ≤ laneNo (seen s o f).a 0 || 2 ^ 8 ≤ laneNo (seen s o f).a 1 || s.ndies ≤ v || 2 * s.cols ≤ x
      || gridRows s.panel.form ≤ y || (x + y) % 2 != kind) = true := by
    simp [h0, h1, hdie, hcol, hrow, hsum]
  refine Eq.trans (fireWith_checked (c := fun _ env => fixedPk 2 .n32 env.a) (g := ?effect) (fixedPk_ok hop) ?inRange) ?answer
  case inRange =>
    rw [← hkind', ← hv, ← hx, ← hy'] at hrange
    exact if_neg hrange
  case answer =>
    rw [← hkind', ← hv, ← hx, ← hy']
    simp only [beq_iff_eq, State.takeover, apply_ite Host.Outcome.next, next_stewAnswer]
    rfl

end Services

/-- Settles O33: each service of the steward has an equation for each thing that it can do. -/
theorem stewardServicesComplete : Obligations.StewardServicesComplete := by
  unfold Obligations.StewardServicesComplete
  intro s o f env t e d n mask bits on enabled taken head lift kind v x y p w inUse swapped limits
  refine ⟨fun h hk => ?takeover, fun h hk => ?functions, fun h h0 h1 hv hx hy hsum => ?exchange, fun h => ?records, fun h hd => ?onDie,
    fun h hd => ?elsewhere, fun h hset hcap => ?capRead, fun h hset hlo hhi hk => ?capSet, fun h => ?capOut⟩
  case takeover => exact ⟨execVfenSet_takeover rfl (vfenMask_ok h) hk, execVfenClr_takeover rfl (vfenMask_ok h) hk⟩
  case functions => exact ⟨execVfenSet_enables rfl (vfenMask_ok h) hk, execVfenClr_disables rfl (vfenMask_ok h) hk⟩
  case exchange =>
    have hanswer := execVdmap_answers rfl h h0 h1 rfl rfl rfl rfl hv hx hy hsum
    exact ⟨fun hk => hanswer.trans (if_pos hk), fun hk hu => hanswer.trans ((if_neg (Bool.eq_false_iff.mp hk)).trans (if_pos hu)),
      fun hk hu => hanswer.trans ((if_neg (Bool.eq_false_iff.mp hk)).trans (if_neg (Bool.eq_false_iff.mp hu)))⟩
  case records => exact ⟨execFltakTake_takes rfl (control_ok h), execFltakPeek_peeks rfl (control_ok h)⟩
  case onDie => exact ⟨execQsckRead_reads rfl (control_ok h) hd, execQsckRestart_restarts rfl (control_ok h) hd⟩
  case elsewhere => exact ⟨execQsckRead_elsewhere rfl (control_ok h) hd, execQsckRestart_elsewhere rfl (control_ok h) hd⟩
  case capRead =>
    have hkeeps : ¬ (2 ^ 31 ≤ n ∧ lift = false) := by
      rintro ⟨hn, hk⟩
      obtain hlt | hlift := hset
      · exact absurd hn (Nat.not_le.mpr hlt)
      · exact absurd hlift (Bool.eq_false_iff.mp hk)
    exact execRlim_answers rfl (control_ok h) hcap (if_neg hkeeps) rfl
  case capSet =>
    exact execRlim_answers rfl (control_ok h) (fun _ => ⟨hlo, hhi⟩) (if_pos ⟨hset, hk⟩) (if_neg (Bool.eq_false_iff.mp hk))
  case capOut => exact execRlim_outOfRange (control_ok h)

end Sys2Proof.Machine
end

section
/-! SUPPORT. Slot words: the fields of a word, its opcode and its FN read back one by one, and `decodeSlotParts` accepts exactly the words of
the slot operations that `slotOk` accepts (R281 to R287). -/

namespace Sys2Proof.Machine

/-! The bits of a slot word (R281). -/

theorem extractLsb'_one (w : Dword) (n : Nat) : w.extractLsb' n 1 = BitVec.ofBool (w.getLsbD n) := by
  ext i hi
  obtain rfl : i = 0 := by omega
  simp

section Fields
variable (o : Slot) (opc fn : BitVec 8)

theorem valid_slotBits : (slotBits o opc fn).getLsbD 63 = true := by
  simp only [slotBits, BitVec.getLsbD_append, Nat.reduceSub, Nat.reduceLT, reduceIte]
  rfl

theorem slotFields_slotBits : slotFields (slotBits o opc fn) = o := by
  simp (disch := omega) only [slotFields, slotBits, BitVec.extractLsb'_append_eq_of_add_le, BitVec.extractLsb'_append_eq_of_le,
    BitVec.getLsbD_append, Nat.reduceSub, Nat.reduceLT, reduceIte, BitVec.extractLsb'_eq_self, BitVec.getLsbD_ofBool,
    decide_true, Bool.true_and]

theorem opcode_slotBits : (slotBits o opc fn).extractLsb' 24 8 = opc := by
  simp (disch := omega) only [slotBits, BitVec.extractLsb'_append_eq_of_add_le, BitVec.extractLsb'_append_eq_of_le, Nat.reduceSub,
    BitVec.extractLsb'_eq_self]

theorem fn_slotBits : (slotBits o opc fn).extractLsb' 0 8 = fn := by
  simp (disch := omega) only [slotBits, BitVec.extractLsb'_append_eq_of_add_le, BitVec.extractLsb'_eq_self]

end Fields

/-- No bit of a slot word is reserved: V, the fields, the opcode and FN are all of it. -/
theorem slotBits_slotFields {w : Dword} (h : w.getLsbD 63 = true) :
    slotBits (slotFields w) (w.extractLsb' 24 8) (w.extractLsb' 0 8) = w := by
  have hv : 1#1 = w.extractLsb' 63 1 := by rw [extractLsb'_one, h]; rfl
  simp only [slotBits, slotFields, hv, ← extractLsb'_one, BitVec.extractLsb'_append_extractLsb'_eq_extractLsb']
  exact BitVec.extractLsb'_eq_self

/-! The codes of types and of roundings (R112, R285). -/

@[simp] theorem tyOfCode_tyCode (t : Ty) : tyOfCode (tyCode t) = some t := by
  cases t with
  | b8 k | b8n k => revert k; decide
  | _ => rfl

theorem tyCode_of_tyOfCode {c : Nat} {t : Ty} (h : tyOfCode c = some t) : tyCode t = c := by
  unfold tyOfCode at h
  split at h
  · cases h; simp only [tyCode]; omega
  split at h
  · cases h; simp only [tyCode]; omega
  split at h <;> cases h <;> rfl

theorem tyCode_lt (t : Ty) : tyCode t < 32 := by
  cases t <;> simp only [tyCode] <;> omega

@[simp] theorem rndOfCode_rndCode (r : Rnd) : rndOfCode (rndCode r) = some r := by
  cases r <;> rfl

theorem rndCode_of_rndOfCode {c : Nat} {r : Rnd} (h : rndOfCode c = some r) : rndCode r = c := by
  unfold rndOfCode at h
  split at h <;> cases h <;> rfl

theorem rndCode_lt (r : Rnd) : rndCode r < 8 := by
  cases r <;> decide

/-! The function field (R284). -/

/-- Which of the three long forms an FN has; none for the short one. -/
def longForm : Fn → Option FnKind
  | .tr _ _ => some .tr
  | .ty _ _ => some .ty
  | .sh _ _ => none
  | .im _ => some .im

theorem isShort_of_shortOk {o : Slot} {f : Fn} (h : shortOk o f = true) : isShort o = (longForm f).isNone := by
  cases f with
  | sh n m =>
    simp only [shortOk, Bool.and_eq_true] at h
    obtain ⟨⟨hshort, -⟩, -⟩ := h
    exact hshort
  | tr | ty | im => simpa [shortOk, longForm] using h

theorem opRow_fn_of_fnOk {op : SlotOp} {f : Fn} {k : FnKind} (h : fnOk op f = true) (hk : longForm f = some k) : (opRow op).fn = k := by
  cases f with
  | sh n m => cases hk
  | tr | ty | im =>
    cases hk
    cases hr : (opRow op).fn <;> simp [fnOk, hr] at h ⊢

/-- FN with a type in its five high bits and a code in its three low ones reads back as the two. -/
theorem toNat_typed_fn {c d : Nat} (hc : c < 32) (hd : d < 8) :
    (BitVec.ofNat 8 (c * 8 + d)).toNat / 8 = c ∧ (BitVec.ofNat 8 (c * 8 + d)).toNat % 8 = d := by
  rw [BitVec.toNat_ofNat]
  omega

theorem fnParse_fnBits {k : FnKind} {f : Fn} (h : ∀ j, longForm f = some j → k = j) :
    fnParse k (longForm f).isNone (fnBits f) = some f := by
  cases f with
  | sh n m =>
    have hn : (n ++ m).extractLsb' 4 4 = n := (BitVec.extractLsb'_append_eq_of_le (Nat.le_refl 4)).trans BitVec.extractLsb'_eq_self
    have hm : (n ++ m).extractLsb' 0 4 = m := (BitVec.extractLsb'_append_eq_of_add_le (Nat.le_refl 4)).trans BitVec.extractLsb'_eq_self
    simp [fnParse, longForm, fnBits, hn, hm]
  | tr t r =>
    obtain rfl := h _ rfl
    obtain ⟨ht, hr⟩ := toNat_typed_fn (tyCode_lt t) (rndCode_lt r)
    simp [fnParse, longForm, fnBits, ht, hr, -BitVec.toNat_ofNat]
  | ty t s =>
    obtain rfl := h _ rfl
    obtain ⟨ht, hs⟩ := toNat_typed_fn (tyCode_lt t) s.isLt
    have hsub : (BitVec.ofNat 8 (tyCode t * 8 + s.toNat)).extractLsb' 0 3 = s := by
      rw [← BitVec.toNat_inj, BitVec.extractLsb'_toNat]
      exact hs
    simp [fnParse, longForm, fnBits, ht, hsub, -BitVec.toNat_ofNat]
  | im v =>
    obtain rfl := h _ rfl
    rfl

theorem fnBits_of_fnParse {k : FnKind} {short : Bool} {v : BitVec 8} {f : Fn} (h : fnParse k short v = some f) : fnBits f = v := by
  revert h
  fun_cases fnParse k short v <;> intro h <;> cases h
  case case1 =>
    simp only [fnBits, BitVec.extractLsb'_append_extractLsb'_eq_extractLsb']
    exact BitVec.extractLsb'_eq_self
  case case2 t r hr ht =>
    rw [fnBits, tyCode_of_tyOfCode ht, rndCode_of_rndOfCode hr, Nat.div_add_mod', BitVec.ofNat_toNat, BitVec.setWidth_eq]
  case case4 t ht =>
    have hs : (v.extractLsb' 0 3).toNat = v.toNat % 8 := BitVec.extractLsb'_toNat ..
    rw [fnBits, tyCode_of_tyOfCode ht, hs, Nat.div_add_mod', BitVec.ofNat_toNat, BitVec.setWidth_eq]
  case case6 => rfl

/-! The rows of the operations (R286). -/

theorem im_of_fnOk {op : SlotOp} {f : Fn} (h : fnOk op f = true) (hk : (opRow op).fn = .im) (hs : (opRow op).short = .none) :
    ∃ v, f = .im v ∧ imOk op v.toNat = true := by
  cases f with
  | im v => exact ⟨v, rfl, by simpa [fnOk, hk] using h⟩
  | tr | ty | sh => simp [fnOk, hk, hs] at h

theorem eq_ofNat_of_toNat_beq {v : BitVec 8} {n : Nat} (h : (v.toNat == n) = true) : v = BitVec.ofNat 8 n := by
  rw [← beq_iff_eq.mp h, BitVec.ofNat_toNat, BitVec.setWidth_eq]

/-- An opcode that serves one row names it whatever FN says. Where rows share an opcode, each takes an immediate, and what its entry defines
(`imOk`) fixes the bits that tell it from the others: to one value of FN, or, in the second group, to a range or a low field of it. -/
theorem opOfCode_opRow {op : SlotOp} {f : Fn} (h : fnOk op f = true) : opOfCode (opRow op).opc (fnBits f) = some (opCanon op) := by
  cases op
  case pklenGet | seqtCnt | seqtSet | seqtGet | mgsplXqreg | mgsplXqdel | ptctDefine | ptctSave | ptctRestore | ptctRelease
      | tlbiS1va | tlbiS1pid | tlbiS2g | tlbiS2vf | pgfwStart | pgfwClear | pgfwAbort | pgfwQuery | vfenSet | vfenClr
      | atstQuery | atstChallenge | atstQuarantine | atstReset | fltakTake | fltakPeek | qsckRead | qsckRestart =>
    obtain ⟨v, rfl, hv⟩ := im_of_fnOk h rfl rfl
    obtain rfl := eq_ofNat_of_toNat_beq hv
    rfl
  case pklenSet | bfsetFull | bfsetEmpty | mgsplAllow | mgsplForbid | mgsplForce | mgstIsland | mgstQueue | ptctRead | ptctWrite =>
    obtain ⟨v, rfl, hv⟩ := im_of_fnOk h rfl rfl
    revert v
    decide
  all_goals rfl

theorem opRow_of_opOfCode {opc : Nat} {fn : BitVec 8} {op : SlotOp} (h : opOfCode opc fn = some op) :
    (opRow op).opc = opc ∧ opCanon op = op := by
  revert h
  fun_cases opOfCode opc fn <;> intro h <;> cases h <;> exact ⟨rfl, rfl⟩

theorem opRow_opCanon (op : SlotOp) : opRow (opCanon op) = opRow op := by
  cases op <;> rfl

theorem slotOk_opCanon (op : SlotOp) (o : Slot) (f : Fn) : slotOk (opCanon op) o f = slotOk op o f := by
  cases op <;> rfl

/-- No operation stands in the firmware class (R287). -/
theorem opRow_opc_lt (op : SlotOp) : (opRow op).opc < 0xF0 := by
  cases op <;> decide

theorem slotInstr_of_instrSlot {i : Instr} {op : SlotOp} {o : Slot} {f : Fn} (h : instrSlot i = some (op, o, f)) :
    slotInstr op o f = i := by
  cases i <;> cases h <;> rfl

/-! What the decoder accepts (R74 to R76, R283, R287). -/

theorem slotOk_iff {op : SlotOp} {o : Slot} {f : Fn} : slotOk op o f = true ↔ o.nsm ≠ 3 ∧ fnOk op f = true ∧ shortOk o f = true
    ∧ srcOk op o f = true ∧ icnOk op o f = true ∧ dstOk op o f = true := by
  simp [slotOk, and_assoc]

theorem tt_of_dstOk {op : SlotOp} {o : Slot} {f : Fn} (h : dstOk op o f = true) : ¬ (8 ≤ o.tt.toNat && o.tt.toNat < 15) = true := by
  simp only [dstOk, Bool.and_eq_true, Bool.or_eq_true, decide_eq_true_eq, beq_iff_eq] at h ⊢
  obtain ⟨⟨⟨hlt | heq, -⟩, -⟩, -⟩ := h
  · omega
  · rw [heq]
    decide

/-- The decoder's checks before `slotOk` turn away nothing that `slotOk` accepts. -/
theorem decodeSlotParts_eq_ok {w : Dword} {op : SlotOp} {o : Slot} {f : Fn} :
    decodeSlotParts w = .ok (op, o, f) ↔
      w.getLsbD 63 = true ∧ slotFields w = o ∧ opOfCode (w.extractLsb' 24 8).toNat (w.extractLsb' 0 8) = some op
        ∧ fnParse (opRow op).fn (isShort o) (w.extractLsb' 0 8) = some f ∧ slotOk op o f = true := by
  constructor
  · fun_cases decodeSlotParts w <;> intro h <;> simp only [Except.ok.injEq, reduceCtorEq, Prod.mk.injEq] at h
    case case7 hv _ _ _ _ _ _ _ hop _ hfn hok =>
      obtain ⟨rfl, rfl, rfl⟩ := h
      exact ⟨eq_true_of_ne_false hv, rfl, hop, hfn, hok⟩
  · rintro ⟨hv, rfl, hop, hfn, hok⟩
    obtain ⟨hnsm, -, -, -, -, hdst⟩ := slotOk_iff.mp hok
    have hclass : ¬ 0xF0 ≤ (w.extractLsb' 24 8).toNat := by
      rw [← (opRow_of_opOfCode hop).1, Nat.not_le]
      exact opRow_opc_lt op
    simp only [decodeSlotParts, hv, hop, hfn, hok, beq_iff_eq, hnsm, tt_of_dstOk hdst, hclass]
    rfl

theorem decodeSlotParts_encodeSlot {op : SlotOp} {o : Slot} {f : Fn} (h : slotOk op o f = true) :
    decodeSlotParts (encodeSlot op o f) = .ok (opCanon op, o, f) := by
  obtain ⟨-, hfn, hshort, -, -, -⟩ := slotOk_iff.mp h
  refine decodeSlotParts_eq_ok.mpr ⟨valid_slotBits _ _ _, slotFields_slotBits _ _ _, ?_, ?_, by rwa [slotOk_opCanon]⟩
  · rw [encodeSlot, opcode_slotBits, fn_slotBits, BitVec.toNat_ofNat, Nat.mod_eq_of_lt (Nat.lt_trans (opRow_opc_lt op) (by decide))]
    exact opOfCode_opRow hfn
  · rw [encodeSlot, fn_slotBits, opRow_opCanon, isShort_of_shortOk hshort]
    exact fnParse_fnBits (fun _ => opRow_fn_of_fnOk hfn)

theorem encodeSlot_of_decodeSlotParts {w : Dword} {op : SlotOp} {o : Slot} {f : Fn} (h : decodeSlotParts w = .ok (op, o, f)) :
    encodeSlot op o f = w := by
  obtain ⟨hv, rfl, hop, hfn, -⟩ := decodeSlotParts_eq_ok.mp h
  rw [encodeSlot, (opRow_of_opOfCode hop).1, fnBits_of_fnParse hfn, BitVec.ofNat_toNat, BitVec.setWidth_eq, slotBits_slotFields hv]

theorem encode_of_instrSlot {i : Instr} {op : SlotOp} {o : Slot} {f : Fn} (h : instrSlot i = some (op, o, f)) :
    encode i = [encodeSlot op o f] := by
  unfold encode
  rw [h]

theorem wellFormed_of_instrSlot {i : Instr} {op : SlotOp} {o : Slot} {f : Fn} (h : instrSlot i = some (op, o, f)) :
    i.wellFormed = slotOk op o f := by
  unfold Instr.wellFormed
  rw [h]

/-- Settles O55: one equivalence says which words decode, so a word of `encodeSlot` reads back field by field, and a word that decodes is
put together again from what was read. -/
theorem slotWordsRoundTrip : Obligations.SlotWordsRoundTrip := by
  unfold Obligations.SlotWordsRoundTrip
  refine ⟨fun i op o f hi hw => ?_, fun w op o f hw => ?_⟩
  · have hparts := decodeSlotParts_encodeSlot (by rwa [wellFormed_of_instrSlot hi] at hw)
    have hdecode := decodeSlot_of_parts hparts
    refine ⟨encode_of_instrSlot hi, hparts, hdecode, fun hcanon => ?_⟩
    rw [hdecode, hcanon, slotInstr_of_instrSlot hi]
  · obtain ⟨-, -, hop, -, hok⟩ := decodeSlotParts_eq_ok.mp hw
    exact ⟨encodeSlot_of_decodeSlotParts hw, hok, (opRow_of_opOfCode hop).2⟩

end Sys2Proof.Machine
end

section
/-! SUPPORT. Value-wise instructions: sources of one legal type pass the checks of R86 and R87, and an instruction that computes its
rule's value at each place completes with the rule's result (R312). -/

namespace Sys2Proof.Machine

open Sys2Proof.Claims

theorem gatherIf_ok {ok : Ty → Bool} {set : TySet} {f : Fn} {e : Env} {srcs : List Operand} {t : Ty} {n : Nat}
    (h : Sources set f e srcs t n) (hok : ok t = true) : gatherIf ok set f e srcs = .ok (t, n, values f srcs t n) := by
  obtain ⟨htype, ⟨hany, hset⟩, hpackets, hlengths⟩ := h
  have hlen : (srcs.map (srcFor f t)).all ownLenOk = true := by simpa using fun x hx => (hpackets x hx).1
  have hty : (srcs.map (srcFor f t)).all (hasTy t) = true := by simpa using fun x hx => (hpackets x hx).2.1
  have hsc : (srcs.map (srcFor f t)).any (fun p => p.sc) = false := by simpa using fun x hx => (hpackets x hx).2.2
  have hn : lengthRule (if tyIs64 t then 2 else 1) ((srcs.map (srcFor f t)).map (fun p => p.lanes.length)) = some n := by
    rw [List.map_map]
    exact hlengths
  have hvals : (srcs.map (srcFor f t)).map (fun p => spread t n p.lanes) = values f srcs t n := List.map_map
  simp [gatherIf, htype, hany, hset, hok, hlen, hty, hsc, hn, hvals, -List.map_map]

theorem mulOk_of_fused {f : Fn} {e : Env} {t : Ty} {dot : Bool} (h : fused f e t dot) : mulOk f e dot t = true := by
  unfold fused at h
  cases hd : declaredAny f with
  | false => simp [mulOk, hd]
  | true => simp [mulOk, hd, h hd]

/-- An instruction that checks its sources, asks of the type what its rule asks, and computes its rule's value at each place. -/
theorem ValueRule.completes {r : ValueRule} {act : Fn → Env → Except FCode Act} {ok : Fn → Env → Ty → Bool}
    (hexec : ∀ o f s, exec (r.instr o f) s = fire o f act s)
    (hact : ∀ f e, act f e = valuewiseIf (ok f e) r.set f e (r.srcs e)
      (fun t x => r.value f e t (x.getD 0 0) (x.getD 1 0) (x.getD 2 0)))
    (hok : ∀ f e t, (r.multiplies = true → fused f e t false) → ok f e t = true) : r.Completes := by
  intro s o f t n hsrcs hfused hway
  have hgives : act f (seen s o f) = .ok (valueResult r f (seen s o f) t n) := by
    rw [hact, valuewiseIf, gatherIf_ok hsrcs (hok f _ t hfused)]
    rfl
  rw [hexec]
  exact fire_ok hgives hway

section Rules

variable {instr : Slot → Fn → Instr} {set : TySet} {srcs : Env → List Operand}
  {value : Fn → Env → Ty → Nat → Nat → Nat → Nat × BitVec 32} {act : Fn → Env → Except FCode Act}

/-- An instruction that asks nothing more of the type. -/
theorem completes_plain (hexec : ∀ o f s, exec (instr o f) s = fire o f act s)
    (hact : ∀ f e, act f e = valuewise set f e (srcs e) (fun t x => value f e t (x.getD 0 0) (x.getD 1 0) (x.getD 2 0))) :
    ValueRule.Completes ⟨instr, set, srcs, false, value⟩ :=
  ValueRule.completes (ok := fun _ _ _ => true) hexec hact (fun _ _ _ _ => rfl)

/-- A multiplying instruction, which asks the fusing control word of the type under .any (R100). -/
theorem completes_multiplying (hexec : ∀ o f s, exec (instr o f) s = fire o f act s)
    (hact : ∀ f e, act f e = mulWise f e (srcs e) (fun t x => value f e t (x.getD 0 0) (x.getD 1 0) (x.getD 2 0))) :
    ValueRule.Completes ⟨instr, .int, srcs, true, value⟩ :=
  ValueRule.completes hexec hact (fun _ _ _ h => mulOk_of_fused (h rfl))

end Rules

/-! The integers of R312. -/

theorem ival_eq_number (t : Ty) (x : Nat) : ival t x = number t x := by
  unfold ival number sval
  cases tyIsSigned t with
  | false => simp
  | true =>
    by_cases h : x < 2 ^ (tyWidth t - 1)
    · simp [h, Nat.not_le.mpr h]
    · simp [h, Nat.not_lt.mp h]

theorem wrapRes_eq_wrapped (t : Ty) (x : Int) : wrapRes t x = wrapped t x := rfl

theorem satRes_eq_saturated (t : Ty) (x : Int) : satRes t x = saturated t x := by
  unfold satRes saturated clampTo
  cases hs : tyIsSigned t <;> simp only [intLo, intHi, if_true, if_false, Bool.false_eq_true]
  all_goals
    split
    · rfl
    · split <;> rfl

theorem satOrWrap_eq_satWhen (f : Fn) (t : Ty) (x : Int) : satOrWrap (fnSub f == 1) t x = satWhen f t x := by
  simp [satOrWrap, satWhen, satRes_eq_saturated, wrapRes_eq_wrapped]

end Sys2Proof.Machine
end

section
/-! SUPPORT. The integer and bit instructions compute their rules' values (R316, R318, R332, R357, R359, R386). -/

namespace Sys2Proof.Machine

open Sys2Proof.Claims Sys2Proof.Laws

theorem min_eq_ite_lt (a b : Nat) : min a b = if a < b then a else b := by
  split <;> omega

/-- The conditions of CMP, as R318 lists them. -/
theorem cmpHolds_eq (cc : Nat) (x y : Int) : cmpHolds cc x y = match cc with
    | 0 => decide (x = y) | 1 => decide (x ≠ y) | 2 => decide (x < y) | 3 => decide (x ≤ y) | 4 => decide (y < x)
    | _ => decide (y ≤ x) := by
  unfold cmpHolds
  split <;> simp [bne, Bool.beq_eq_decide_eq]

/-- Settles O1: each instruction checks its sources as R86, R87 and R100 ask, and computes its rule's value at each place. -/
theorem integerInstructionsCompute : Obligations.IntegerInstructionsCompute := by
  unfold Obligations.IntegerInstructionsCompute integerRules
  simp only [List.forall_mem_append, List.forall_mem_cons]
  refine ⟨⟨completes_plain exec_add ?add, completes_plain exec_adds ?adds, completes_plain exec_sub ?sub,
     completes_plain exec_subs ?subs, completes_multiplying exec_mul ?mul, completes_multiplying exec_mulh ?mulh,
     completes_multiplying exec_mad ?mad, completes_plain exec_neg ?neg, completes_plain exec_abs ?abs, completes_plain exec_min ?min,
     completes_plain exec_max ?max, completes_plain exec_clamp ?clamp, completes_plain exec_and ?and, completes_plain exec_or ?or,
     completes_plain exec_xor ?xor, completes_plain exec_andn ?andn, completes_plain exec_not ?not, by simp⟩,
    completes_plain exec_shl ?shl, completes_plain exec_shr ?shr, completes_plain exec_sar ?sar, completes_plain exec_rotl ?rotl,
    completes_plain exec_clz ?clz, completes_plain exec_ctz ?ctz, completes_plain exec_popc ?popc, completes_plain exec_brev ?brev,
    completes_plain exec_cmp ?cmp, by simp⟩
  -- the model writes the rule's own value, on its own names for the integers of R312
  case mul | mulh | mad =>
    intro f e
    simp only [mulAct, mulhAct, madAct, ival_eq_number, satOrWrap_eq_satWhen, col]
    rfl
  case add | adds | sub | subs | neg | abs | clamp =>
    intro f e
    simp only [addAct, addsAct, subAct, subsAct, negAct, absAct, clampAct, intTwo, intOne, ival_eq_number, wrapRes_eq_wrapped,
      satRes_eq_saturated, satOrWrap_eq_satWhen, col]
    rfl
  case and | or | xor | andn | not | rotl | popc | brev => exact fun f e => rfl
  -- the model asks the opposite condition
  case min | max =>
    intro f e
    simp only [minAct, maxAct, intTwo, ival_eq_number, col, ← Int.not_le, ite_not]
    rfl
  case shl | shr =>
    intro f e
    simp only [shlAct, shrAct, intTwo, col, ← Nat.not_lt, ite_not]
    rfl
  case sar =>
    intro f e
    simp only [sarAct, ival_eq_number, wrapRes_eq_wrapped, col, min_eq_ite_lt]
    rfl
  case clz | ctz =>
    intro f e
    simp only [clzAct, ctzAct, intOne, col, beq_iff_eq]
    rfl
  case cmp =>
    intro f e
    simp only [cmpAct, intTwo, ival_eq_number, col, cmpHolds_eq]
    rfl

end Sys2Proof.Machine
end

section
/-! SUPPORT. Control operands: the one chain of checks of R313, and what each link of it answers. -/

namespace Sys2Proof.Machine

theorem hasTy_n32_iff (p : Packet) : hasTy .n32 p = true ↔ p.fmt = 0 ∧ p.fpx = 0 := by
  simp [hasTy, tyFmt, tyFpx]

theorem control_pkt (mask : Nat) (p : Packet) : control mask (.pkt p) =
    if p.lanes.length ≠ 1 then .error .pkLen
    else if ¬ (p.fmt = 0 ∧ p.fpx = 0) then .error .fmt
    else if p.sc = true then .error .scaleTag
    else if (p.lanes.headD 0).toNat &&& mask ≠ (p.lanes.headD 0).toNat then .error .bounds
    else .ok (p.lanes.headD 0).toNat := by
  simp only [control, controlAs, litPk, bne_iff_ne, ← hasTy_n32_iff, Bool.not_eq_true', Bool.not_eq_true]

/-- Settles O11: the checks stand in one chain, each made where those before it pass. -/
theorem controlOperandFaultsInOrder : Obligations.ControlOperandFaultsInOrder := by
  unfold Obligations.ControlOperandFaultsInOrder
  intro p mask v
  simp only [control_pkt]
  refine ⟨fun hlen => if_pos hlen, fun hlen hfmt => ?fmt, fun hlen hfmt hsc => ?scaleTag, fun hlen hfmt hsc hbits => ?bounds,
    fun hlen hfmt hsc hbits => ?number⟩
  case fmt => rw [if_neg (not_not_intro hlen), if_pos hfmt]
  case scaleTag => rw [if_neg (not_not_intro hlen), if_neg (not_not_intro hfmt), if_pos hsc]
  case bounds => rw [if_neg (not_not_intro hlen), if_neg (not_not_intro hfmt), if_neg (Bool.eq_false_iff.mp hsc), if_pos hbits]
  case number => rw [if_neg (not_not_intro hlen), if_neg (not_not_intro hfmt), if_neg (Bool.eq_false_iff.mp hsc), if_neg (not_not_intro hbits)]

end Sys2Proof.Machine
end

section
/-! SUPPORT. TAMP and THAW: what each does once its operand has passed (R402). -/

namespace Sys2Proof.Machine

open Sys2Proof.Claims Sys2Proof.Laws

section Holding

variable {s t : State} {o : Slot} {f : Fn} (ht : triggered s o = t)
include ht

section Tamp

variable {pid : Nat} (h : control 255 (seen s o f).a = .ok pid)
include h

theorem execTamp_freezes (hst : pState (s.part pid) = 2) :
    execTamp o f s = stewardWaits s (t.freezePart pid 3 0) o f (.tamp pid) := by
  simp [execTamp, fireWith_control h, ht, hst, next_stewLater]

theorem execTamp_answers (hst : pState (s.part pid) ≠ 2) :
    execTamp o f s = stewardDone s t o f [if pState (s.part pid) = 1 ∨ pState (s.part pid) = 3 then 0 else 1, t.pstatHigh pid] := by
  simp [execTamp, fireWith_control h, ht, hst, next_stewAnswer]

end Tamp

end Holding

/-- What THAW leaves of a state, and its status, once its operand has passed: the partition that the word names, or the element that a TRAP
of it holds under the record's number. -/
def State.thawed (s t : State) (w seq : Nat) : State × Nat :=
  if !(w / 256 % 2 == 1) then (if s.mayThaw (w % 256) then (t.thawPart (w % 256), 0) else (t, 1))
  else match (if pState (s.part (w % 256)) == 2 then s.trapped (w % 256) (w / 512 % 128) seq else none) with
    | some e => (t.thawElem e, 0)
    | none => (t, 1)

section Thaw

variable {s : State} {o : Slot} {f : Fn} {w seq : Nat}

theorem State.thawed_partition (t : State) (hwhole : w / 256 % 2 = 0) (hmay : s.mayThaw (w % 256) = true) :
    s.thawed t w seq = (t.thawPart (w % 256), 0) := by simp [State.thawed, hwhole, hmay]

theorem State.thawed_refused (t : State) (hwhole : w / 256 % 2 = 0) (hmay : s.mayThaw (w % 256) = false) :
    s.thawed t w seq = (t, 1) := by simp [State.thawed, hwhole, hmay]

theorem State.thawed_element (t : State) (hsingle : w / 256 % 2 = 1) {e : Nat}
    (hheld : (if pState (s.part (w % 256)) = 2 then s.trapped (w % 256) (w / 512 % 128) seq else none) = some e) :
    s.thawed t w seq = (t.thawElem e, 0) := by simp [State.thawed, hsingle, hheld]

theorem State.thawed_notHeld (t : State) (hsingle : w / 256 % 2 = 1)
    (hheld : (if pState (s.part (w % 256)) = 2 then s.trapped (w % 256) (w / 512 % 128) seq else none) = none) :
    s.thawed t w seq = (t, 1) := by simp [State.thawed, hsingle, hheld]

/-- THAW answers what it did, with the partition's status after it. -/
theorem thawAny_answers {u : State} {status : Nat} (hop : Exact 2 .n32 (seen s o f).a) (h0 : laneNo (seen s o f).a 0 = w)
    (h1 : laneNo (seen s o f).a 1 = seq) (hw : w < 2 ^ 16) (hseq : w / 256 % 2 = 0 → seq = 0)
    (hu : s.thawed (triggered s o) w seq = (u, status)) :
    thawAny o f s = stewardDone s u o f [status, u.pstatHigh (w % 256)] := by
  have hrange : ¬ (2 ^ 16 ≤ w || (!(w / 256 % 2 == 1) && seq != 0)) = true := by simpa using And.intro hw hseq
  have hfires : thawAny o f s = .next ((s.thawed (triggered s o) w seq).1.stewAnswer s.cur.1 s.cur.2 o (seen s o f).a
      [(s.thawed (triggered s o) w seq).2, (s.thawed (triggered s o) w seq).1.pstatHigh (w % 256)]) := by
    subst h0 h1
    refine Eq.trans (fireWith_checked (c := fun _ env => fixedPk 2 .n32 env.a) (g := ?effect) (fixedPk_ok hop) ?inRange) ?answer
    case inRange => exact if_neg hrange
    case answer => rfl
  rw [hfires, hu, next_stewAnswer]

end Thaw

/-- Settles O29: TAMP and THAW have an equation for each thing that they can do, and both forms of THAW are one. -/
theorem holdingAndThawingComplete : Obligations.HoldingAndThawingComplete := by
  unfold Obligations.HoldingAndThawingComplete
  intro s o f env t a st high w pid held whole single thaws
  have hthaws (i : Instr) (hi : exec i s = thawAny o f s) : thaws i := by
    refine ⟨fun ⟨hop, hw, hbit, hseq⟩ hmay => ?_, fun ⟨hop, hw, hbit, hseq⟩ hmay => ?_, fun e ⟨hop, hw, hbit⟩ hheld => ?_,
      fun ⟨hop, hw, hbit⟩ hheld => ?_⟩ <;> rw [hi]
    · exact thawAny_answers hop rfl rfl hw (fun _ => hseq) (State.thawed_partition t hbit hmay)
    · exact thawAny_answers hop rfl rfl hw (fun _ => hseq) (State.thawed_refused t hbit hmay)
    · exact thawAny_answers hop rfl rfl hw (fun hzero => absurd (hzero.symm.trans hbit) (by decide)) (State.thawed_element t hbit hheld)
    · exact thawAny_answers hop rfl rfl hw (fun hzero => absurd (hzero.symm.trans hbit) (by decide)) (State.thawed_notHeld t hbit hheld)
  exact ⟨fun hc => execTamp_freezes rfl (control_ok hc), fun hc => execTamp_answers rfl (control_ok hc), hthaws _ (exec_thaw o f s),
    hthaws _ (exec_thawTrap o f s)⟩

end Sys2Proof.Machine
end

section
/-! MADW on sources of no lanes, which no packet of the hardware is (R83): the length rule of R86 counts the one unit of its type, the
model's result the lanes that its sources have. -/

namespace Sys2Proof.Machine

open Sys2Proof.Claims

/-- A packet of a type with some lanes. -/
def packetOf (t : Ty) (ls : List Lane) : Packet := { fmt := tyFmt t, fpx := tyFpx t, lanes := ls }

/-- An element of a RUNNING partition about to fire slot 0: D0 and D1 are .n32 packets of no lanes, field P holds one .n64 value. -/
def laneless : State where
  regions := [(0, Region.placed {} false)]
  parts := [(0, { pstat := putBits 0 61 3 2 })]
  elems := [(0, { d := [(0, some (packetOf .n32 [])), (1, some (packetOf .n32 []))],
                  slots := [(0, { frm := 1, p := some { pkt := packetOf .n64 [7, 0] } })] })]

/-- A slot with sources D0 and D1 and its result in D2. -/
def slotD0D1ToD2 : Slot := { sa := 0, sb := 1, dt := 2, tt := 15 }

/-- The rule of MADW (R358), as `integerActs` lists it. -/
def madwRule : ActRule := integerActs.getD 1 ⟨.madw, fun _ _ _ _ => False, fun _ _ _ _ => {}⟩

theorem madwRule_mem : madwRule ∈ integerActs := List.mem_cons_of_mem _ List.mem_cons_self

/-- What MADW.n32 sees in that state. -/
def lanelessEnv : Env := seen laneless slotD0D1ToD2 (.ty .n32 0)

theorem sources_laneless : Sources .intNo64 (.ty .n32 0) lanelessEnv (srcsAB lanelessEnv) .n32 1 where
  type := by decide +kernel
  legal := by decide
  packets := by decide +kernel
  lengths := by decide +kernel

/-- The rule's conditions hold: the length rule gives one lane, and the addend has the two lanes of the result. -/
theorem madwRule_when_laneless : madwRule.when (.ty .n32 0) lanelessEnv .n32 1 :=
  ⟨sources_laneless, fun h => absurd h (by decide), by decide, .inl (by decide +kernel), by decide +kernel, by decide +kernel⟩

/-- The lanes that a firing leaves in D2. -/
def lanesInD2 : Host.Outcome State Fault Refusal → Option (List Lane)
  | .next s => ((s.elem 0).d.get 2).map (fun p => p.lanes)
  | _ => none

/-- By the rule the result is one value in two lanes. -/
theorem lanesInD2_madwRule :
    lanesInD2 (completed laneless slotD0D1ToD2 (madwRule.act (.ty .n32 0) lanelessEnv .n32 1)) = some [0, 0] := by decide +kernel

/-- The model's result takes its length from the sources, and has no lanes. -/
theorem lanesInD2_exec_madw : lanesInD2 (exec (.madw slotD0D1ToD2 (.ty .n32 0)) laneless) = some [] := by decide +kernel

/-- Refutes O3: MADW on two packets of no lanes leaves none in the model, and two by the rule. -/
theorem not_integerPairsAndFieldsCompute : ¬ Obligations.IntegerPairsAndFieldsCompute := by
  unfold Obligations.IntegerPairsAndFieldsCompute
  intro h
  have hexec := h madwRule madwRule_mem laneless slotD0D1ToD2 (.ty .n32 0) .n32 1 madwRule_when_laneless rfl
  have hlanes : some ([] : List Lane) = some [0, 0] := lanesInD2_exec_madw.symm.trans ((congrArg lanesInD2 hexec).trans lanesInD2_madwRule)
  exact absurd hlanes (by decide)

end Sys2Proof.Machine
end


section
/-! SUPPORT. What the trigger effects of a firing leave in its element and in the credits on their way (R75, R76). -/

namespace Sys2Proof.Machine

theorem maskList_nodup (m : BitVec 4) : (maskList m).Nodup := List.Pairwise.filter _ List.nodup_range

theorem mem_maskList {m : BitVec 4} {c : Nat} : c ∈ maskList m ↔ c < 4 ∧ m.getLsbD c = true := by simp [maskList]

/-- A table with a function applied at each of several keys, read at one key. -/
theorem PMap.get_foldl_modify {α : Type} [Inhabited α] [DecidableEq α] (g : α → α) {ks : List Nat} (h : ks.Nodup) (c : Nat) :
    ∀ m : PMap α, (ks.foldl (fun m k => m.modify k g) m).get c = if c ∈ ks then g (m.get c) else m.get c := by
  induction ks with
  | nil => intro m; simp
  | cons k ks ih =>
    intro m
    obtain ⟨hk, hks⟩ := List.nodup_cons.mp h
    rw [List.foldl_cons, ih hks, PMap.get_modify]
    by_cases hc : c = k
    · simp [hc, hk]
    · simp [hc]

section Trigger

variable (s : State) (e n : Nat) (o : Slot) (chans : BitVec 4)

theorem State.trigger_elem : (s.trigger e n o chans).elem e = triggerElem (s.elem e) n o chans := by
  simp only [State.trigger]
  split <;> simp [State.elem]

theorem State.touch_creds (r : Nat) : (s.touch r).creds = s.creds := by
  obtain h | ⟨p, g, h⟩ := State.touch_cases s r <;> simp [h]

theorem State.trigger_creds :
    (s.trigger e n o chans).creds = s.creds ++ (takenBy (s.elem e) n chans).filterMap (fun h => h.src) := by
  simp only [State.trigger]
  split <;> simp [State.touch_creds]

end Trigger

/-! The next state by NSM (R75). -/

theorem nextSt_of_write {o : Slot} (h : o.nsm = 0) (st : BitVec 6) : nextSt o st = o.ns := by simp [nextSt, h]

theorem nextSt_of_mask {o : Slot} (h : o.nsm = 1) (st : BitVec 6) : nextSt o st = (st &&& ~~~o.gm) ||| (o.ns &&& o.gm) := by
  simp [nextSt, h]

theorem nextSt_of_keep {o : Slot} (h : o.nsm = 2) (st : BitVec 6) : nextSt o st = st := by simp [nextSt, h]

section TriggerElem

variable (x : Elem) (n : Nat) (o : Slot) (chans : BitVec 4)

theorem triggerElem_queue {c : Nat} (hc : c < 4) :
    ((triggerElem x n o chans).ins.get c).q = if chans.getLsbD c then (x.ins.get c).q.drop 1 else (x.ins.get c).q := by
  rw [show (triggerElem x n o chans).ins = (maskList chans).foldl (fun m c => m.modify c (fun y => { y with q := y.q.drop 1 })) x.ins
    from rfl, PMap.get_foldl_modify _ (maskList_nodup chans)]
  by_cases h : chans.getLsbD c = true
  · simp [mem_maskList, hc, h]
  · simp [mem_maskList, h]

theorem triggerElem_slot : (triggerElem x n o chans).slots.get n = { x.slots.get n with
    l := if (x.slots.get n).aw.getLsbD 0 then none else (x.slots.get n).l
    r := if (x.slots.get n).aw.getLsbD 1 then none else (x.slots.get n).r
    p := if (x.slots.get n).aw.getLsbD 2 then none else (x.slots.get n).p
    aged := false } := PMap.get_set_same _ _ _

theorem mem_takenBy_left {h : Held} (haw : (x.slots.get n).aw.getLsbD 0 = true) (hl : (x.slots.get n).l = some h) :
    h ∈ takenBy x n chans := by
  simp [takenBy, haw, hl]

end TriggerElem

end Sys2Proof.Machine
end

section
/-! SUPPORT. NOP's word: the form without a result, and an FN of zero alone (R366). -/

namespace Sys2Proof.Machine

open Sys2Proof.Claims Sys2Proof.Laws

theorem nop_fn {o : Slot} {f : Fn} (h : slotOk .nop o f = true) : f = .im 0 := by
  obtain ⟨-, hfn, -, -, -, -⟩ := slotOk_iff.mp h
  obtain ⟨v, rfl, hv⟩ := im_of_fnOk hfn rfl rfl
  exact congrArg Fn.im (eq_ofNat_of_toNat_beq hv)

theorem nop_destinations {o : Slot} {f : Fn} (h : slotOk .nop o f = true) : o.dt = 0 ∧ o.tt = 15 := by
  obtain ⟨-, -, -, -, -, hdst⟩ := slotOk_iff.mp h
  simp only [dstOk, opRow, Bool.and_eq_true, beq_iff_eq] at hdst
  exact hdst.2

theorem nop_secondSource {o : Slot} {f : Fn} (h : slotOk .nop o f = true) : o.sb = 15 := by
  obtain ⟨-, -, -, hsrc, -, -⟩ := slotOk_iff.mp h
  simpa [srcOk, needsSb15, opRow] using hsrc

/-- The operation half of a slot word (R281). -/
theorem operationHalf_slotBits (o : Slot) (opc fn : BitVec 8) :
    (slotBits o opc fn).extractLsb' 0 32 = (opc ++ o.sa ++ o.sb ++ o.dt ++ o.tt ++ fn : BitVec 32) := by
  have hfields := slotFields_slotBits o opc fn
  have hhalf (w : Dword) : w.extractLsb' 0 32 = (w.extractLsb' 24 8 ++ (slotFields w).sa ++ (slotFields w).sb ++ (slotFields w).dt
      ++ (slotFields w).tt ++ w.extractLsb' 0 8 : BitVec 32) := by
    simp only [slotFields, BitVec.extractLsb'_append_extractLsb'_eq_extractLsb']
  rw [hhalf, hfields, opcode_slotBits, fn_slotBits]

theorem slotReject_ne (op : SlotOp) (o : Slot) (f : Fn) :
    slotReject op o f ≠ .vacant ∧ slotReject op o f ≠ .firmwareClass := by
  unfold slotReject
  repeat' split
  all_goals decide

/-- A word with V set, below the firmware class, is turned away neither as vacant nor as firmware. -/
theorem decodeSlotParts_error_ne {w : Dword} {r : Reject} (hv : w.getLsbD 63 = true) (hopc : (w.extractLsb' 24 8).toNat < 0xF0)
    (h : decodeSlotParts w = .error r) : r ≠ .vacant ∧ r ≠ .firmwareClass := by
  revert h
  fun_cases decodeSlotParts w <;> intro h <;> cases h
  case case1 hvacant => exact absurd (hvacant.symm.trans hv) (by decide)
  case case4 hclass => exact absurd hclass (Nat.not_le.mpr hopc)
  case case5 => split <;> decide
  case case8 => exact slotReject_ne _ _ _
  all_goals decide

/-- So check 2 passes such a word only if it decodes (R287). -/
theorem decodeSlotParts_of_wordDefined {w : Dword} (hv : w.getLsbD 63 = true) (hopc : (w.extractLsb' 24 8).toNat < 0xF0)
    (h : wordDefined w = true) : ∃ op o f, decodeSlotParts w = .ok (op, o, f) := by
  cases hparts : decodeSlotParts w with
  | ok x => exact ⟨x.1, x.2.1, x.2.2, rfl⟩
  | error r =>
    obtain ⟨hvacant, hfirmware⟩ := decodeSlotParts_error_ne hv hopc hparts
    rw [wordDefined, hparts] at h
    cases r with
    | vacant => exact absurd rfl hvacant
    | firmwareClass => exact absurd rfl hfirmware
    | _ => cases h

theorem fn_of_wordDefined_nop {w : Dword} (hv : w.getLsbD 63 = true) (hopc : w.extractLsb' 24 8 = 0x6A) (h : wordDefined w = true) :
    w.extractLsb' 0 8 = 0 := by
  obtain ⟨op, o, f, hparts⟩ := decodeSlotParts_of_wordDefined hv (by rw [hopc]; decide) h
  obtain ⟨-, -, hop, hparse, hok⟩ := decodeSlotParts_eq_ok.mp hparts
  rw [hopc] at hop
  obtain rfl : SlotOp.nop = op := Option.some.inj hop
  rw [← fnBits_of_fnParse hparse, nop_fn hok]
  rfl

theorem State.armChecks_of_undefined (s : State) (r : Nat) (h : Header) {words : List Dword} (extra : List (Target × Packet)) {w : Dword}
    (hmem : w ∈ words) (hw : wordDefined w = false) : s.armChecks r h words extra = some .illegal := by
  have hwords : words.all wordDefined = false := List.all_eq_false.mpr ⟨w, hmem, by simp [hw]⟩
  simp [State.armChecks, State.check2, hwords]

/-- Settles O15: a firing of NOP has no effect of its own; its word's form and FN are what the decoder accepts of it; and the trigger
effects stand field by field in what `triggerElem` leaves. -/
theorem nopOnlyTriggers : Obligations.NopOnlyTriggers := by
  unfold Obligations.NopOnlyTriggers
  refine ⟨fun s o f => rfl, fun o f hok => ?form, fun s r h words extra w hmem hv hopc hfn => ?illegal, fun s e n o chans => ?effects⟩
  case form =>
    obtain ⟨hdt, htt⟩ := nop_destinations hok
    refine ⟨hdt, htt, fun hsa => ?_⟩
    rw [encodeSlot, operationHalf_slotBits, nop_fn hok, nop_secondSource hok, hsa, hdt, htt]
    rfl
  case illegal =>
    refine State.armChecks_of_undefined s r h extra hmem (Bool.eq_false_iff.mpr fun hdef => ?_)
    exact hfn (fn_of_wordDefined_nop hv hopc hdef)
  case effects =>
    simp only [State.trigger_elem, State.trigger_creds, triggerElem_slot]
    refine ⟨fun h => nextSt_of_write h _, fun h => nextSt_of_mask h _, fun h => nextSt_of_keep h _,
      fun c hc => triggerElem_queue _ _ _ _ hc, trivial, trivial, trivial, fun h k haw hl hsrc => ?credit, rfl, rfl, rfl⟩
    case credit => exact List.mem_append_right _ (List.mem_filterMap.mpr ⟨h, mem_takenBy_left _ _ _ haw hl, hsrc⟩)

end Sys2Proof.Machine
end


section
/-! SUPPORT. The packet, lane and fold instructions: what each gives for operands that pass its checks (R338, R351, R352, R373, R374). -/

namespace Sys2Proof.Machine

open Sys2Proof.Claims Sys2Proof.Laws

/-- An instruction that gives what its rule says wherever the rule's conditions hold. -/
theorem ActRule.completes {instr : Slot → Fn → Instr} {cond : Fn → Env → Ty → Nat → Prop}
    {act : Fn → Env → Ty → Nat → Act} {give : Fn → Env → Except FCode Act}
    (hexec : ∀ o f s, exec (instr o f) s = fire o f give s)
    (hgive : ∀ f e t n, cond f e t n → give f e = .ok (act f e t n)) : ActRule.Completes ⟨instr, cond, act⟩ := by
  intro s o f t n hcond hway
  rw [show exec _ s = _ from hexec o f s]
  exact fire_ok (hgive f (seen s o f) t n hcond) hway

theorem readPk_ok {x : Operand} (h : ownLenOk (keepPk x) = true) : readPk x = .ok (keepPk x) := by simp [readPk, h]

theorem readPk_whole {e : Env} (h : Whole e) : readPk e.a = .ok (kept e) := readPk_ok h

theorem lenOf_eq_lastLane (p : Packet) : lenOf p = lastLane p := rfl

section Packets

variable {f : Fn} {e : Env}

/-! Splitting and lengths (R373). -/

theorem pksplAct_ok (hown : Whole e) (hk : fnIm f % 8 ≤ lastLane (kept e))
    (h64 : (kept e).fmt = 6 ∨ (kept e).fmt = 7 → fnIm f % 8 % 2 = 0)
    (hmx6 : (kept e).fmt = 13 → (kept e).lanes.length = 6 ∧ fnIm f % 8 = 3) :
    pksplAct f e = .ok { out := some { kept e with lanes := (kept e).lanes.take (fnIm f % 8), eof := 0 },
                         second := some { kept e with lanes := (kept e).lanes.drop (fnIm f % 8) } } := by
  have hpairs : ¬ (((kept e).fmt == 6 || (kept e).fmt == 7) && fnIm f % 8 % 2 == 1) = true := by
    simp only [Bool.and_eq_true, Bool.or_eq_true, beq_iff_eq]
    rintro ⟨hfmt, hodd⟩
    have := h64 hfmt
    omega
  have hhalves : ¬ ((kept e).fmt == 13 && !((kept e).lanes.length == 6 && fnIm f % 8 == 3)) = true := by
    simpa using hmx6
  rw [pksplAct, readPk_whole hown]
  exact (if_neg (Nat.not_lt.mpr hk)).trans ((if_neg hpairs).trans (if_neg hhalves))

theorem pklenGetAct_ok (hown : Whole e) :
    pklenGetAct f e = .ok { out := some { oneLane e (rawPk e.a).lanes.length with kind := 0, sc := false, sce := 0 } } := by
  rw [pklenGetAct, readPk_whole hown]
  rfl

theorem pklenSetAct_ok (hown : Whole e)
    (hset : ownLenOk { kept e with lanes := ((kept e).lanes ++ List.replicate 8 0).take (fnIm f % 8 + 1) } = true) :
    pklenSetAct f e = .ok { out := some { kept e with lanes := ((kept e).lanes ++ List.replicate 8 0).take (fnIm f % 8 + 1) } } := by
  rw [pklenSetAct, readPk_whole hown]
  exact if_pos hset

/-! Lane moves (R351). -/

theorem lbcastAct_ok (hown : Whole e) (hk : fnIm f / 8 % 8 ≤ lastLane (kept e)) :
    lbcastAct f e = .ok { out := some { kept e with
      lanes := List.replicate (fnIm f % 8 + 1) ((kept e).lanes.getD (fnIm f / 8 % 8) 0) } } := by
  rw [lbcastAct, readPk_whole hown]
  exact if_neg (Nat.not_lt.mpr hk)

theorem lextAct_ok (hown : Whole e) (hk : fnSub f ≤ lastLane (kept e))
    (h64 : tyIs64 (fnTy f) = true → fnSub f % 2 = 0 ∧ fnSub f + 1 ≤ lastLane (kept e)) :
    lextAct f e = .ok { out := some { resPk e.a (fnTy f) (((kept e).lanes.drop (fnSub f)).take (unitOf (fnTy f)))
      with kind := 0, sc := false, sce := 0 } } := by
  have hin : ¬ (lenOf (kept e) < fnSub f || (tyIs64 (fnTy f) && (fnSub f % 2 == 1 || lenOf (kept e) < fnSub f + 1))) = true := by
    simp only [Bool.or_eq_true, Bool.and_eq_true, decide_eq_true_eq, beq_iff_eq]
    rintro (hlt | ⟨hty, hodd | hlt⟩)
    · exact absurd hlt (Nat.not_lt.mpr hk)
    · have := (h64 hty).1
      omega
    · exact absurd hlt (Nat.not_lt.mpr (h64 hty).2)
  rw [lextAct, readPk_whole hown]
  exact if_neg hin

theorem linsAct_ok (hown : Whole e) (hb : ownLenOk (rawPk e.b) = true) (hone : (rawPk e.b).lanes.length = 1)
    (hk : fnIm f % 8 ≤ lastLane (kept e) + 1) :
    linsAct f e = .ok { out := some { kept e with lanes := if fnIm f % 8 = (kept e).lanes.length
      then (kept e).lanes ++ [(rawPk e.b).lanes.headD 0] else (kept e).lanes.set (fnIm f % 8) ((rawPk e.b).lanes.headD 0) } } := by
  have hlen : ¬ ((keepPk e.b).lanes.length != 1) = true := by simpa [keepPk] using hone
  rw [linsAct, readPk_whole hown, readPk_ok (x := e.b) hb]
  refine (if_neg hlen).trans ((if_neg (Nat.not_lt.mpr hk)).trans ?_)
  simp only [beq_iff_eq]
  rfl

theorem lpermAct_ok (hown : Whole e) (hb : Control .n32 0xFFFFFF e.b)
    (hin : ∀ i < (kept e).lanes.length, controlNumber .n32 e.b / 2 ^ (3 * i) % 8 ≤ lastLane (kept e)) :
    lpermAct f e = .ok { out := some { kept e with lanes := (List.range (kept e).lanes.length).map (fun i =>
      (kept e).lanes.getD (controlNumber .n32 e.b / 2 ^ (3 * i) % 8) 0) } } := by
  have hidx : ¬ (((List.range (kept e).lanes.length).map (fun i => controlNumber .n32 e.b / 2 ^ (3 * i) % 8)).any
      (fun s => decide (lenOf (kept e) < s))) = true := by
    simp only [List.any_map, List.any_eq_true, List.mem_range, Function.comp_apply, decide_eq_true_eq, not_exists, not_and, Nat.not_lt]
    exact hin
  rw [lpermAct, readPk_whole hown, control_ok hb]
  refine (if_neg hidx).trans ?_
  rw [List.map_map]
  rfl

end Packets

/-! EOFM (R338). -/

theorem eofmAct_ok {f : Fn} {e : Env} (hop : fnIm f / 4 % 4 ≤ 2) :
    eofmAct f e = .ok { out := some { kept e with eof := BitVec.ofNat 2 (if fnIm f / 4 % 4 = 0 then fnIm f % 4
      else if fnIm f / 4 % 4 = 1 then Max.max (kept e).eof.toNat (fnIm f % 4) else Min.min (kept e).eof.toNat (fnIm f % 4)) } } := by
  obtain h | h | h : fnIm f / 4 % 4 = 0 ∨ fnIm f / 4 % 4 = 1 ∨ fnIm f / 4 % 4 = 2 := by omega
  all_goals
    rw [eofmAct, h]
    rfl

end Sys2Proof.Machine
end


section
/-! SUPPORT. LSWAP: the halves of a lane, its bytes, the lanes of a pair and the halves of a packet, swapped as R351 writes them. -/

namespace Sys2Proof.Machine

open Sys2Proof.Claims

theorem lane_halves_swapped (v : Lane) : (v.extractLsb' 0 16 ++ v.extractLsb' 16 16 : BitVec 32) = v <<< 16 ||| v >>> 16 := by
  refine BitVec.eq_of_getLsbD_eq fun i hi => ?_
  simp only [BitVec.getLsbD_append, BitVec.getLsbD_extractLsb', BitVec.getLsbD_or, BitVec.getLsbD_shiftLeft, BitVec.getLsbD_ushiftRight]
  by_cases hlow : i < 16
  · simp [hlow]
  · have hhigh : v.getLsbD (16 + i) = false := BitVec.getLsbD_of_ge v _ (by omega)
    have hin : i - 16 < 16 := by omega
    simp [hlow, hhigh, hin, hi]

/-- The mask of bytes 0 and 2 of a lane, bit by bit; and that of bytes 1 and 3. -/
theorem evenBytes_bit {i : Nat} (hi : i < 32) : (0x00FF00FF#32).getLsbD i = decide (i / 8 % 2 = 0) := by
  revert i
  decide

theorem oddBytes_bit {i : Nat} (hi : i < 32) : (0xFF00FF00#32).getLsbD i = decide (i / 8 % 2 = 1) := by
  revert i
  decide

theorem lane_bytes_swapped (v : Lane) :
    (v.extractLsb' 16 8 ++ v.extractLsb' 24 8 ++ v.extractLsb' 0 8 ++ v.extractLsb' 8 8 : BitVec 32)
      = (v &&& 0x00FF00FF) <<< 8 ||| (v &&& 0xFF00FF00) >>> 8 := by
  refine BitVec.eq_of_getLsbD_eq fun i hi => ?_
  simp only [BitVec.getLsbD_append, BitVec.getLsbD_extractLsb', BitVec.getLsbD_or, BitVec.getLsbD_and, BitVec.getLsbD_shiftLeft,
    BitVec.getLsbD_ushiftRight, BitVec.ofNat_eq_ofNat]
  have hcases : i < 8 ∨ (8 ≤ i ∧ i < 16) ∨ (16 ≤ i ∧ i < 24) ∨ 24 ≤ i := by omega
  obtain h | ⟨h, h'⟩ | ⟨h, h'⟩ | h := hcases
  · rw [oddBytes_bit (by omega), decide_eq_true (show (8 + i) / 8 % 2 = 1 by omega)]
    simp [h]
  · rw [oddBytes_bit (by omega), evenBytes_bit (by omega), decide_eq_false (show ¬ (8 + i) / 8 % 2 = 1 by omega),
      decide_eq_true (show (i - 8) / 8 % 2 = 0 by omega)]
    simp [show ¬ i < 8 by omega, show i - 8 < 8 by omega, hi]
  · rw [oddBytes_bit (by omega), evenBytes_bit (by omega), decide_eq_true (show (8 + i) / 8 % 2 = 1 by omega),
      decide_eq_false (show ¬ (i - 8) / 8 % 2 = 0 by omega)]
    simp [show ¬ i < 8 by omega, show ¬ i - 8 < 8 by omega, show i - 8 - 8 < 8 by omega, show 24 + (i - 8 - 8) = 8 + i by omega]
  · rw [BitVec.getLsbD_of_ge v (8 + i) (by omega), evenBytes_bit (by omega), decide_eq_true (show (i - 8) / 8 % 2 = 0 by omega)]
    simp [show ¬ i < 8 by omega, show ¬ i - 8 < 8 by omega, show ¬ i - 8 - 8 < 8 by omega, show i - 8 - 8 - 8 < 8 by omega,
      show 16 + (i - 8 - 8 - 8) = i - 8 by omega, hi]

/-- Lanes swapped in pairs, read at each place. -/
theorem swapPairs_eq (neg : Bool) (ls : List Lane) (h : ls.length % 2 = 0) : swapPairs neg ls = swapped 2 neg ls := by
  induction ls using swapPairs.induct with
  | case1 x y r ih =>
    have hr : r.length % 2 = 0 := by
      rw [List.length_cons, List.length_cons] at h
      omega
    rw [swapPairs, ih hr]
    simp only [swapped, List.length_cons, List.range_succ_eq_map, List.map_cons, List.map_map]
    congr 1
    · cases neg <;> simp [flipTop]
    · congr 1
      · simp
      · refine List.map_congr_left fun i _ => ?_
        rcases Nat.mod_two_eq_zero_or_one i with hi | hi
        · have h2 : (i + 1 + 1) % 2 = 0 := by omega
          simp [hi, h2]
        · have h2 : (i + 1 + 1) % 2 = 1 := by omega
          obtain ⟨j, rfl⟩ : ∃ j, i = j + 1 := ⟨i - 1, by omega⟩
          simp [hi, h2]
  | case2 r hr =>
    match r, hr, h with
    | [], _, _ => rfl
    | x :: y :: r, hr, _ => exact absurd rfl (hr x y r)

/-- The halves of a packet swapped, read at each place. -/
theorem swapHalves_eq (neg : Bool) (ls : List Lane) (h : ls.length % 2 = 0) :
    (ls.drop (ls.length / 2)).map (fun v => if neg then flipTop v else v) ++ ls.take (ls.length / 2) = swapped 3 neg ls := by
  apply List.ext_getElem
  · simp [swapped]
    omega
  · intro i h1 h2
    have hi : i < ls.length := by simpa [swapped] using h2
    by_cases hlow : i < ls.length / 2
    · have hmod : (i + ls.length / 2) % ls.length = i + ls.length / 2 := Nat.mod_eq_of_lt (by omega)
      have hin : i + ls.length / 2 < ls.length := by omega
      have hlen : i < ls.length - ls.length / 2 := by omega
      cases neg <;> simp [swapped, hlow, hmod, hin, hlen, Nat.add_comm, flipTop]
    · have hmod : (i + ls.length / 2) % ls.length = i - ls.length / 2 := by
        rw [show i + ls.length / 2 = i - ls.length / 2 + ls.length by omega, Nat.add_mod_right, Nat.mod_eq_of_lt (by omega)]
      have hin : i - ls.length / 2 < ls.length := by omega
      have hlen : ¬ i < ls.length - ls.length / 2 := by omega
      have hoff : ls.length - ls.length / 2 = ls.length / 2 := by omega
      simp [swapped, hlow, hmod, hin, List.getElem_append, hoff]

theorem lswapAct_ok {f : Fn} {e : Env} (hown : Whole e) (heven : 2 ≤ fnIm f % 4 → (kept e).lanes.length % 2 = 0) :
    lswapAct f e = .ok { out := some { kept e with lanes := swapped (fnIm f % 4) (fnIm f / 4 % 2 == 1) (kept e).lanes } } := by
  have hpairs : ¬ (2 ≤ fnIm f % 4 && (kept e).lanes.length % 2 == 1) = true := by
    simp only [Bool.and_eq_true, decide_eq_true_eq, beq_iff_eq]
    rintro ⟨hg, hodd⟩
    have := heven hg
    omega
  rw [lswapAct, readPk_whole hown]
  refine (if_neg hpairs).trans ?_
  obtain hg | hg | hg | hg : fnIm f % 4 = 0 ∨ fnIm f % 4 = 1 ∨ fnIm f % 4 = 2 ∨ fnIm f % 4 = 3 := by omega
  · simp only [hg, lane_halves_swapped]
    rfl
  · simp only [hg, lane_bytes_swapped]
    rfl
  · simp only [hg, swapPairs_eq _ _ (heven (by omega))]
    rfl
  · simp only [hg, swapHalves_eq _ _ (heven (by omega))]
    rfl

end Sys2Proof.Machine
end


section
/-! SUPPORT. PKMRG: the lanes held, the lanes that come, and what leaves (R374). -/

namespace Sys2Proof.Machine

open Sys2Proof.Claims

/-- PKMRG joins the lanes that come to those held, where they may join: a whole packet, and the header of what is held. -/
theorem pkmrgAct_ok {f : Fn} {e : Env} {held : Packet} {h : Nat} (hheld : (e.d.get (fnIm f % 4)).getD { lanes := [] } = held)
    (hh : (if (e.d.get (fnIm f % 4)).isSome then held.seq.toNat % 16 else 0) = h)
    (hjoin : (kept e).kind ≠ 2 → Whole e
      ∧ (h ≠ 0 → (kept e).fmt = held.fmt ∧ (kept e).fpx = held.fpx ∧ (kept e).sc = held.sc ∧ (kept e).sce = held.sce)) :
    pkmrgAct f e = .ok { queue := (pkmrgResult f e).1, dreg := some (fnIm f % 4, (pkmrgResult f e).2) } := by
  unfold pkmrgAct pkmrgResult
  rw [show keepPk e.a = kept e from rfl]
  unfold Whole at hjoin
  generalize kept e = a at hjoin ⊢
  dsimp only
  rw [hheld, hh]
  generalize hls : (if a.kind = 2 then [] else a.lanes) = ls
  have hcount : (if (a.kind == 2) = true then 0 else a.lanes.length) = ls.length := by
    subst hls
    simp only [beq_iff_eq]
    split <;> rfl
  have hkind : ls ≠ [] → a.kind ≠ 2 := by
    rintro hne hk
    rw [if_pos hk] at hls
    exact hne hls.symm
  have hcome : (if ls = [] then [] else a.lanes) = ls := by
    split
    · exact Eq.symm ‹_›
    · rw [← hls, if_neg (hkind ‹_›)]
  rw [hcount]
  simp only [bne_iff_ne, ne_eq, List.length_eq_zero_iff, ite_not, hcome, beq_iff_eq, Bool.not_eq_true', Bool.and_eq_true,
    Bool.and_eq_false_imp, List.isEmpty_iff, List.isEmpty_eq_false_iff, bne_eq_false_iff_eq]
  rw [if_neg (fun hbad => ?own), if_neg (fun hbad => ?fmt), if_neg (fun hbad => ?scaleTag)]
  · rfl
  case own =>
    obtain ⟨hne, hodd⟩ := hbad
    exact absurd ((hjoin (hkind hne)).1.symm.trans hodd) (by decide)
  case fmt =>
    obtain ⟨⟨hpos, hne⟩, hdiff⟩ := hbad
    obtain ⟨hfmt, hfpx, -, -⟩ := (hjoin (hkind hne)).2 hpos
    exact absurd (hdiff hfmt) (by simp [hfpx])
  case scaleTag =>
    obtain ⟨⟨hpos, hne⟩, hdiff⟩ := hbad
    obtain ⟨-, -, hsc, hsce⟩ := (hjoin (hkind hne)).2 hpos
    exact absurd (hdiff hsc) (by simp [hsce])

end Sys2Proof.Machine
end


section
/-! SUPPORT. LRED and LSCAN: the running results of a fold from the left are the folds of the values' beginnings (R352). -/

namespace Sys2Proof.Machine

open Sys2Proof.Claims Sys2Proof.Laws

theorem foldStep_eq_foldOne (e : Env) (t : Ty) (op x y : Nat) : foldStep e t op x y = foldOne e t op x y := by
  unfold foldStep foldOne
  split
  · match op with
    | 0 | 1 | _ + 2 => rfl
  · simp only [ival_eq_number, wrapRes_eq_wrapped, ← Int.not_le, ite_not]
    match op with
    | 0 | 1 | 2 | 3 | 4 | _ + 5 => rfl

/-- One step of a fold on a running result and the flags so far. -/
def foldNext (e : Env) (t : Ty) (op : Nat) (s : Nat × BitVec 32) (v : Nat) : Nat × BitVec 32 :=
  ((foldOne e t op s.1 v).1, s.2 ||| (foldOne e t op s.1 v).2)

theorem foldTo_eq (e : Env) (t : Ty) (op : Nat) (vs : List Nat) (i : Nat) :
    foldTo e t op vs i = ((vs.drop 1).take i).foldl (foldNext e t op) (foldStart e t (vs.headD 0)) := rfl

theorem scanFrom_eq (e : Env) (t : Ty) (op : Nat) (vs : List Nat) : ∀ (s : Nat) (fl : BitVec 32), scanFrom e t op s fl vs =
    ((List.range (vs.length + 1)).map (fun i => ((vs.take i).foldl (foldNext e t op) (s, fl)).1),
      (vs.foldl (foldNext e t op) (s, fl)).2) := by
  induction vs with
  | nil => intro s fl; rfl
  | cons v vs ih =>
    intro s fl
    rw [scanFrom, foldStep_eq_foldOne, ih, List.length_cons, List.range_succ_eq_map (n := vs.length + 1), List.map_cons, List.map_map]
    rfl

/-- The running results of a fold, and its flags, as R352's folds of the first values. -/
theorem scanFrom_eq_foldTo (e : Env) (t : Ty) (op : Nat) (vs : List Nat) :
    scanFrom e t op (scanFirst e t (vs.headD 0)).1 (scanFirst e t (vs.headD 0)).2 (vs.drop 1) =
      ((List.range (vs.length - 1 + 1)).map (fun i => (foldTo e t op vs i).1), (foldTo e t op vs (vs.length - 1)).2) := by
  have hall : (vs.drop 1).take (vs.length - 1) = vs.drop 1 := List.take_of_length_le (by simp)
  rw [scanFrom_eq, foldTo_eq e t op vs (vs.length - 1), hall, List.length_drop]
  rfl

/-! The source of a fold holds a value. -/

theorem tyWidth_bounds (t : Ty) : 0 < tyWidth t ∧ tyWidth t ≤ 32 * unitOf t := by
  cases t <;> simp [tyWidth, unitOf, tyIs64]

theorem even_length_of_is64 {t : Ty} {p : Packet} (h64 : tyIs64 t = true) (hown : ownLenOk p = true) (hty : hasTy t p = true) :
    p.lanes.length % 2 = 0 := by
  simp only [hasTy, Bool.and_eq_true, beq_iff_eq] at hty
  obtain ⟨hfmt, -⟩ := hty
  cases t with
  | n64 | s64 => simpa [ownLenOk, hfmt, tyFmt] using hown
  | _ => cases h64

/-- A packet of a type that is not empty has the lanes of one value (R84). -/
theorem unitOf_le_length {t : Ty} {p : Packet} (hown : ownLenOk p = true) (hty : hasTy t p = true) (hne : p.lanes ≠ []) :
    unitOf t ≤ p.lanes.length := by
  have hpos : 0 < p.lanes.length := List.length_pos_iff.mpr hne
  unfold unitOf
  split
  · have := even_length_of_is64 ‹_› hown hty
    omega
  · exact hpos

theorem laneVals_ne_nil {t : Ty} {ls : List Lane} (h : unitOf t ≤ ls.length) : laneVals t ls ≠ [] := by
  obtain ⟨hpos, hle⟩ := tyWidth_bounds t
  have hcount : 0 < 32 * ls.length / tyWidth t := Nat.div_pos (by omega) hpos
  simp [laneVals, bitVals]
  omega

/-- A single source gives the length of its own (R86). -/
theorem lengthRule_single {u m n : Nat} (hu : u ≤ m) (h : lengthRule u [m] = some n) : m = n := by
  obtain hlt | rfl := Nat.lt_or_eq_of_le hu
  · simpa [lengthRule, hlt] using h
  · simpa [lengthRule] using h

theorem spread_ne_nil {set : TySet} {f : Fn} {e : Env} {t : Ty} {n : Nat} (h : Sources set f e (srcsA e) t n)
    (hne : (srcFor f t e.a).lanes ≠ []) : spread t n (srcFor f t e.a).lanes ≠ [] := by
  obtain ⟨hown, hty, -⟩ := h.packets e.a (List.mem_singleton_self _)
  have hunit : unitOf t ≤ (srcFor f t e.a).lanes.length := unitOf_le_length hown hty hne
  have hlen : (srcFor f t e.a).lanes.length = n := lengthRule_single hunit h.lengths
  rw [spread, if_pos (beq_iff_eq.mpr hlen)]
  exact laneVals_ne_nil hunit

/-! The instructions. -/

section Folds

variable {f : Fn} {e : Env} {t : Ty} {n : Nat} {vs : List Nat} (hsrcs : Sources .fold f e (srcsA e) t n) (hhas : foldHas f t)
  (hvs : spread t n (srcFor f t e.a).lanes = vs)
include hsrcs hhas hvs

theorem scanAll_ok : scanAll f e = .ok (t, n, (List.range (vs.length - 1 + 1)).map (fun i => (foldTo e t (fnSub f) vs i).1),
    (foldTo e t (fnSub f) vs (vs.length - 1)).2) := by
  have hok : (!(tyIsFloat t) || decide (fnSub f < 3)) = true := by
    cases hf : tyIsFloat t with
    | false => rfl
    | true => simpa using hhas hf
  have hgather : gatherIf (fun t => !(tyIsFloat t) || decide (fnSub f < 3)) .fold f e [e.a] = .ok (t, n, [vs]) := by
    rw [← hvs]
    exact gatherIf_ok hsrcs hok
  rw [scanAll, hgather]
  simp only [bind, Except.bind, List.headD_cons, scanFrom_eq_foldTo]
  rfl

theorem lredAct_ok : lredAct f e = .ok
    { out := some (resPk e.a t (packLanes t (unitOf t) [(foldTo e t (fnSub f) vs (vs.length - 1)).1])),
      flags := (foldTo e t (fnSub f) vs (vs.length - 1)).2 } := by
  have hlast (g : Nat → Nat) : ((List.range (vs.length - 1 + 1)).map g).getLastD 0 = g (vs.length - 1) := by simp [List.range_succ]
  rw [lredAct, scanAll_ok hsrcs hhas hvs]
  simp only [bind, Except.bind, hlast]
  rfl

theorem lscanAct_ok (hne : (srcFor f t e.a).lanes ≠ []) : lscanAct f e = .ok
    { out := some (resPk e.a t (packLanes t n ((List.range vs.length).map (fun i => (foldTo e t (fnSub f) vs i).1)))),
      flags := (foldTo e t (fnSub f) vs (vs.length - 1)).2 } := by
  have hpos : vs.length - 1 + 1 = vs.length := Nat.sub_add_cancel (List.length_pos_iff.mpr (hvs ▸ spread_ne_nil hsrcs hne))
  rw [lscanAct, scanAll_ok hsrcs hhas hvs, hpos]
  rfl

end Folds

/-- Settles O5: each instruction, on operands that pass its checks, gives its rule's lanes. -/
theorem laneInstructionsCompute : Obligations.LaneInstructionsCompute := by
  unfold Obligations.LaneInstructionsCompute laneActs
  simp only [List.forall_mem_cons]
  refine ⟨ActRule.completes exec_pkspl fun f e _ _ ⟨hown, hk, h64, hmx6⟩ => pksplAct_ok hown hk h64 hmx6,
    ActRule.completes exec_pkmrg fun f e _ _ hjoin => pkmrgAct_ok rfl rfl hjoin,
    ActRule.completes exec_pklenGet fun f e _ _ hown => pklenGetAct_ok hown,
    ActRule.completes exec_pklenSet fun f e _ _ ⟨hown, hset⟩ => pklenSetAct_ok hown hset,
    ActRule.completes exec_lswap fun f e _ _ ⟨hown, heven⟩ => lswapAct_ok hown heven,
    ActRule.completes exec_lperm fun f e _ _ ⟨hown, hb, hin⟩ => lpermAct_ok hown hb hin,
    ActRule.completes exec_lbcast fun f e _ _ ⟨hown, hk⟩ => lbcastAct_ok hown hk,
    ActRule.completes exec_lext fun f e _ _ ⟨hown, hk, h64⟩ => lextAct_ok hown hk h64,
    ActRule.completes exec_lins fun f e _ _ ⟨hown, hb, hone, hk⟩ => linsAct_ok hown hb hone hk,
    ActRule.completes exec_lred fun f e _ _ ⟨hsrcs, hhas, _⟩ => lredAct_ok hsrcs hhas rfl,
    ActRule.completes exec_lscan fun f e _ _ ⟨hsrcs, hhas, hne⟩ => lscanAct_ok hsrcs hhas rfl hne,
    ActRule.completes exec_eofm fun f e _ _ hop => eofmAct_ok hop, by simp⟩

end Sys2Proof.Machine
end
